-- ==== Sys2Proof/Word.lean ====
section
/-! DEFINITION. The word types of the machine and nothing else; every operation on them stands in Machine/. -/

namespace Sys2Proof

/-- A register of a slot (R75). -/
abbrev Word := BitVec 64

/-- A byte of a memory. -/
abbrev Byte := BitVec 8

/-- The value of a v register: 1,024 bits, lane 0 lowest (R75, R95). -/
abbrev VWord := BitVec 1024

/-- The value of a mask register (R75). -/
abbrev MWord := BitVec 128

/-- The 256 words of 32 bits of an accumulator, word 0 lowest (R274). -/
abbrev AccWord := BitVec 8192

end Sys2Proof
end

