-- ==== Sys2Proof/Syntax.lean ====
section
/-! DEFINITION. The instructions and events of the UXW-16K: one constructor for each row of the opcode table.
Rows with an encoding take their operands as the fields of the word (R10 to R24); rows without one are the machine's events
(95_what_each_step_holds.md), and their arguments name what the event acts on. -/

namespace Sys2Proof

/-- The scopes of R13: CORE 00, DIE 01, PANEL 10, DOMAIN 11. -/
inductive Scope where
  | core | die | panel | domain
  deriving DecidableEq, Repr

/-- The operand of `fe.empty`, `fe.test` and `fe.wait` (R18, R61): an x, v or acc register. -/
inductive RegRef where
  | x (n : BitVec 5)
  | v (n : BitVec 4)
  | acc (n : BitVec 3)
  deriving DecidableEq, Repr

/-- One constructor for each row of the opcode table. In the encoded rows `rd`, `vd`, `md` are destinations, `rs1`, `rs2`,
`vs1`, `vs2`, `ms1`, `ms2` sources, `m` is the mask field (0 unmasked), `rel` the release scope of a deposit. -/
inductive Instr where
  /-- ILLEGAL_INSTRUCTION (R25). -/
  | illegalInstruction (w : BitVec 32)
  /-- WTMO_LIMIT (R51). -/
  | wtmoLimit (core slot serial : Nat)
  /-- GLOBAL_LOAD_DATA (R40). -/
  | globalLoadData (req : Nat)
  /-- STORE_ACK (R153). -/
  | storeAck (req : Nat)
  /-- HOME_ACCESS (R148). -/
  | homeAccess (req : Nat)
  /-- BANK_GRANT (R83). -/
  | bankGrant (core : Nat)
  /-- SFU_SERVICE_START (R263). -/
  | sfuServiceStart (core : Nat)
  /-- SFU_RESULT (R85). -/
  | sfuResult (core : Nat)
  /-- TLB_REFILL (R87). -/
  | tlbRefill (core walk : Nat)
  /-- FAULT_RECORD_PENDING_POST (R348). -/
  | faultRecordPendingPost (die : Nat)
  /-- TRAP_RECORD_PENDING_POST (R341). -/
  | trapRecordPendingPost (core : Nat)
  /-- DEPOSIT_DEPART (R96). -/
  | depositDepart (core oid : Nat)
  /-- DEPOSIT_LANDING (R97). -/
  | depositLanding (msg : Nat)
  /-- POSTED_ATOMIC_LANDING (R100). -/
  | postedAtomicLanding (msg : Nat)
  /-- GLOBAL_POSTED_ATOMIC (R100). -/
  | globalPostedAtomic (msg : Nat)
  /-- WAKE_R_LANDING (R58). -/
  | wakeRLanding (msg : Nat)
  /-- COUNTER_RAISE (R97). -/
  | counterRaise (msg : Nat)
  /-- LANDING_RECEIPT (R154). -/
  | landingReceipt (msg : Nat)
  /-- SEND_RELEASE (R109). -/
  | sendRelease (core slot serial : Nat)
  /-- OFFER (R227). -/
  | offer (msg : Nat)
  /-- ACK (R227). -/
  | ack (msg : Nat)
  /-- RECV (R227). -/
  | recv (msg : Nat)
  /-- WITHDRAW (R227). -/
  | withdraw (msg : Nat)
  /-- WITHDRAWN (R227). -/
  | withdrawn (msg : Nat)
  /-- BROKEN (R111). -/
  | broken (msg : Nat)
  /-- RECEIVE_TIMEOUT (R110). -/
  | receiveTimeout (core slot serial : Nat)
  /-- PROBE_TIMER (R232). -/
  | probeTimer (core slot serial : Nat)
  /-- PROBE (R233). -/
  | probe (msg : Nat)
  /-- REPLY (R234). -/
  | reply (msg : Nat)
  /-- WBAR_ARRIVAL_SIGNAL (R118). -/
  | wbarArrivalSignal (core slot serial : Nat)
  /-- WBAR_PHASE_RELEASE (R118). -/
  | wbarPhaseRelease (die ctx phase : Nat)
  /-- MMA_START (R277). -/
  | mmaStart (core : Nat)
  /-- MMA_SLICE_END (R278). -/
  | mmaSliceEnd (core : Nat)
  /-- MMA_COMPLETE (R277). -/
  | mmaComplete (core : Nat)
  /-- MLOAD_COMPLETE (R279). -/
  | mloadComplete (core acc : Nat)
  /-- DRAIN_COMPLETE (R281). -/
  | drainComplete (core drain : Nat)
  /-- AMAX_UPDATE (R284). -/
  | amaxUpdate (core drain : Nat)
  /-- GLEANER_ENTRY_START (R330). -/
  | gleanerEntryStart (core lid : Nat)
  /-- GLEANER_TRANSLATE (R331). -/
  | gleanerTranslate (core lid : Nat)
  /-- GLEANER_ENTRY_COMPLETE (R286). -/
  | gleanerEntryComplete (core lid entry : Nat)
  /-- GLEANER_LIST_END (R288). -/
  | gleanerListEnd (core lid : Nat)
  /-- THRESHER_OPERATION_START (R370). -/
  | thresherOperationStart (op : Nat)
  /-- SOURCE_READ (R429). -/
  | sourceRead (op rank tile : Nat)
  /-- EROUND (R376). -/
  | eround (msg : Nat)
  /-- UP (R377). -/
  | up (msg : Nat)
  /-- HEADER (R382). -/
  | header (msg : Nat)
  /-- PLANE (R382). -/
  | plane (msg : Nat)
  /-- PLANE_COUNTER_RAISE (R383). -/
  | planeCounterRaise (op rank : Nat)
  /-- CANCEL (R385). -/
  | cancel (msg : Nat)
  /-- THRESHER_OPERATION_END (R384). -/
  | thresherOperationEnd (op rank : Nat)
  /-- THRESHER_FAULT (R387). -/
  | thresherFault (op : Nat)
  /-- LAUNCH_ACCEPT (R200). -/
  | launchAccept (cmd : Nat)
  /-- PLACEMENT_START (R203). -/
  | placementStart
  /-- SHEAF_LOAD (R207). -/
  | sheafLoad (ticket : Nat)
  /-- START_WAVE (R208). -/
  | startWave (ticket : Nat)
  /-- START_RELEASE (R208). -/
  | startRelease (die ticket : Nat)
  /-- SOWER_SUSPEND (R214). -/
  | sowerSuspend (ticket : Nat)
  /-- SOWER_RESUME (R217). -/
  | sowerResume (ticket : Nat)
  /-- SOWER_KILL (R220). -/
  | sowerKill (ticket : Nat)
  /-- QUIESCENCE_ROUND (R215). -/
  | quiescenceRound (ticket : Nat)
  /-- COMBINE_ROUND_RESTART (R404). -/
  | combineRoundRestart (ticket : Nat)
  /-- RETIREMENT (R218). -/
  | retirement (ticket : Nat)
  /-- GENERATION_SWEEP (R223). -/
  | generationSweep (group : Nat)
  /-- FLIT_RECEIVE (R401). -/
  | flitReceive (module end_ msg : Nat)
  /-- FLIT_REPLAY (R401). -/
  | flitReplay (module end_ msg : Nat)
  /-- REPLAY_LIMIT (R401). -/
  | replayLimit (module : Nat)
  /-- MODULE_DRAINED (R391). -/
  | moduleDrained (module : Nat)
  /-- TRAIN_DONE (R391). -/
  | trainDone (module : Nat)
  /-- MESSAGE_DISCARD (R404). -/
  | messageDiscard (msg module : Nat)
  /-- LOSS_NOTICE (R404). -/
  | lossNotice (msg : Nat)
  /-- ACCESS_TIMEOUT (R405). -/
  | accessTimeout (req : Nat)
  /-- MODULE_HOLD (R391). -/
  | moduleHold (module : Nat)
  /-- MODULE_UNHOLD (R391). -/
  | moduleUnhold (module : Nat)
  /-- RETRAIN (R392). -/
  | retrain (module end_ : Nat)
  /-- STOLON_RETRAIN (R408). -/
  | stolonRetrain (port : Nat)
  /-- STOLON_HOLD (R408). -/
  | stolonHold (port : Nat)
  /-- STOLON_ENABLE (R423). -/
  | stolonEnable (port : Nat)
  /-- WGDATA (R409). -/
  | wgdata (core slot serial : Nat)
  /-- INV_ALL (R351). -/
  | invAll (die : Nat)
  /-- INV_ASID (R351). -/
  | invAsid (die asid : Nat)
  /-- INV_ASID_PAGE (R351). -/
  | invAsidPage (die asid page : Nat)
  /-- INV_PAGE (R351). -/
  | invPage (die page : Nat)
  /-- INV_COMPLETE (R351). -/
  | invComplete (die : Nat)
  /-- WTRAPQ_POP (R341). -/
  | wtrapqPop (core : Nat)
  /-- WDMAP_WRITE (R94). -/
  | wdmapWrite (core : Nat) (value : BitVec 64)
  /-- WWINDATA (R147). -/
  | wwindata (core win : Nat) (value : BitVec 64)
  /-- ASID_ENTRY_WRITE (R198). -/
  | asidEntryWrite (index : Nat) (value : BitVec 64)
  /-- CLKOFF (R410). -/
  | clkoff (die : Nat) (value : BitVec 64)
  /-- CLKRATE (R410). -/
  | clkrate (die : Nat) (value : BitVec 64)
  /-- SQ_DOORBELL (R414). -/
  | sqDoorbell (value : BitVec 64)
  /-- SQ_CONSUME (R414). -/
  | sqConsume
  /-- SQ_COMPLETION (R414). -/
  | sqCompletion
  /-- HOST_MEM_ACCESS (R165). -/
  | hostMemAccess (write : Bool) (addr size : Nat) (value : BitVec 512)
  /-- HOST_WINDOW_WRITE (R424). -/
  | hostWindowWrite (reg : Nat) (value : BitVec 64)
  /-- PANEL_RESET (R417). -/
  | panelReset
  /-- DIE_RESET (R402). -/
  | dieReset (die : Nat)
  /-- SIGREQ (R419). -/
  | sigreq
  /-- MEXT (R418). -/
  | mext
  /-- MEXT_COMPLETE (R420). -/
  | mextComplete
  /-- ATTGO (R421). -/
  | attgo
  /-- ATTEST_COMPLETE (R421). -/
  | attestComplete
  /-- PCAP (R420). -/
  | pcap (value : BitVec 64)
  /-- POWER_MEASURE (R425). -/
  | powerMeasure (centiwatts : Nat)
  /-- SENSOR_ALARM (R422). -/
  | sensorAlarm (sensor : Nat)
  /-- REGISTER_WRITE (R7). -/
  | registerWrite (addr : Nat) (value : BitVec 64)
  /-- WRS_STO_TIMEOUT (R43). -/
  | wrsStoTimeout (core slot serial : Nat)
  /-- PARTNER_COPY_REFRESH (R390). -/
  | partnerCopyRefresh (module : Nat)
  /-- SWEEP_MARKER_RETURN (R223). -/
  | sweepMarkerReturn (group : Nat)
  /-- RESERVATION_MESSAGE (R205). -/
  | reservationMessage (msg : Nat)
  /-- LB (R40). -/
  | lb (rd rs1 : BitVec 5) (imm : BitVec 12)
  /-- LH (R40). -/
  | lh (rd rs1 : BitVec 5) (imm : BitVec 12)
  /-- LW (R40). -/
  | lw (rd rs1 : BitVec 5) (imm : BitVec 12)
  /-- LD (R40). -/
  | ld (rd rs1 : BitVec 5) (imm : BitVec 12)
  /-- LBU (R40). -/
  | lbu (rd rs1 : BitVec 5) (imm : BitVec 12)
  /-- LHU (R40). -/
  | lhu (rd rs1 : BitVec 5) (imm : BitVec 12)
  /-- LWU (R40). -/
  | lwu (rd rs1 : BitVec 5) (imm : BitVec 12)
  /-- SB (R40). -/
  | sb (rs1 rs2 : BitVec 5) (imm : BitVec 12)
  /-- SH (R40). -/
  | sh (rs1 rs2 : BitVec 5) (imm : BitVec 12)
  /-- SW (R40). -/
  | sw (rs1 rs2 : BitVec 5) (imm : BitVec 12)
  /-- SD (R40). -/
  | sd (rs1 rs2 : BitVec 5) (imm : BitVec 12)
  /-- FENCE (R44). -/
  | fence (fm : Bool) (pred succ : BitVec 4)
  /-- FENCE_I (R44). -/
  | fenceI
  /-- ADDI (R16). -/
  | addi (rd rs1 : BitVec 5) (imm : BitVec 12)
  /-- SLTI (R16). -/
  | slti (rd rs1 : BitVec 5) (imm : BitVec 12)
  /-- SLTIU (R16). -/
  | sltiu (rd rs1 : BitVec 5) (imm : BitVec 12)
  /-- XORI (R16). -/
  | xori (rd rs1 : BitVec 5) (imm : BitVec 12)
  /-- ORI (R16). -/
  | ori (rd rs1 : BitVec 5) (imm : BitVec 12)
  /-- ANDI (R16). -/
  | andi (rd rs1 : BitVec 5) (imm : BitVec 12)
  /-- SLLI (R16). -/
  | slli (rd rs1 : BitVec 5) (sh : BitVec 6)
  /-- SRLI (R16). -/
  | srli (rd rs1 : BitVec 5) (sh : BitVec 6)
  /-- SRAI (R16). -/
  | srai (rd rs1 : BitVec 5) (sh : BitVec 6)
  /-- AUIPC (R11). -/
  | auipc (rd : BitVec 5) (imm : BitVec 20)
  /-- LUI (R11). -/
  | lui (rd : BitVec 5) (imm : BitVec 20)
  /-- ADDIW (R16). -/
  | addiw (rd rs1 : BitVec 5) (imm : BitVec 12)
  /-- SLLIW (R16). -/
  | slliw (rd rs1 sh : BitVec 5)
  /-- SRLIW (R16). -/
  | srliw (rd rs1 sh : BitVec 5)
  /-- SRAIW (R16). -/
  | sraiw (rd rs1 sh : BitVec 5)
  /-- LR_W (R42). -/
  | lrW (rd rs1 : BitVec 5) (aq rl : Bool)
  /-- LR_D (R42). -/
  | lrD (rd rs1 : BitVec 5) (aq rl : Bool)
  /-- SC_W (R42). -/
  | scW (rd rs1 rs2 : BitVec 5) (aq rl : Bool)
  /-- SC_D (R42). -/
  | scD (rd rs1 rs2 : BitVec 5) (aq rl : Bool)
  /-- AMOSWAP_W (R41). -/
  | amoswapW (rd rs1 rs2 : BitVec 5) (aq rl : Bool)
  /-- AMOSWAP_D (R41). -/
  | amoswapD (rd rs1 rs2 : BitVec 5) (aq rl : Bool)
  /-- AMOADD_W (R41). -/
  | amoaddW (rd rs1 rs2 : BitVec 5) (aq rl : Bool)
  /-- AMOADD_D (R41). -/
  | amoaddD (rd rs1 rs2 : BitVec 5) (aq rl : Bool)
  /-- AMOXOR_W (R41). -/
  | amoxorW (rd rs1 rs2 : BitVec 5) (aq rl : Bool)
  /-- AMOXOR_D (R41). -/
  | amoxorD (rd rs1 rs2 : BitVec 5) (aq rl : Bool)
  /-- AMOAND_W (R41). -/
  | amoandW (rd rs1 rs2 : BitVec 5) (aq rl : Bool)
  /-- AMOAND_D (R41). -/
  | amoandD (rd rs1 rs2 : BitVec 5) (aq rl : Bool)
  /-- AMOOR_W (R41). -/
  | amoorW (rd rs1 rs2 : BitVec 5) (aq rl : Bool)
  /-- AMOOR_D (R41). -/
  | amoorD (rd rs1 rs2 : BitVec 5) (aq rl : Bool)
  /-- AMOMIN_W (R41). -/
  | amominW (rd rs1 rs2 : BitVec 5) (aq rl : Bool)
  /-- AMOMIN_D (R41). -/
  | amominD (rd rs1 rs2 : BitVec 5) (aq rl : Bool)
  /-- AMOMAX_W (R41). -/
  | amomaxW (rd rs1 rs2 : BitVec 5) (aq rl : Bool)
  /-- AMOMAX_D (R41). -/
  | amomaxD (rd rs1 rs2 : BitVec 5) (aq rl : Bool)
  /-- AMOMINU_W (R41). -/
  | amominuW (rd rs1 rs2 : BitVec 5) (aq rl : Bool)
  /-- AMOMINU_D (R41). -/
  | amominuD (rd rs1 rs2 : BitVec 5) (aq rl : Bool)
  /-- AMOMAXU_W (R41). -/
  | amomaxuW (rd rs1 rs2 : BitVec 5) (aq rl : Bool)
  /-- AMOMAXU_D (R41). -/
  | amomaxuD (rd rs1 rs2 : BitVec 5) (aq rl : Bool)
  /-- ADD (R16). -/
  | add (rd rs1 rs2 : BitVec 5)
  /-- SUB (R16). -/
  | sub (rd rs1 rs2 : BitVec 5)
  /-- SLL (R16). -/
  | sll (rd rs1 rs2 : BitVec 5)
  /-- SLT (R16). -/
  | slt (rd rs1 rs2 : BitVec 5)
  /-- SLTU (R16). -/
  | sltu (rd rs1 rs2 : BitVec 5)
  /-- XOR (R16). -/
  | xor (rd rs1 rs2 : BitVec 5)
  /-- SRL (R16). -/
  | srl (rd rs1 rs2 : BitVec 5)
  /-- SRA (R16). -/
  | sra (rd rs1 rs2 : BitVec 5)
  /-- OR (R16). -/
  | or (rd rs1 rs2 : BitVec 5)
  /-- AND (R16). -/
  | and (rd rs1 rs2 : BitVec 5)
  /-- MUL (R16). -/
  | mul (rd rs1 rs2 : BitVec 5)
  /-- MULH (R16). -/
  | mulh (rd rs1 rs2 : BitVec 5)
  /-- MULHSU (R16). -/
  | mulhsu (rd rs1 rs2 : BitVec 5)
  /-- MULHU (R16). -/
  | mulhu (rd rs1 rs2 : BitVec 5)
  /-- DIV (R16). -/
  | div (rd rs1 rs2 : BitVec 5)
  /-- DIVU (R16). -/
  | divu (rd rs1 rs2 : BitVec 5)
  /-- REM (R16). -/
  | rem (rd rs1 rs2 : BitVec 5)
  /-- REMU (R16). -/
  | remu (rd rs1 rs2 : BitVec 5)
  /-- ADDW (R16). -/
  | addw (rd rs1 rs2 : BitVec 5)
  /-- SUBW (R16). -/
  | subw (rd rs1 rs2 : BitVec 5)
  /-- SLLW (R16). -/
  | sllw (rd rs1 rs2 : BitVec 5)
  /-- SRLW (R16). -/
  | srlw (rd rs1 rs2 : BitVec 5)
  /-- SRAW (R16). -/
  | sraw (rd rs1 rs2 : BitVec 5)
  /-- MULW (R16). -/
  | mulw (rd rs1 rs2 : BitVec 5)
  /-- DIVW (R16). -/
  | divw (rd rs1 rs2 : BitVec 5)
  /-- DIVUW (R16). -/
  | divuw (rd rs1 rs2 : BitVec 5)
  /-- REMW (R16). -/
  | remw (rd rs1 rs2 : BitVec 5)
  /-- REMUW (R16). -/
  | remuw (rd rs1 rs2 : BitVec 5)
  /-- BEQ (R9). -/
  | beq (rs1 rs2 : BitVec 5) (imm : BitVec 12)
  /-- BNE (R9). -/
  | bne (rs1 rs2 : BitVec 5) (imm : BitVec 12)
  /-- BLT (R9). -/
  | blt (rs1 rs2 : BitVec 5) (imm : BitVec 12)
  /-- BGE (R9). -/
  | bge (rs1 rs2 : BitVec 5) (imm : BitVec 12)
  /-- BLTU (R9). -/
  | bltu (rs1 rs2 : BitVec 5) (imm : BitVec 12)
  /-- BGEU (R9). -/
  | bgeu (rs1 rs2 : BitVec 5) (imm : BitVec 12)
  /-- JALR (R9). -/
  | jalr (rd rs1 : BitVec 5) (imm : BitVec 12)
  /-- JAL (R9). -/
  | jal (rd : BitVec 5) (imm : BitVec 20)
  /-- ECALL (R45). -/
  | ecall
  /-- EBREAK (R45). -/
  | ebreak
  /-- SRET (R45). -/
  | sret
  /-- MRET (R45). -/
  | mret
  /-- WFI (R45). -/
  | wfi
  /-- WRS_NTO (R43). -/
  | wrsNto
  /-- WRS_STO (R43). -/
  | wrsSto
  /-- SFENCE_VMA (R45). -/
  | sfenceVma (rs1 rs2 : BitVec 5)
  /-- CSRRW (R27). -/
  | csrrw (rd rs1 : BitVec 5) (csr : BitVec 12)
  /-- CSRRS (R27). -/
  | csrrs (rd rs1 : BitVec 5) (csr : BitVec 12)
  /-- CSRRC (R27). -/
  | csrrc (rd rs1 : BitVec 5) (csr : BitVec 12)
  /-- CSRRWI (R27). -/
  | csrrwi (rd uimm : BitVec 5) (csr : BitVec 12)
  /-- CSRRSI (R27). -/
  | csrrsi (rd uimm : BitVec 5) (csr : BitVec 12)
  /-- CSRRCI (R27). -/
  | csrrci (rd uimm : BitVec 5) (csr : BitVec 12)
  /-- PARK (R56). -/
  | park
  /-- WAKE (R57). -/
  | wake (rs1 : BitVec 5)
  /-- WAKE_R (R58). -/
  | wakeR (rs1 : BitVec 5)
  /-- PFENCE (R59). -/
  | pfence (scope : Scope) (pred succ : BitVec 5)
  /-- STOP (R60). -/
  | stop
  /-- FE_EMPTY (R61). -/
  | feEmpty (reg : RegRef)
  /-- FE_TEST (R61). -/
  | feTest (rd : BitVec 5) (reg : RegRef)
  /-- FE_WAIT (R61). -/
  | feWait (reg : RegRef)
  /-- DSB (R96). -/
  | dsb (rs1 rs2 : BitVec 5) (rel : Option Scope)
  /-- DSH (R96). -/
  | dsh (rs1 rs2 : BitVec 5) (rel : Option Scope)
  /-- DSW (R96). -/
  | dsw (rs1 rs2 : BitVec 5) (rel : Option Scope)
  /-- DSD (R96). -/
  | dsd (rs1 rs2 : BitVec 5) (rel : Option Scope)
  /-- DSV (R96). -/
  | dsv (rs1 : BitVec 5) (vs2 : BitVec 4) (rel : Option Scope)
  /-- DADD_W (R100). -/
  | daddW (rs1 rs2 : BitVec 5) (rel : Option Scope)
  /-- DADD_D (R100). -/
  | daddD (rs1 rs2 : BitVec 5) (rel : Option Scope)
  /-- DMAX_W (R100). -/
  | dmaxW (rs1 rs2 : BitVec 5) (rel : Option Scope)
  /-- DMAX_D (R100). -/
  | dmaxD (rs1 rs2 : BitVec 5) (rel : Option Scope)
  /-- DMIN_W (R100). -/
  | dminW (rs1 rs2 : BitVec 5) (rel : Option Scope)
  /-- DMIN_D (R100). -/
  | dminD (rs1 rs2 : BitVec 5) (rel : Option Scope)
  /-- DMAXU_W (R100). -/
  | dmaxuW (rs1 rs2 : BitVec 5) (rel : Option Scope)
  /-- DMAXU_D (R100). -/
  | dmaxuD (rs1 rs2 : BitVec 5) (rel : Option Scope)
  /-- DAND_W (R100). -/
  | dandW (rs1 rs2 : BitVec 5) (rel : Option Scope)
  /-- DAND_D (R100). -/
  | dandD (rs1 rs2 : BitVec 5) (rel : Option Scope)
  /-- DOR_W (R100). -/
  | dorW (rs1 rs2 : BitVec 5) (rel : Option Scope)
  /-- DOR_D (R100). -/
  | dorD (rs1 rs2 : BitVec 5) (rel : Option Scope)
  /-- DXOR_W (R100). -/
  | dxorW (rs1 rs2 : BitVec 5) (rel : Option Scope)
  /-- DXOR_D (R100). -/
  | dxorD (rs1 rs2 : BitVec 5) (rel : Option Scope)
  /-- CNT_SET (R105). -/
  | cntSet (c : BitVec 6) (rs1 : BitVec 5)
  /-- CNT_ADD (R105). -/
  | cntAdd (c : BitVec 6) (rs1 : BitVec 5)
  /-- CNT_RD (R105). -/
  | cntRd (rd : BitVec 5) (c : BitVec 6)
  /-- CNT_WAIT (R106). -/
  | cntWait (rd : BitVec 5) (c : BitVec 6)
  /-- CNT_POLL (R105). -/
  | cntPoll (rd : BitVec 5) (c : BitVec 6)
  /-- CNT_MODE (R105). -/
  | cntMode (c : BitVec 6) (rs1 : BitVec 5)
  /-- CHS (R109). -/
  | chs (ch : BitVec 8) (rs1 : BitVec 5)
  /-- CHSV (R109). -/
  | chsv (ch : BitVec 8) (vs1 : BitVec 4)
  /-- CHR (R110). -/
  | chr (rd : BitVec 5) (ch : BitVec 8)
  /-- CHRV (R110). -/
  | chrv (vd : BitVec 4) (ch : BitVec 8)
  /-- ALT_ON (R115). -/
  | altOn (n : BitVec 3) (ch : BitVec 8)
  /-- ALT_OFF (R115). -/
  | altOff (n : BitVec 3)
  /-- ALT_WAIT (R116). -/
  | altWait (rd : BitVec 5) (tmo skip : Bool)
  /-- ALT_CLR (R115). -/
  | altClr
  /-- CHPROBE (R114). -/
  | chprobe (rd : BitVec 5) (ch : BitVec 8)
  /-- WBAR_A (R118). -/
  | wbarA (b : BitVec 3)
  /-- WBAR_W (R119). -/
  | wbarW (rd : BitVec 5) (b : BitVec 3)
  /-- GRP_PUT (R121). -/
  | grpPut (g : BitVec 4) (rs1 : BitVec 5)
  /-- GRP_GET (R121). -/
  | grpGet (rd : BitVec 5) (g : BitVec 4)
  /-- MMA_FP8 (R275). -/
  | mmaFp8 (acc : BitVec 3) (rs1 rs2 : BitVec 5) (z : Bool)
  /-- MMA_BF16 (R275). -/
  | mmaBf16 (acc : BitVec 3) (rs1 rs2 : BitVec 5) (z : Bool)
  /-- MMA_FP16 (R275). -/
  | mmaFp16 (acc : BitVec 3) (rs1 rs2 : BitVec 5) (z : Bool)
  /-- MMA_MXF8 (R275). -/
  | mmaMxf8 (acc : BitVec 3) (rs1 rs2 : BitVec 5) (z : Bool)
  /-- MMA_MXF4 (R275). -/
  | mmaMxf4 (acc : BitVec 3) (rs1 rs2 : BitVec 5) (z : Bool)
  /-- MMA_DXB8 (R275). -/
  | mmaDxb8 (acc : BitVec 3) (rs1 rs2 : BitVec 5) (z : Bool)
  /-- MMA_DXB4 (R275). -/
  | mmaDxb4 (acc : BitVec 3) (rs1 rs2 : BitVec 5) (z : Bool)
  /-- MMA_I8 (R275). -/
  | mmaI8 (acc : BitVec 3) (rs1 rs2 : BitVec 5) (z : Bool)
  /-- MACQ (R279). -/
  | macq (acc : BitVec 3)
  /-- MREL (R279). -/
  | mrel (acc : BitVec 3)
  /-- MZERO (R279). -/
  | mzero (acc : BitVec 3)
  /-- MLOAD (R279). -/
  | mload (acc : BitVec 3) (rs1 : BitVec 5)
  /-- MDRAIN (R281). -/
  | mdrain (acc : BitVec 3) (rs1 rs2 : BitVec 5) (amax : Bool)
  /-- MDRAIN_D (R282). -/
  | mdrainD (acc : BitVec 3) (rs1 rs2 : BitVec 5) (amax : Bool)
  /-- MDRAIN_Q (R283). -/
  | mdrainQ (acc : BitVec 3) (rs1 rs2 : BitVec 5) (amax : Bool)
  /-- CE_GO (R287). -/
  | ceGo (rd rs1 : BitVec 5)
  /-- CE_WAIT (R289). -/
  | ceWait (rd rs1 : BitVec 5)
  /-- CE_STAT (R289). -/
  | ceStat (rd rs1 : BitVec 5)
  /-- CE_ABORT (R289). -/
  | ceAbort (rd rs1 : BitVec 5)
  /-- PL_GO (R291). -/
  | plGo (rd rs1 : BitVec 5)
  /-- PL_WAIT (R292). -/
  | plWait (rd rs1 : BitVec 5)
  /-- PL_CANCEL (R293). -/
  | plCancel (rd rs1 : BitVec 5)
  /-- PL_STAT (R292). -/
  | plStat (rd rs1 : BitVec 5)
  /-- SOW (R295). -/
  | sow (rd rs1 : BitVec 5)
  /-- SSTOP (R296). -/
  | sstop (rd rs1 : BitVec 5)
  /-- SRESUME (R296). -/
  | sresume (rd rs1 : BitVec 5)
  /-- SKILL (R296). -/
  | skill (rd rs1 : BitVec 5)
  /-- SSAVE (R297). -/
  | ssave (rd rs1 rs2 : BitVec 5)
  /-- SLOAD (R297). -/
  | sload (rd rs1 rs2 : BitVec 5)
  /-- VADD_VV (R251). -/
  | vaddVv (vd vs1 vs2 : BitVec 4) (m : BitVec 3)
  /-- VADD_VX (R251). -/
  | vaddVx (vd vs1 : BitVec 4) (rs2 : BitVec 5) (m : BitVec 3)
  /-- VSUB_VV (R251). -/
  | vsubVv (vd vs1 vs2 : BitVec 4) (m : BitVec 3)
  /-- VSUB_VX (R251). -/
  | vsubVx (vd vs1 : BitVec 4) (rs2 : BitVec 5) (m : BitVec 3)
  /-- VMUL_VV (R251). -/
  | vmulVv (vd vs1 vs2 : BitVec 4) (m : BitVec 3)
  /-- VMUL_VX (R251). -/
  | vmulVx (vd vs1 : BitVec 4) (rs2 : BitVec 5) (m : BitVec 3)
  /-- VMULH_VV (R251). -/
  | vmulhVv (vd vs1 vs2 : BitVec 4) (m : BitVec 3)
  /-- VMULH_VX (R251). -/
  | vmulhVx (vd vs1 : BitVec 4) (rs2 : BitVec 5) (m : BitVec 3)
  /-- VMIN_VV (R251). -/
  | vminVv (vd vs1 vs2 : BitVec 4) (m : BitVec 3)
  /-- VMIN_VX (R251). -/
  | vminVx (vd vs1 : BitVec 4) (rs2 : BitVec 5) (m : BitVec 3)
  /-- VMAX_VV (R251). -/
  | vmaxVv (vd vs1 vs2 : BitVec 4) (m : BitVec 3)
  /-- VMAX_VX (R251). -/
  | vmaxVx (vd vs1 : BitVec 4) (rs2 : BitVec 5) (m : BitVec 3)
  /-- VMINU_VV (R251). -/
  | vminuVv (vd vs1 vs2 : BitVec 4) (m : BitVec 3)
  /-- VMINU_VX (R251). -/
  | vminuVx (vd vs1 : BitVec 4) (rs2 : BitVec 5) (m : BitVec 3)
  /-- VMAXU_VV (R251). -/
  | vmaxuVv (vd vs1 vs2 : BitVec 4) (m : BitVec 3)
  /-- VMAXU_VX (R251). -/
  | vmaxuVx (vd vs1 : BitVec 4) (rs2 : BitVec 5) (m : BitVec 3)
  /-- VSADD_VV (R251). -/
  | vsaddVv (vd vs1 vs2 : BitVec 4) (m : BitVec 3)
  /-- VSADD_VX (R251). -/
  | vsaddVx (vd vs1 : BitVec 4) (rs2 : BitVec 5) (m : BitVec 3)
  /-- VSSUB_VV (R251). -/
  | vssubVv (vd vs1 vs2 : BitVec 4) (m : BitVec 3)
  /-- VSSUB_VX (R251). -/
  | vssubVx (vd vs1 : BitVec 4) (rs2 : BitVec 5) (m : BitVec 3)
  /-- VMACC_VV (R251). -/
  | vmaccVv (vd vs1 vs2 : BitVec 4) (m : BitVec 3)
  /-- VMACC_VX (R251). -/
  | vmaccVx (vd vs1 : BitVec 4) (rs2 : BitVec 5) (m : BitVec 3)
  /-- VFADD_VV (R253). -/
  | vfaddVv (vd vs1 vs2 : BitVec 4) (m : BitVec 3)
  /-- VFADD_VX (R253). -/
  | vfaddVx (vd vs1 : BitVec 4) (rs2 : BitVec 5) (m : BitVec 3)
  /-- VFSUB_VV (R253). -/
  | vfsubVv (vd vs1 vs2 : BitVec 4) (m : BitVec 3)
  /-- VFSUB_VX (R253). -/
  | vfsubVx (vd vs1 : BitVec 4) (rs2 : BitVec 5) (m : BitVec 3)
  /-- VFMUL_VV (R253). -/
  | vfmulVv (vd vs1 vs2 : BitVec 4) (m : BitVec 3)
  /-- VFMUL_VX (R253). -/
  | vfmulVx (vd vs1 : BitVec 4) (rs2 : BitVec 5) (m : BitVec 3)
  /-- VFMIN_VV (R250). -/
  | vfminVv (vd vs1 vs2 : BitVec 4) (m : BitVec 3)
  /-- VFMIN_VX (R250). -/
  | vfminVx (vd vs1 : BitVec 4) (rs2 : BitVec 5) (m : BitVec 3)
  /-- VFMAX_VV (R250). -/
  | vfmaxVv (vd vs1 vs2 : BitVec 4) (m : BitVec 3)
  /-- VFMAX_VX (R250). -/
  | vfmaxVx (vd vs1 : BitVec 4) (rs2 : BitVec 5) (m : BitVec 3)
  /-- VFMACC_VV (R253). -/
  | vfmaccVv (vd vs1 vs2 : BitVec 4) (m : BitVec 3)
  /-- VFMACC_VX (R253). -/
  | vfmaccVx (vd vs1 : BitVec 4) (rs2 : BitVec 5) (m : BitVec 3)
  /-- VFNMSAC_VV (R253). -/
  | vfnmsacVv (vd vs1 vs2 : BitVec 4) (m : BitVec 3)
  /-- VFNMSAC_VX (R253). -/
  | vfnmsacVx (vd vs1 : BitVec 4) (rs2 : BitVec 5) (m : BitVec 3)
  /-- VMSEQ_VV (R254). -/
  | vmseqVv (md : BitVec 3) (vs1 vs2 : BitVec 4) (m : BitVec 3)
  /-- VMSEQ_VX (R254). -/
  | vmseqVx (md : BitVec 3) (vs1 : BitVec 4) (rs2 : BitVec 5) (m : BitVec 3)
  /-- VMSNE_VV (R254). -/
  | vmsneVv (md : BitVec 3) (vs1 vs2 : BitVec 4) (m : BitVec 3)
  /-- VMSNE_VX (R254). -/
  | vmsneVx (md : BitVec 3) (vs1 : BitVec 4) (rs2 : BitVec 5) (m : BitVec 3)
  /-- VMSLT_VV (R254). -/
  | vmsltVv (md : BitVec 3) (vs1 vs2 : BitVec 4) (m : BitVec 3)
  /-- VMSLT_VX (R254). -/
  | vmsltVx (md : BitVec 3) (vs1 : BitVec 4) (rs2 : BitVec 5) (m : BitVec 3)
  /-- VMSLTU_VV (R254). -/
  | vmsltuVv (md : BitVec 3) (vs1 vs2 : BitVec 4) (m : BitVec 3)
  /-- VMSLTU_VX (R254). -/
  | vmsltuVx (md : BitVec 3) (vs1 : BitVec 4) (rs2 : BitVec 5) (m : BitVec 3)
  /-- VMFEQ_VV (R254). -/
  | vmfeqVv (md : BitVec 3) (vs1 vs2 : BitVec 4) (m : BitVec 3)
  /-- VMFEQ_VX (R254). -/
  | vmfeqVx (md : BitVec 3) (vs1 : BitVec 4) (rs2 : BitVec 5) (m : BitVec 3)
  /-- VMFLT_VV (R254). -/
  | vmfltVv (md : BitVec 3) (vs1 vs2 : BitVec 4) (m : BitVec 3)
  /-- VMFLT_VX (R254). -/
  | vmfltVx (md : BitVec 3) (vs1 : BitVec 4) (rs2 : BitVec 5) (m : BitVec 3)
  /-- VMFLE_VV (R254). -/
  | vmfleVv (md : BitVec 3) (vs1 vs2 : BitVec 4) (m : BitVec 3)
  /-- VMFLE_VX (R254). -/
  | vmfleVx (md : BitVec 3) (vs1 : BitVec 4) (rs2 : BitVec 5) (m : BitVec 3)
  /-- VAND_VV (R252). -/
  | vandVv (vd vs1 vs2 : BitVec 4) (m : BitVec 3)
  /-- VAND_VX (R252). -/
  | vandVx (vd vs1 : BitVec 4) (rs2 : BitVec 5) (m : BitVec 3)
  /-- VOR_VV (R252). -/
  | vorVv (vd vs1 vs2 : BitVec 4) (m : BitVec 3)
  /-- VOR_VX (R252). -/
  | vorVx (vd vs1 : BitVec 4) (rs2 : BitVec 5) (m : BitVec 3)
  /-- VXOR_VV (R252). -/
  | vxorVv (vd vs1 vs2 : BitVec 4) (m : BitVec 3)
  /-- VXOR_VX (R252). -/
  | vxorVx (vd vs1 : BitVec 4) (rs2 : BitVec 5) (m : BitVec 3)
  /-- VSLL_VV (R252). -/
  | vsllVv (vd vs1 vs2 : BitVec 4) (m : BitVec 3)
  /-- VSLL_VX (R252). -/
  | vsllVx (vd vs1 : BitVec 4) (rs2 : BitVec 5) (m : BitVec 3)
  /-- VSRL_VV (R252). -/
  | vsrlVv (vd vs1 vs2 : BitVec 4) (m : BitVec 3)
  /-- VSRL_VX (R252). -/
  | vsrlVx (vd vs1 : BitVec 4) (rs2 : BitVec 5) (m : BitVec 3)
  /-- VSRA_VV (R252). -/
  | vsraVv (vd vs1 vs2 : BitVec 4) (m : BitVec 3)
  /-- VSRA_VX (R252). -/
  | vsraVx (vd vs1 : BitVec 4) (rs2 : BitVec 5) (m : BitVec 3)
  /-- VLE (R256). -/
  | vle (vd : BitVec 4) (rs1 : BitVec 5) (m : BitVec 3)
  /-- VLSE (R256). -/
  | vlse (vd : BitVec 4) (rs1 rs2 : BitVec 5) (m : BitVec 3)
  /-- VLXE (R256). -/
  | vlxe (vd : BitVec 4) (rs1 : BitVec 5) (vs2 : BitVec 4) (m : BitVec 3)
  /-- VSE (R256). -/
  | vse (vs : BitVec 4) (rs1 : BitVec 5) (m : BitVec 3)
  /-- VSSE (R256). -/
  | vsse (vs : BitVec 4) (rs1 rs2 : BitVec 5) (m : BitVec 3)
  /-- VSXE (R256). -/
  | vsxe (vs : BitVec 4) (rs1 : BitVec 5) (vs2 : BitVec 4) (m : BitVec 3)
  /-- VCVT (R259). -/
  | vcvt (vd vs1 : BitVec 4) (code : BitVec 5) (m : BitVec 3)
  /-- VQNT (R261). -/
  | vqnt (vd vs1 : BitVec 4) (code : BitVec 5)
  /-- VDEQ (R261). -/
  | vdeq (vd vs1 : BitVec 4) (code : BitVec 5)
  /-- VFCVTI (R260). -/
  | vfcvti (vd vs1 : BitVec 4) (m : BitVec 3)
  /-- VICVTF (R260). -/
  | vicvtf (vd vs1 : BitVec 4) (m : BitVec 3)
  /-- VEXP2 (R263). -/
  | vexp2 (vd vs1 : BitVec 4) (m : BitVec 3)
  /-- VLOG2 (R263). -/
  | vlog2 (vd vs1 : BitVec 4) (m : BitVec 3)
  /-- VRCP (R263). -/
  | vrcp (vd vs1 : BitVec 4) (m : BitVec 3)
  /-- VRSQRT (R263). -/
  | vrsqrt (vd vs1 : BitVec 4) (m : BitVec 3)
  /-- VTANH (R263). -/
  | vtanh (vd vs1 : BitVec 4) (m : BitVec 3)
  /-- VREDSUM (R264). -/
  | vredsum (rd : BitVec 5) (vs1 : BitVec 4) (m : BitVec 3)
  /-- VFREDSUM (R265). -/
  | vfredsum (rd : BitVec 5) (vs1 : BitVec 4) (m : BitVec 3)
  /-- VREDMAX (R264). -/
  | vredmax (rd : BitVec 5) (vs1 : BitVec 4) (m : BitVec 3)
  /-- VFREDMAX (R265). -/
  | vfredmax (rd : BitVec 5) (vs1 : BitVec 4) (m : BitVec 3)
  /-- VFREDAMAX (R265). -/
  | vfredamax (rd : BitVec 5) (vs1 : BitVec 4) (m : BitVec 3)
  /-- VSLIDEUP (R266). -/
  | vslideup (vd vs1 : BitVec 4) (rs2 : BitVec 5) (m : BitVec 3)
  /-- VSLIDEDOWN (R266). -/
  | vslidedown (vd vs1 : BitVec 4) (rs2 : BitVec 5) (m : BitVec 3)
  /-- VGATHER (R266). -/
  | vgather (vd vs1 vs2 : BitVec 4) (m : BitVec 3)
  /-- VBCAST (R266). -/
  | vbcast (vd : BitVec 4) (rs1 : BitVec 5) (m : BitVec 3)
  /-- VEXT (R266). -/
  | vext (rd : BitVec 5) (vs1 : BitVec 4) (rs2 : BitVec 5)
  /-- VCOMPRESS (R266). -/
  | vcompress (vd vs1 : BitVec 4) (ms2 : BitVec 3)
  /-- VMAND (R267). -/
  | vmand (md ms1 ms2 : BitVec 3)
  /-- VMOR (R267). -/
  | vmor (md ms1 ms2 : BitVec 3)
  /-- VMNOT (R267). -/
  | vmnot (md ms1 : BitVec 3)
  /-- VMPOP (R267). -/
  | vmpop (rd : BitVec 5) (ms1 : BitVec 3)
  /-- VMFIRST (R267). -/
  | vmfirst (rd : BitVec 5) (ms1 : BitVec 3)
  /-- VMERGE (R267). -/
  | vmerge (vd vs1 vs2 : BitVec 4) (m : BitVec 3)
  /-- VCFG (R244). -/
  | vcfg (rd rs1 : BitVec 5)
  deriving DecidableEq, Repr

end Sys2Proof
end

