-- ==== Sys2Proof/Machine/State.lean ====
section
/-! DEFINITION. The state of one panel of the UXW-16K, as plain data, and the state right after reset (R417). -/

namespace Sys2Proof.Machine

/-- Data by number: pairs in rising order of their numbers, no number twice. -/
abbrev KMap (α : Type) := List (Nat × α)

/-- A memory: its bytes that differ from zero, by rising address (log 6). -/
abbrev Memory := List Host.Cell

/-- The privilege modes (R75). -/
inductive Mode where
  | u | s | m
  deriving DecidableEq, Repr

/-- The full/empty states of a register (R47). -/
inductive FE where
  | full | empty | poisoned
  deriving DecidableEq, Repr

/-- The states of a slot (R72). -/
inductive SlotSt where
  | stopped | ready | blocked | parked | walk | page | faulted
  deriving DecidableEq, Repr

/-- The ordering paths (R151). -/
inductive Path where
  | loc | glb | dep | eng | mx
  deriving DecidableEq, Repr

/-- What will write a register whose producer is outstanding (R47): a global request, a receive on an endpoint, the SFU, or the
tensor unit. -/
inductive Producer where
  | request (id : Nat)
  | receive (ch : Nat)
  | sfu
  | tensor
  deriving DecidableEq, Repr

/-- The full/empty state of a register and its outstanding producer, if any (R47). -/
structure RegSt where
  fe : FE
  prod : Option Producer
  deriving DecidableEq, Repr

/-- An offer posted at a receiving end (R227). -/
structure Offer where
  vec : Bool
  value : VWord
  pid : Nat
  deriving DecidableEq, Repr

/-- How far a blocked send has come (R109): waiting for its release, offered, or withdrawing. -/
inductive SendPhase where
  | release (o : Offer)
  | offered
  | withdrawing
  deriving DecidableEq, Repr

/-- What a blocked or parked instruction waits for; the constructor settles the outcome at the `wtmo` limit (R51). -/
inductive WaitKind where
  /-- A read of an EMPTY source, the first in the order of R48, and the other ones that are EMPTY; with the destination, if any, for
  which the instruction waits once its sources are full (R49). -/
  | source (r : RegRef) (more : List RegRef) (dst : Option RegRef)
  /-- A write, or `fe.empty`, waiting for a producer (R49); for a receive with its endpoint, behind whose earlier receive it then waits. -/
  | dest (r : RegRef) (ch : Option Nat)
  /-- A receive of an endpoint that waits behind a receive which writes `r` (R110): the outstanding one of its own endpoint, or the oldest
  of the slot's eight. -/
  | behind (ch : Nat) (r : RegRef)
  | feWait (r : RegRef)
  | park
  | wrsNto
  | wrsSto
  | cntWait (rd : BitVec 5) (c : Nat)
  | send (ch : Nat) (phase : SendPhase)
  | altWait (rd : BitVec 5) (tmo : Bool)
  | wbarA (b : Nat)
  | wbarW (rd : BitVec 5) (b : Nat)
  | macq (n : Nat)
  /-- An `mma` waiting for a drain tile (`tile`) or behind the slot's queued `mma` (R275). -/
  | mma (tile : Bool)
  | drainQ
  | ceGo (rd : BitVec 5)
  | ceWait (rd : BitVec 5) (lid : Option Nat)
  | plGo (rd : BitVec 5)
  | plWait (rd : BitVec 5) (oid : Option Nat)
  /-- An access to `wgdata` on its way (R409): the destination, the operation (0 read, 1 write, 2 set, 3 clear) and its operand. -/
  | wgdata (rd : BitVec 5) (op : Nat) (src : Word)
  /-- The wait of a slot restored BLOCKED, until its instruction is retested and names it (R353). -/
  | resumed
  /-- A wait that no limit ends (R51, R224): a fence, a release, `stop`, a full outbound queue, a busy drain buffer, a
  range of the scoreboard, `sow`, `ssave`, `sfence.vma`. -/
  | unlimited
  deriving DecidableEq, Repr

/-- The wait of a blocked or parked instruction: what for, since which cycle, and a number that names this wait. -/
structure Wait where
  kind : WaitKind
  since : Nat
  serial : Nat
  deriving DecidableEq, Repr

/-- An access of a slot that the slot does not yet know to be performed (R153), with its path and the smallest scope that holds
its target (R59). `write` says whether `sfence.vma` waits for it (R45). -/
structure Access where
  id : Nat
  path : Path
  scope : Scope
  write : Bool
  deriving DecidableEq, Repr

/-- A pending `pfence` (R59): the accesses it still waits for, its successor paths and its scope. -/
structure Fence where
  awaited : List Nat
  succ : BitVec 5
  scope : Scope
  deriving DecidableEq, Repr

/-- An outstanding receive (R110). -/
structure Recv where
  ch : Nat
  dst : RegRef
  scope : Scope
  serial : Nat
  /-- Whether its timer runs; a restored receive's starts at the release of its slot (R353). -/
  timed : Bool
  deriving DecidableEq, Repr

/-- The operations of AMOs and posted atomics (R41, R99). -/
inductive AtomicOp where
  | swap | add | xor | and | or | min | max | minu | maxu
  deriving DecidableEq, Repr

/-- What a local access of a slot does at its bank grants (R40 to R42, R256). `elems` are the active elements of a vector access,
each with its address. -/
inductive LocalOp where
  | load (size : Nat) (signed : Bool) (rd : BitVec 5)
  | store (size : Nat) (value : Word)
  | lr (size : Nat) (rd : BitVec 5)
  | sc (size : Nat) (value : Word) (rd : BitVec 5)
  | amo (size : Nat) (op : AtomicOp) (value : Word) (rd : BitVec 5)
  | vload (vd : BitVec 4) (bytes : Nat) (elems : List (Nat × Nat))
  | vstore (bytes : Nat) (elems : List (Nat × Nat)) (value : VWord)
  /-- `ssave` writes the bytes of a context; `sload` reads them and restores a slot (R297). -/
  | save (rd : BitVec 5) (context : BitVec 32768)
  | restore (rd : BitVec 5) (target : Nat)
  deriving DecidableEq, Repr

/-- A local access that has issued and is not complete (R71): the rows not yet granted, and for a vector load or an `sload` what its
grants have read so far. -/
structure LocalAcc where
  op : LocalOp
  addr : Nat
  rows : List Nat
  data : BitVec 32768
  poison : Bool
  deriving DecidableEq, Repr

/-- The reservation of a load-reserved: its 64-byte block, its address and its size (R42). -/
structure Resv where
  block : Nat
  addr : Nat
  size : Nat
  deriving DecidableEq, Repr

/-- A trap record (R339), but for DEPTH, which is formed when it is read. -/
structure TrapRec where
  slot : Nat
  mode : Mode
  tgt : Bool
  cause : Nat
  word : BitVec 32
  pc : Word
  tval : Word
  extra : Word
  deriving DecidableEq, Repr

/-- A fault record (R348), but for the die clock, which is taken when it is posted. -/
structure FaultRec where
  source : Nat
  cause : Nat
  pid : Nat
  sid : Nat
  asid : Nat
  kind : Nat
  va : Word
  deriving DecidableEq, Repr

/-- A tensor operation (R275): its slot and accumulator, operands, format, next slice, the poison of the slices already
applied (R278), the CSR snapshots, and its access. -/
structure TensorOp where
  slot : Nat
  acc : Nat
  a : Word
  b : Word
  fmt : BitVec 4
  z : Bool
  next : Nat
  poison : Bool
  wfmt : Word
  wscl : Word
  wmstr : Word
  access : Nat
  deriving DecidableEq, Repr

/-- A member entry of a probe (R232): a process and the kind of its wait, coded as in R239. -/
structure Member where
  pid : Nat
  kind : Nat
  deriving DecidableEq, Repr

/-- An entry of a slot's mark table (R232). `parent` is the parent root and its number, none at the initiator. -/
structure Mark where
  init : Nat
  seq : Nat
  parent : Option (Nat × Nat)
  pending : Int
  gathered : List Member
  count : Nat
  deriving DecidableEq, Repr

/-- The standard CSRs a slot holds (R46). -/
structure Csrs where
  satp : Word
  mstatus : Word
  medeleg : Word
  mtvec : Word
  mscratch : Word
  mepc : Word
  mcause : Word
  mtval : Word
  stvec : Word
  sscratch : Word
  sepc : Word
  scause : Word
  stval : Word
  deriving DecidableEq, Repr

/-- The custom CSRs a slot holds (R26). -/
structure UCsrs where
  wtmo : Word
  wfetrap : Word
  wvtype : Word
  wvflags : Word
  wfmt : Word
  wscl : Word
  wamax : Word
  wmstr : Word
  wchst : Word
  wlocwin : Word
  wwinsel : Word
  wgsel : Word
  deriving DecidableEq, Repr

/-- A thread slot (R75). -/
structure Slot where
  st : SlotSt
  hold : Bool
  pc : Word
  mode : Mode
  x : Vector Word 32
  v : Vector VWord 16
  m : Vector MWord 8
  xs : Vector RegSt 32
  vs : Vector RegSt 16
  u : UCsrs
  c : Csrs
  /-- The process the slot holds, by its id in the sheaf (R54); none on the service slot and on a slot without a process. -/
  pid : Option Nat
  token : Bool
  resv : Option Resv
  /-- The `alt` entries, each the endpoint it arms, if any (R115). -/
  alt : Vector (Option Nat) 8
  fence : Option Fence
  /-- The 16-byte block the fetch buffer holds, by its address, with its bytes (R44). -/
  fetch : Option (Nat × BitVec 128)
  wait : Option Wait
  /-- The slot's local access in the banks, if one is not complete (R71). -/
  mem : Option LocalAcc
  /-- Accesses issued and not yet known to be performed. -/
  accs : List Access
  /-- Accesses whose `aq` holds every later access of the slot (R41). -/
  aqs : List Nat
  /-- Outstanding receives, oldest first (R110). -/
  recvs : List Recv
  /-- The block sequence number (R231). -/
  bseq : BitVec 16
  marks : List Mark
  lastProbe : Option Nat
  /-- Tensor records that `sstop` or `sload` left with the slot, the partial one first (R278). -/
  stopped : List TensorOp
  pendTrap : Option TrapRec
  pendFault : Option FaultRec
  /-- Whether its pending records came with a restored context and wait for the release of the slot (R353). -/
  recsHeld : Bool
  /-- Whether a wake has ended its PAGE, or an `sresume` its FAULTED, which stands until it is not held and its pending record is posted
  (R341, R348; log 90). -/
  leaving : Bool
  /-- A wire-barrier arrival not yet signalled (R118): context, phase, and the accesses it waits for. -/
  wbar : List (Nat × Nat × List Nat)
  /-- What a blocked instruction keeps from its issue: the request or command it waits on, or a drain's snapshot time. -/
  issued : Option Nat
  /-- The first cycle in which a slot that a wake released may issue (R56). -/
  issueFrom : Nat
  deriving DecidableEq, Repr

/-- An accumulator (R274, R276, R279). -/
structure Acc where
  words : AccWord
  reg : RegSt
  owner : Option Nat
  afl : BitVec 5
  /-- AFL as a stopped `mma` has left it so far: that of the accumulator stays as it is until the `mma` completes unpoisoned (R278,
  R344). -/
  part : BitVec 5
  deriving DecidableEq, Repr

/-- A counter (R104). -/
structure Counter where
  value : BitVec 32
  target : BitVec 32
  mode : BitVec 2
  strict : Bool
  ovr : Bool
  loss : Bool
  cancel : Bool
  deriving DecidableEq, Repr

/-- A bound channel endpoint (R108, R227). -/
structure Endpoint where
  sending : Bool
  owner : Nat
  peerCore : Nat
  peerSlot : Nat
  peerEp : Nat
  peerPid : Nat
  scope : Scope
  broken : Bool
  /-- At a receiving end, the offer posted there. -/
  offer : Option Offer
  /-- At a receiving end, whether a receive is outstanding, and whether it is 1,024 bits wide. -/
  recvOut : Option Bool
  /-- At a sending end, the process whose receive is recorded there. -/
  recvRec : Option Nat
  sendPending : Bool
  /-- At a sending end, whether its offer is being withdrawn (R109). -/
  withdrawing : Bool
  /-- At a sending end whose offer is withdrawn as a deadlock victim's, the member count that its trap reports (R235). -/
  victim : Option Nat
  /-- At a sending end, how a send whose slot is held or saved has ended: the status of its ACK, or TIMEOUT for a WITHDRAWN (R109). -/
  ackKept : Option Nat
  /-- At a receiving end, the value taken for a receive whose slot had been saved, none for an offer of the other width (R110). -/
  kept : Option (Option VWord)
  deriving DecidableEq, Repr

/-- Where a deposit comes from; the chaff record's KIND (R102). -/
inductive DepKind where
  | store
  | atomic (op : AtomicOp)
  | wake
  | gleaner (lid entry : Nat)
  | drain (id : Nat)
  deriving DecidableEq, Repr

/-- A deposit, posted atomic or `wake.r` (R96): its target core, the address as issued, what it carries, and what its issuer
must be told. -/
structure Dep where
  kind : DepKind
  core : Nat
  slot : Nat
  /-- Carries the sheaf of its core (R98). -/
  counted : Bool
  addr : Word
  target : Nat
  targetSlot : Nat
  /-- Byte offset at a core, or the physical address of a global posted atomic. -/
  off : Nat
  size : Nat
  data : VWord
  cnt : Option Nat
  asid : Nat
  /-- A posted atomic to a global address (R100). -/
  global : Bool
  acc : Nat
  /-- Its release scope and the accesses the release waits for (R96). -/
  rel : Option Scope
  awaited : List Nat
  /-- The first cycle at which it may leave. -/
  ready : Nat
  /-- The deadline of one to a global address, in the reference time (R405). -/
  deadline : Int
  /-- The 64-byte rows that an earlier grant of its landing wrote (R161). -/
  written : List Nat
  deriving DecidableEq, Repr

/-- An operation the panel's memory performs for a requester (R148, R153). -/
inductive ReqOp where
  | load (size : Nat) (signed : Bool)
  | store (size : Nat) (value : Word)
  | amo (size : Nat) (op : AtomicOp) (value : Word)
  | mmioLoad
  | mmioStore (value : Word)
  /-- A read of a part of an entry of the core's Gleaner, from an address as the entry gives it, and a write of an entry (R331). -/
  | gleanRead (lid entry part va size : Nat)
  | gleanWrite (lid entry : Nat) (bytes : List Byte)
  deriving DecidableEq, Repr

/-- An outstanding global request (R405). -/
structure Req where
  core : Nat
  slot : Nat
  acc : Nat
  op : ReqOp
  addr : Nat
  dst : Option RegRef
  /-- For a posted atomic, whether it counts in its sheaf's landed total (R98, R100). -/
  posted : Option Bool
  issued : Nat
  /-- Its deadline in the reference time, and that time when it reached its home (R405, R410). -/
  deadline : Int
  reached : Option Int
  /-- The cycle of its home access, once performed, with what it returned; `poison` for a poisoned completion. -/
  performed : Bool
  poison : Bool
  value : Word
  /-- What a read of the Gleaner returned. -/
  bytes : List Byte
  /-- Whether it stands at its home behind an earlier access of its slot (R40, R142). -/
  arrived : Bool
  deriving DecidableEq, Repr

/-- A message between endpoints (R227). `pid` is the sender's process. -/
inductive ChMsg where
  | offer (o : Offer)
  | ack (mismatch : Bool)
  | recv (pid : Nat)
  | withdraw
  | withdrawn
  | broken
  deriving DecidableEq, Repr

/-- A probe (R232): initiator, root, hops, member count and the first 32 members; `from_` is the process that sent it on. -/
structure Probe where
  init : Nat
  initSeq : Nat
  root : Nat
  rootSeq : Nat
  orRooted : Bool
  hops : Nat
  count : Nat
  list : List Member
  from_ : Nat
  fromAlt : Bool
  deriving DecidableEq, Repr

/-- The contents of an UP message (R371): 32 integers and the NaN, +∞ and −∞ masks; and whether a sum of a combine unit left its
range (R388). -/
structure UpMsg where
  ints : List Int
  nan : BitVec 32
  pinf : BitVec 32
  minf : BitVec 32
  ovf : Bool
  deriving DecidableEq, Repr

/-- The parts of a crew of a sowing image that loading uses (R192). -/
structure Crew where
  dieLo : Nat
  dieHi : Nat
  rowLo : Nat
  rowHi : Nat
  colLo : Nat
  colHi : Nat
  text : List Byte
  data : List Byte
  /-- Started slots: slot, entry, `wfmt`, `wscl`. -/
  slots : List (Nat × Word × Word × Word)
  windows : List Word
  counters : List (BitVec 32 × BitVec 32 × BitVec 2)
  deriving DecidableEq, Repr

/-- An endpoint as a `.chan` names it: die, row, col, slot, endpoint. -/
structure ChanEnd where
  die : Nat
  row : Nat
  col : Nat
  slot : Nat
  ep : Nat
  deriving DecidableEq, Repr

/-- A `.group` (R192). -/
structure GroupReq where
  handle : Nat
  op : AtomicOp
  dieLo : Nat
  dieHi : Nat
  rowLo : Nat
  rowHi : Nat
  colLo : Nat
  colHi : Nat
  deriving DecidableEq, Repr

/-- The sections of a sowing image whose layout the spec does not give in bits (R192), with the bytes that each of the crew, channel, group and
symbol sections takes. -/
structure ImageBody where
  crews : List Crew
  chans : List (ChanEnd × ChanEnd)
  groups : List GroupReq
  sizes : List Nat
  deriving DecidableEq, Repr

/-- A sowing image, read (R192, R193). -/
structure Image where
  prio : Nat
  asid : Nat
  dies : Nat
  rows : Nat
  cols : Nat
  nameHash : Word
  length : Nat
  signed : Bool
  crews : List Crew
  chans : List (ChanEnd × ChanEnd)
  groups : List GroupReq
  wireMask : BitVec 8
  deriving DecidableEq, Repr

/-- One die of a placement: panel, die, row 0, column 0 (R94). -/
structure Place where
  panel : Nat
  die : Nat
  row0 : Nat
  col0 : Nat
  deriving DecidableEq, Repr

/-- A request of the SFU queue (R85): the slot, the destination, and the result and flags that will be written. -/
structure SfuReq where
  slot : Nat
  vd : BitVec 4
  value : VWord
  flags : BitVec 6
  discarded : Bool
  deriving DecidableEq, Repr

/-- An entry of a TLB (R86): level 0 is 4 KiB, 1 is 2 MiB, 2 is 1 GiB; `perm` is the leaf's low ten bits. -/
structure TlbEntry where
  vpn : Nat
  level : Nat
  asid : Nat
  global : Bool
  ppn : Nat
  perm : BitVec 10
  deriving DecidableEq, Repr

/-- What an invalidation names: an address space, a page, both or neither (R45, R351). -/
structure Inval where
  asid : Option Nat
  page : Option Nat
  deriving DecidableEq, Repr

/-- Reads of a translation that have met a module that is not UP (R391): the cycle by which they have to be back (R405), and whether one of them has
been discarded. -/
structure Cut where
  due : Nat
  lost : Bool
  deriving DecidableEq, Repr

/-- An open refill request (R87): the page, the address space, the table root, the slots that wait, each with its address and the
KIND of its access as a fault record codes it, and the invalidations since it began. -/
structure Walk where
  id : Nat
  vpn : Nat
  asid : Nat
  root : Nat
  slots : List (Nat × Word × Nat)
  met : List Inval
  cut : Option Cut
  deriving DecidableEq, Repr

/-- The `mma` the tensor unit runs (R277, R327): its start, the early and late rows not yet granted and the last grant of each,
the rows read (with a bit for each poisoned 8-byte word), the sum so far with its flags, and the cycle at whose end `sstop` or `skill`
reached it, which ends it with the slice of that cycle. -/
structure TensorRun where
  op : TensorOp
  start : Nat
  early : Nat
  late : Nat
  earlyLast : Nat
  lateLast : Nat
  data : KMap (BitVec 512 × BitVec 8)
  words : AccWord
  afl : BitVec 5
  cut : Option Nat
  abandon : Option Nat
  deriving DecidableEq, Repr

/-- A drain (R281): its accumulator, the writes left before its buffer is free, the rows it has yet to enqueue (R282), and the amax
update that leaves after it (R284). -/
structure Drain where
  id : Nat
  slot : Nat
  acc : Nat
  left : Nat
  rows : List Dep
  amax : Option Dep
  deriving DecidableEq, Repr

/-- An `mload` in flight (R279): the grants left, and what the others have read. -/
structure MLoad where
  slot : Nat
  access : Nat
  left : Nat
  words : AccWord
  poison : Bool
  deriving DecidableEq, Repr

/-- The classes of bank requests, in the order of R83's table. -/
inductive BankClass where
  | inbound | tensor | slot | gleaner | thresher
  deriving DecidableEq, Repr

/-- A part of an entry's work: a read or a write within one 64-byte row, or a row to deposit (R330). -/
inductive GleanOp where
  | read (addr size : Nat)
  | write (addr : Nat) (bytes : List Byte)
  | deposit (row : Nat) (bytes : List Byte)
  deriving DecidableEq, Repr

/-- What the grant of a bank request does. -/
inductive BankAct where
  /-- A row of the local access of a slot. -/
  | slotRow (slot row : Nat)
  /-- A 64-byte row of a landing deposit or posted atomic (R161). -/
  | landing (msg row : Nat)
  /-- An operand row of the `mma` that started at a cycle. -/
  | mmaRow (start row : Nat) (late : Bool)
  /-- Bytes of an `mload`: from an address, to a byte of the accumulator, so many. -/
  | mloadRow (acc addr place size : Nat)
  /-- Byte strings of one row that a drain writes. -/
  | drainRow (drain : Nat) (segs : List (Nat × List Byte))
  | gleanerRead (lid : Nat)
  /-- A read of a part of an entry, or a write of an entry. -/
  | gleanerRow (lid entry part : Nat) (op : GleanOp)
  /-- A descriptor of the Thresher (R290), and a 64-byte row of a source block (R429). -/
  | descriptor (oid addr : Nat)
  | source (op rank addr size : Nat)
  /-- A row of a landing HEADER or PLANE (R382). -/
  | planeRow (msg row : Nat)
  deriving DecidableEq, Repr

/-- A request waiting on a bank (R83). -/
structure BankReq where
  cls : BankClass
  bank : Nat
  first : Nat
  act : BankAct
  deriving DecidableEq, Repr

/-- Bytes read, none for one whose read met an uncorrectable error (R286). -/
abbrev Bytes := List (Option Byte)

/-- A part of an entry that has been taken up (R330): its index, the reads that have yet to return, and what the others have returned, by
address. -/
structure Part where
  index : Nat
  left : Nat
  got : List (Nat × Bytes)
  deriving DecidableEq, Repr

/-- A translation that an entry waits for (R331): the page, and the cycle in which it is looked for. -/
structure Want where
  page : Nat
  due : Nat
  cut : Option Cut
  deriving DecidableEq, Repr

/-- An entry of a list (R285, R330): its index in the list, its descriptor's fields, its access, the translations it holds, the pages it
waits for with the cycles at which their translations come (R331), its installed ranges, whether a read of it met an uncorrectable error;
and its progress: the indices or metadata it has read, the first part it has not taken up and the parts that await reads, what has been read for
a part not taken up yet, the reads and the writes it has yet to make, each with its part, whether a local read or write waits for its bank, the requests and the deposits on their
way, whether it has only to await these, and whether it has failed. -/
structure Entry where
  index : Nat
  op : Nat
  cnt : Option Nat
  wait : Bool
  mod : Bool
  len : Nat
  src : Nat
  dst : Nat
  aux : Nat
  aux2 : Nat
  access : Nat
  pages : List TlbEntry
  wants : List Want
  ranges : List (Nat × Nat)
  bad : Bool
  pre : Bytes
  pos : Nat
  parts : List Part
  carry : List (Nat × Bytes)
  toRead : List (Nat × GleanOp)
  toWrite : List (Nat × GleanOp)
  reading : Bool
  writing : Bool
  sent : Nat
  left : Nat
  finished : Bool
  dead : Bool
  deriving DecidableEq, Repr

/-- An active list (R287, R330): who started it and how, the next descriptor and its index, whether it is being read, the entry read
but not started, the entries in flight, and how it will end once they complete: at its END, by an abort, or with a status at an
index. `access` stands for the entries whose descriptors are unread (R333). -/
structure GList where
  lid : Nat
  slot : Nat
  mode : Mode
  wasid : Word
  wlocwin : Word
  access : Nat
  next : Nat
  index : Nat
  reading : Bool
  pending : Option Entry
  inFlight : List Entry
  done : Nat
  ended : Bool
  aborted : Bool
  failed : Option (Nat × Nat)
  deriving DecidableEq, Repr

/-- The Gleaner of a core (R287, R288, R330): the active lists in the order of their `ce.go`, the words of the latest 16 ended lists,
the word of the latest ended list of each slot, the access of the list it took an entry from last, the cycle in which it last sent a request on REQ or
DEP, and whether a suspend holds the lists of its sheaf (R214). -/
structure Gleaner where
  lists : List GList
  nextLid : Nat
  kept : List (Nat × Word)
  lastBy : KMap Word
  turn : Nat
  sentAt : Option Nat
  frozen : Bool
  deriving DecidableEq, Repr

/-- An operation of a core's Thresher (R291, R292): its id and tile, the slot that started it and how, its access, the plane operation
and member it joined as, its place in the drain queue, and whether an element saturated. -/
structure ThOp where
  oid : Nat
  tile : Nat
  slot : Nat
  mode : Mode
  wlocwin : Word
  access : Nat
  joined : Option (Nat × Nat)
  drain : Bool
  drainTile : Option Nat
  eovf : Bool
  deriving DecidableEq, Repr

/-- The Thresher of a core (R291, R292, R329): its operations, the words of the latest 16 ended ones and of the latest ended one of
each slot, and the drain queue's four tiles, each 256 FP32 words with the exponent they are scaled by. -/
structure Thresher where
  ops : List ThOp
  nextOid : Nat
  kept : List (Nat × Word)
  lastBy : KMap Word
  tiles : KMap (AccWord × Int)
  deriving DecidableEq, Repr

/-- A core (R76). -/
structure Core where
  slots : Vector Slot 16
  spad : Memory
  /-- The 8-byte words of the scratchpad that are poisoned (R345). -/
  spadPoison : List Nat
  acc : Vector Acc 8
  cnt : Vector Counter 64
  eps : KMap Endpoint
  grp : Vector Word 16
  win : Vector Word 8
  dmap : KMap (BitVec 32)
  dmapSel : BitVec 8
  wsheaf : Word
  wasid : Word
  trapq : List TrapRec
  trapqSel : BitVec 2
  refuse : BitVec 32
  halted : Bool
  sfuq : List SfuReq
  sfuBusy : Bool
  tlb : List TlbEntry
  walks : List Walk
  tq : List TensorOp
  trun : Option TensorRun
  mloads : KMap MLoad
  drains : List Drain
  gl : Gleaner
  th : Thresher
  outq : List (Nat × Dep)
  bank : List BankReq
  /-- The last cycle at which each class was granted on each bank, by 8 × bank + class. -/
  lastGrant : KMap Nat
  /-- The ticket of the sheaf whose core this is. -/
  ticket : Option Nat
  /-- The accesses of stopped `mma`s whose contexts an `sload` has replaced: slot, accumulator, access (R278, R353). -/
  aside : List (Nat × Nat × Nat)
  /-- The fault records of processes that have ended while their record was pending, with their slots (R348). -/
  faults : List (Nat × FaultRec)
  /-- The launches of contexts that an `sload` has replaced while their `sow` waits for its answer: slot, launch (R353). -/
  sows : List (Nat × Nat)
  pidBase : Nat
  issuedTotal : Nat
  landedTotal : Nat
  sentTotal : Nat
  receivedTotal : Nat
  /-- The wire contexts bound at this core, by context number: the physical context (R117). -/
  wire : KMap Nat
  /-- The phase of this core's latest arrival in each context (R119). -/
  wireArr : KMap Nat
  deriving DecidableEq, Repr

/-- A flit in a replay buffer: its message, whether it is its last, the times it was replayed, the cycle in which it entered the buffer, and,
once the partner has received it in sequence, the cycle in which its acknowledgement is heard (R400, R401). `flits` is 1, or 0 for a message
whose bytes lie whole in the flit before it (R371). -/
structure Buffered where
  msg : Nat
  flits : Nat
  last : Bool
  tries : Nat
  since : Nat
  received : Option Nat
  deriving DecidableEq, Repr

/-- One end of a UCIe module: its registers (R390) and its traffic (R400). -/
structure LinkEnd where
  cmd : BitVec 2
  half : Bool
  width : Bool
  hold : Bool
  lerr : Word
  lremap : Word
  lretry : Nat
  ltxf : Nat
  lackf : Nat
  lrxf : Nat
  llost : Nat
  /-- The partner's LTXF, LACKF, LRXF and LLOST as last refreshed (R390). -/
  ptxf : Nat
  packf : Nat
  prxf : Nat
  perr : Word
  plost : Nat
  /-- The lanes that showed an error in the latest cycle with one, and that cycle: a clear of that cycle leaves them set (R392). -/
  errLanes : Word
  errCycle : Nat
  /-- What the replay buffer holds, oldest first. -/
  replay : List Buffered
  waiting : List Nat
  /-- The message of which only some flits have been taken, and how many (R400). -/
  partly : Option (Nat × Nat)
  result : Nat
  deriving DecidableEq, Repr

/-- The states of a module (R391). -/
inductive LinkSt where
  | down | up | drain | held | train
  deriving DecidableEq, Repr

/-- A UCIe module: its Culm end (0) and its Granary end (1). -/
structure Module where
  st : LinkSt
  width : Bool
  half : Bool
  /-- LREMAP as the latest training that succeeded took it: the lanes that spares carry (R390). -/
  map : Word
  /-- The width and half a running training tries, whether the replay limit began it, and whether it began in DRAIN. -/
  tryWidth : Bool
  tryHalf : Bool
  byLimit : Bool
  fromDrain : Bool
  ends : Vector LinkEnd 2
  deriving DecidableEq, Repr

/-- A physical wire-barrier context of a die (R117): the sheaf and its context bound to it, the phase, the participants and the
arrivals in the phase, and the last completed phase. -/
structure WireCtx where
  ticket : Nat
  context : Nat
  phase : Nat
  members : List Nat
  arrived : List Nat
  completed : Option Nat
  deriving DecidableEq, Repr

/-- A ring of records in a die: head and tail indexes and the records by index. -/
structure Ring where
  head : Nat
  tail : Nat
  ovf : BitVec 32
  recs : KMap (BitVec 2048)
  deriving DecidableEq, Repr

/-- A Culm die (R143, R238, R347, R410). -/
structure Die where
  chaff : Ring
  dlk : Ring
  flt : Ring
  fltNotify : Word
  probeCfg : Nat
  inv : Option (Nat × Nat × Nat)
  stale : BitVec 32
  clkRate : Word
  clkRateHeld : Option Word
  clkOff : Word
  clkGen : BitVec 32
  /-- The cycle of the die's reset, from which its clock and its rotation count (R55, R69). -/
  origin : Nat
  tlb2 : List TlbEntry
  wires : KMap WireCtx
  offered : Bool
  deriving DecidableEq, Repr

/-- A Thresher descriptor (R290). `bad` says that it holds a reserved value, `badShared` that one of the fields that every rank must
share does (R291); `raw` are its 64 bytes. -/
structure PlaneDesc where
  op : Nat
  gh : Nat
  sfmt : Nat
  pout : Nat
  emode : Nat
  cnt : Nat
  exp : Nat
  tile : Nat
  dfmt : Nat
  src : Nat
  dst : Nat
  elems : Nat
  chunk : Nat
  peer : Nat
  bad : Bool
  badShared : Bool
  raw : BitVec 512
  deriving DecidableEq, Repr

/-- A block of a receiver's destination: its exponent, signs, verbatim codes if it is verbatim, the magnitudes so far, and the planes
landed (R375, R382). -/
structure Landed where
  exp : Nat
  signs : BitVec 32
  codes : List Nat
  verb : Bool
  mags : List Nat
  planes : Nat
  deriving DecidableEq, Repr

/-- One rank of a plane operation (R291, R369): its core, its operation there, its descriptor, whether it was rejected, the status it
ends or has ended with; its roles; the codes of its source read so far, the power of two they are scaled by, the rows read of the
next block by address and the block exponents; and as a receiver whether it is frozen, the blocks landed, the least number of planes reached, and
the counter raises to come by cycle. -/
structure Rank where
  core : Nat
  oid : Nat
  desc : PlaneDesc
  rejected : Bool
  ending : Option Nat
  ended : Bool
  send : Bool
  recv : Bool
  scale : Int
  codes : List Nat
  raw : KMap (List Byte)
  exps : List Nat
  /-- The blocks for which it holds E* (R376), and the bytes of the HEADERs of its stream so far (R371). -/
  estars : Nat
  sent : Nat
  stopped : Bool
  frozen : Bool
  blocks : KMap Landed
  least : Nat
  raises : List (Nat × Nat)
  deriving DecidableEq, Repr

/-- A plane operation that had not started when its sheaf was suspended (R214 step 2): its number and panel as one, its group's place in the image, its
tile, and its ranks in the order in which they joined, with those that have cancelled. -/
structure SavedOp where
  op : Nat
  index : Nat
  tile : Nat
  joined : List Nat
  ranks : KMap Rank
  cancels : List Nat
  deriving DecidableEq, Repr

/-- What the Sowers of other panels get to know of a sheaf that commits (R205): what its cores there are loaded from, with its places on all
panels and its group identifiers with their generations. -/
structure Share where
  sid : Nat
  ticket : Word
  prio : Nat
  asid : Nat
  image : Image
  places : List Place
  groups : List (Nat × Nat)
  /-- Whether it is resumed, its save area, and what the area gives no layout for: its cores and its suspended operations (R217, R355). -/
  resumed : Bool
  area : Nat
  saved : KMap Core
  ops : List SavedOp
  deriving DecidableEq, Repr

/-- What the home of a sheaf and another panel that holds cores of it say to each other: its cores there are loaded (R208), or their processes have all
stopped (R218); hold them or kill them (R214, R220), which is done; their counts in the round that began in a cycle, and whether
they are ready for what follows it (R215); save them (R216), which is done; and leave them, suspended or for good (R214, R218), which is done. -/
inductive SowerMsg where
  | loaded
  | stopped
  | hold (kill : Bool)
  | held
  | count (round : Nat)
  | counts (round : Nat) (sums : List Int) (settled : Bool)
  | save (area : Nat)
  | saved (cores : KMap Core) (ops : List SavedOp)
  | leave (suspended : Bool)
  | left
  deriving DecidableEq, Repr

/-- What a message carries (R133, R227, R232, R371). -/
inductive Body where
  | dep (d : Dep)
  /-- A counter raise on its way to its cycle (R97): counter, amount, and whether it may fire a mailbox (R211). -/
  | raise (c : Nat) (amount : Nat) (fires : Bool)
  /-- A landing receipt: the slot and access it answers and whether it counts in the sheaf's landed total (R98, R154). -/
  | receipt (slot : Nat) (acc : Nat) (counted : Bool) (kind : DepKind)
  | chan (ep : Nat) (m : ChMsg)
  | probe (ep : Nat) (atReceiver : Bool) (p : Probe)
  | reply (slot : Nat) (init initSeq root rootSeq : Nat) (list : List Member) (count : Nat)
  | start (ticket : Nat)
  /-- The exponents of up to 64 blocks from one on, on their way up a tree, or the maxima on their way down: one flit (R371, R376). -/
  | eround (op : Nat) (down : Bool) (first : Nat) (exps : List Nat)
  | up (op block : Nat) (m : UpMsg)
  /-- A HEADER, and a PLANE, of a source's stream for one rank or for every one (R369, R371), with the flits that it begins: each flit is filled
  before the next one. -/
  | header (op stream rank block : Nat) (e : Nat) (flags : BitVec 8) (signs : BitVec 32) (flits : Nat) (codes : List Nat)
  | plane (op stream rank block j : Nat) (flits : Nat) (bits : BitVec 32)
  /-- A CANCEL on its way up a tree, or down to the member that is a source (R385). -/
  | cancel (op : Nat) (source : Option Nat)
  | marker (group : Nat)
  /-- A loss notice (R404) carrying what was lost. -/
  | loss (what : Body)
  /-- A global request on its way to its home, and its response (R148). -/
  | req (id : Nat)
  | rsp (id : Nat) (ack : Bool)
  /-- A write of the host window, on its way to the host (R411). -/
  | hostWrite (off size : Nat) (value : Word)
  /-- A reservation message between Sowers (R205, R206): 0 asks for a rectangle from a die on, 1 releases what a ticket has, or asks its home to
  have it yield, 2 answers with the rectangle, empty for none, 3 asks for a group identifier, 4 answers with the lowest that is free there, 5
  says that an older placement holds what was asked for; with the ticket and the attempt to place it, the ASID, a rectangle (of an identifier
  its generation, in the place of the die), the wire contexts wanted on its die, and group identifiers. -/
  | reserve (kind : Nat) (ticket : Word) (attempt asid die row col rows cols wires : Nat) (gids : List Nat)
  /-- The report that a sheaf commits (R205). -/
  | commit (h : Share)
  /-- What two Sowers say of a sheaf that has committed (R208 to R220). -/
  | sower (ticket : Word) (m : SowerMsg)
  /-- One panel asks the panel of a tree's root to sweep a generation of a group, or is told that it has been swept (R223). -/
  | sweep (group generation : Nat) (done : Bool)
  deriving DecidableEq, Repr

/-- The virtual networks (R133). -/
inductive VNet where
  | req | rsp | dep | chn | pln
  deriving DecidableEq, Repr

/-- A message in flight: network, source and destination (cores by number, relays from 100,000 up; under PLN the nodes of a hop), the
die-edge modules it has yet to cross with the cycles each leg takes, and the event its landing is. `generation` is that of a PLN message's
group (R222), after 16 times the group's identifier. -/
structure Msg where
  net : VNet
  src : Nat
  dst : Nat
  body : Body
  generation : Nat
  /-- The Stolon crossings it has made, which are its buffer class (R407). -/
  crossed : Nat
  /-- The cycle at which it is expected to land. -/
  due : Nat
  /-- The cycles its landing takes past its route (R148). -/
  eject : Nat
  /-- Module, sending end, and the cycles from there to the next crossing or the landing. -/
  route : List (Nat × Nat × Nat)
  deriving DecidableEq, Repr

/-- Where a launch came from (R200): a `sow` of a slot, the host queue, a mailbox. -/
inductive Source where
  | slot (core slot : Nat)
  | host (seq : Nat)
  | mailbox (i : Nat)
  deriving DecidableEq, Repr

/-- A launch on its way to the Sower: its source, its record and whether POVR and AOVR are denied it (R199, R295). -/
structure Launch where
  id : Nat
  source : Source
  record : List Word
  user : Bool
  deriving DecidableEq, Repr

/-- The states of a sheaf record. SAVING and FREEING are those of a suspend whose cores on other panels have yet to be saved or freed, LEAVING that of
a retirement whose cores there have yet to be freed. -/
inductive SheafSt where
  | waiting | queued | loading | started | suspending | saving | freeing | suspended | retiring | killing | leaving
  deriving DecidableEq, Repr

/-- A sheaf record of the Sower: of one of its own sheaves, or of another panel's that has cores here. -/
structure Sheaf where
  /-- The panel whose record this is, whether the sheaf holds or has held cores there (R198), and the other panels on which it does or did. -/
  here : Nat
  sat : Bool
  others : List Nat
  sid : Nat
  ticket : Word
  st : SheafSt
  source : Source
  prio : Nat
  asid : Nat
  imageAddr : Nat
  image : Image
  preds : List Word
  done : Word
  places : List Place
  /-- Physical wire contexts by die index and context. -/
  wires : KMap (List (Nat × Nat))
  /-- Group identifiers, with generations, in source order. -/
  groups : List (Nat × Nat)
  area : Nat
  status : Nat
  /-- The cycle at which the round of counts that is running completes, and the cycle in which it began (R215, R404). -/
  round : Nat
  roundStart : Nat
  /-- The sums of the round that is running: issued, landed, sent and received (R215). -/
  sums : List Int
  resumed : Bool
  /-- Dies that have yet to release their slots (R208). -/
  starting : Nat
  /-- The panels that have yet to do what the sheaf waits for, those on which all its processes have stopped, and whether the other panels that have
  sent their counts in the round are ready for what follows it. -/
  awaits : List Nat
  stopped : List Nat
  settled : Bool
  /-- Its cores as the suspend saved them, by their place in the shape, and its suspended operations: what the save area gives no layout for
  (R355). -/
  saved : KMap Core
  ops : List SavedOp
  deriving DecidableEq, Repr

/-- The entry of a router or relay for a group's identifier (R221): its parent port and child mask, as the nodes they lead to, and whether
it is itself a member; the combine operation and the generation are those of the group. -/
structure TreeNode where
  node : Nat
  parent : Option Nat
  children : List Nat
  member : Bool
  deriving DecidableEq, Repr

/-- The entries of all routers and relays of a spanning tree, its root first. -/
abbrev Tree := List TreeNode

/-- A generation of a group that may still have packets in flight (R223), with the tree used under it, and whether it is being swept. -/
structure Behind where
  generation : Nat
  tree : Tree
  sweeping : Bool
  deriving DecidableEq, Repr

/-- A group identifier's entry (R221, R223): in use, generation, members, combine operation, the ticket that holds it, its tree, the
generations that may still have packets in flight, oldest first, and how many markers of a sweep a node has yet to collect, by 16 times the node
plus the generation: the root, or the node by which another panel's marker came. -/
structure Group where
  used : Bool
  generation : Nat
  members : List Nat
  op : AtomicOp
  ticket : Nat
  index : Nat
  tree : Tree
  behind : List Behind
  awaits : KMap Nat
  deriving DecidableEq, Repr

/-- A mailbox (R210). -/
structure Mailbox where
  lo : Word
  hi : Word
  deriving DecidableEq, Repr

/-- What a placement that has not committed has reserved on this panel (R205, R206): its ticket, the attempt, the cores, the wire contexts by
die, the group identifiers, and whether its home on another panel has been asked to have it yield. -/
structure Held where
  ticket : Word
  attempt : Nat
  cores : List Nat
  wires : List (Nat × Nat)
  gids : List Nat
  asked : Bool
  deriving DecidableEq, Repr

/-- A placement of this panel's Sower that needs dies of other panels (R205): the sheaf, the number of the attempt, what it has reserved so far,
the group identifiers with their generations, the panel it asks, and the panels that have yet to agree to the last identifier. -/
structure Placing where
  sheaf : Nat
  attempt : Nat
  places : List Place
  gids : List (Nat × Nat)
  panel : Nat
  agree : List Nat
  deriving DecidableEq, Repr

/-- The Sower of the panel (R199 to R223). -/
structure Sower where
  seq : Nat
  sheaves : KMap Sheaf
  /-- The sheaves of other panels that have cores on this one, by their core keys (R205). -/
  foreign : KMap Sheaf
  /-- Tickets that have ended, latest first, with their status (R202). -/
  ended : List (Word × Nat)
  inbox : List Launch
  asid : KMap Word
  mailbox : KMap Mailbox
  arg : Word
  busy : Bool
  result : Nat
  groups : KMap Group
  /-- The answers of launches that a `sow` waits for (R294, R295). -/
  answers : KMap Word
  held : List Held
  /-- The placement in flight that waits for an answer of another panel (R203, R205). -/
  placing : Option Placing
  /-- The requests that wait until younger placements have yielded here, this panel's own among them (R206). -/
  deferred : List Body
  deriving DecidableEq, Repr

/-- The host queue, host window and domain registers (R407, R413, R424). -/
structure HostIf where
  sq : Word
  cq : Word
  sqtail : BitVec 32
  sqerr : Bool
  sqdone : BitVec 32
  cqseq : BitVec 32
  cqack : BitVec 32
  hwbase : Word
  hwlen : Word
  domcfg : Word
  route : KMap Word
  /-- Completions not yet written: SEQ, ticket, status. -/
  pending : List (BitVec 32 × Word × Nat)
  opened : Bool
  deriving DecidableEq, Repr

/-- The registers SPSTAT and SPCTL of a Stolon port (R408); its link is a module of its own, with the flit counters. -/
structure Port where
  stat : Word
  ctl : Word
  deriving DecidableEq, Repr

/-- The security processor (R417 to R425). -/
structure Security where
  stage : Nat
  lastAlarm : Nat
  sigreq : Bool
  erased : Bool
  meas : Vector (BitVec 512) 8
  mextAddr : Word
  mextLen : BitVec 32
  mextIndex : Nat
  /-- The data of the extend that runs: where they lie and how long they are. -/
  mextData : Nat × Nat
  mextBusy : Bool
  mextResult : Nat
  imgKey : Vector (BitVec 512) 4
  attAddr : Word
  attBusy : Bool
  /-- Where the report that is being formed goes. -/
  attArea : Nat
  attResult : Nat
  attMeas : Vector (BitVec 512) 8
  attClock : Word
  attNonce : List Byte
  alcount : BitVec 32
  allast : Word
  pcap : BitVec 16
  pthr : Nat
  haltAll : Bool
  /-- Measurements in a row above 30 kW at throttle level 7 (R422). -/
  overs : Nat
  /-- Counts of D0's clock at which Stolon enables were accepted (R423). -/
  enables : List Nat
  deriving DecidableEq, Repr

/-- A block as the root of a reduction delivers it (R378): its exponent, whether it is special or overflowed, its magnitudes, and the
combined integers and masks with their common exponent. -/
structure OutBlock where
  exp : Nat
  special : Bool
  aovf : Bool
  mags : List Nat
  sum : UpMsg
  estar : Nat
  deriving DecidableEq, Repr

/-- What a node of a tree holds for a combine (R377): the branch it came by (the node itself for its own rank), the message that brought it,
and its EROUND or UP. -/
structure Input where
  node : Nat
  branch : Nat
  msg : Option Nat
  body : Body
  deriving DecidableEq, Repr

/-- A message that waits at a node for a reserved place beyond a link (R370), with the cycles its node adds and the messages whose places it
still takes there. -/
structure Hop where
  src : Nat
  dst : Nat
  body : Body
  leave : Nat
  held : List Nat
  deriving DecidableEq, Repr

/-- A place taken of those that a node reserves for a link into it, or its Thresher for landings (R370): by which message, and of how many
flits. -/
structure Reserved where
  msg : Nat
  src : Nat
  dst : Nat
  flits : Nat
  deriving DecidableEq, Repr

/-- The last flit of an UP of five, whose first four have moved over a link (R370): of which message, and where it stands, in the node's own Thresher
or in the place of a message that the node holds. -/
structure Tail where
  msg : Nat
  node : Nat
  held : List Nat
  deriving DecidableEq, Repr

/-- A plane operation of a group (R291): its group, generation and tile; its ranks by member index, in the order in which they joined;
the reference's descriptor and the tree it runs on once it has started; what the nodes hold for combines, the E* and the combined blocks of
the root; each CANCEL that has landed, by node and branch, and the nodes that have begun to deliver (R385, R386); the messages that wait for
places, the places taken and the flits that have yet to follow; whether a core of it has halted and its Thresher completes what is in flight (R387);
and the accesses of drains that wait for the tile's last consumer (R153). -/
structure PlaneOp where
  group : Nat
  generation : Nat
  tile : Nat
  members : List Nat
  combine : AtomicOp
  joined : List Nat
  ranks : KMap Rank
  ref : Option PlaneDesc
  faulted : Bool
  aovf : Bool
  tree : Tree
  inputs : List Input
  estar : List Nat
  out : List OutBlock
  /-- The bytes of the HEADERs that its root has sent so far (R371). -/
  sent : Nat
  cancels : List (Nat × Nat)
  begun : List Nat
  waits : List Hop
  places : List Reserved
  tails : List Tail
  halting : Bool
  drains : List (Nat × Nat × Nat)
  deriving DecidableEq, Repr

/-- An uncorrectable error that strikes a memory (R345): a granule of HBM, or an 8-byte word of a scratchpad. -/
inductive Upset where
  | hbm (granule : Nat)
  | spad (core word : Nat)
  deriving DecidableEq, Repr

/-- What is due: the issue cycle of a slot, the naming of a restored wait, an event, or an uncorrectable error, which comes from outside the machine (log 68). -/
inductive Act where
  | issue (core slot : Nat)
  /-- The wait of a slot that was restored BLOCKED is named again (R230, R353). -/
  | retest (core slot : Nat)
  | event (e : Instr)
  | upset (u : Upset)
  deriving DecidableEq, Repr

/-- An entry of the agenda: its cycle and its phase in that cycle (R73, R228: 1 completions and arrivals, 2 bank grants and the limits of receives, 3 issues,
4 limits of waits, 5 end of cycle, 6 the ends of slices (R278); 0 for what follows at once). -/
structure Due where
  cycle : Nat
  phase : Nat
  act : Act
  deriving DecidableEq, Repr

/-- The machine: one panel (log 1). -/
structure State where
  /-- The current cycle, and the slot whose instruction is executing. -/
  cycle : Nat
  curCore : Nat
  curSlot : Nat
  curWord : BitVec 32
  /-- What is due, in the order in which it will happen (log 2). -/
  agenda : List Due
  /-- Cores that differ from a core just after reset. -/
  cores : KMap Core
  dies : KMap Die
  /-- The modules of the dies, and from 10,000 on the links of the Stolon ports. -/
  modules : KMap Module
  ports : KMap Port
  /-- Global memory by physical address (R138). -/
  mem : Memory
  /-- Poisoned 256-byte granules of HBM, each with the 64-byte quarters written whole since (R345). -/
  poison : KMap (BitVec 4)
  hshare : Nat
  net : KMap Msg
  reqs : KMap Req
  sow : Sower
  host : HostIf
  sec : Security
  planes : KMap PlaneOp
  /-- Numbers given to messages, requests, accesses and waits so far. -/
  nextId : Nat
  /-- Free values drawn so far (log 11); the model's own. -/
  free : Nat
  /-- Messages that have left the panel, latest first (log 1); the model's own. -/
  out : List Msg
  deriving DecidableEq, Repr

/-- Why the machine stops with a fault. -/
inductive Fault where
  /-- Nothing is due: no slot of any core will issue again and no work is in flight. Raised by the step. Safe: the machine
  only idles. -/
  | idle
  deriving DecidableEq, Repr

/-- Why an instruction has no next state. -/
inductive Refusal where
  /-- The instruction has no meaning in this model. Raised by the dispatch alone. Safe. -/
  | notModelled (mnemonic : String)
  deriving DecidableEq, Repr

/-- A register that holds a value and waits for nothing. -/
def RegSt.full : RegSt := { fe := .full, prod := none }

/-- The standard CSRs after reset: UXL and SXL read 2 (R46), the rest zero (log 5). -/
def Csrs.reset : Csrs :=
  { satp := 0, mstatus := 0x0000000A00000000#64, medeleg := 0, mtvec := 0, mscratch := 0, mepc := 0, mcause := 0,
    mtval := 0, stvec := 0, sscratch := 0, sepc := 0, scause := 0, stval := 0 }

/-- The custom CSRs after reset: the reset columns of R52, R53, R113, R144, R242, R243, R270, R272, R315 and R409; `wscl`
and `wlocwin`, whose columns name the image and the dispatch, are zero (log 4). -/
def UCsrs.reset : UCsrs :=
  { wtmo := 0, wfetrap := 0, wvtype := 2, wvflags := 0, wfmt := 0x400, wscl := 0, wamax := 0, wmstr := 0, wchst := 0,
    wlocwin := 0, wwinsel := 0, wgsel := 0 }

/-- A slot after die reset: it holds no process (R72). -/
def Slot.reset : Slot :=
  { st := .stopped, hold := false, pc := 0, mode := .u, x := Vector.replicate 32 0, v := Vector.replicate 16 0,
    m := Vector.replicate 8 0, xs := Vector.replicate 32 RegSt.full, vs := Vector.replicate 16 RegSt.full,
    u := UCsrs.reset, c := Csrs.reset, pid := none, token := false, resv := none, alt := Vector.replicate 8 none,
    fence := none, fetch := none, wait := none, mem := none, accs := [], aqs := [], recvs := [], bseq := 0, marks := [],
    lastProbe := none, stopped := [], pendTrap := none, pendFault := none, recsHeld := false, leaving := false, wbar := [], issued := none, issueFrom := 0 }

/-- The service slot after stage 5 of R417: READY at the first byte of the core image, in M-mode with MIE 0. -/
def Slot.service : Slot := { Slot.reset with st := .ready, pc := 0x1E0000, mode := .m }

/-- An accumulator after reset (log 4). -/
def Acc.reset : Acc := { words := 0, reg := RegSt.full, owner := none, afl := 0, part := 0 }

/-- A counter at its preset of zero, arrivals mode (R37). -/
def Counter.reset : Counter :=
  { value := 0, target := 0, mode := 0, strict := false, ovr := false, loss := false, cancel := false }

/-- A core after stage 5 of R417: its scratchpad zero, slot 15 started, slots 0 to 14 STOPPED. -/
def Core.reset : Core :=
  { slots := (Vector.replicate 16 Slot.reset).set 15 Slot.service, spad := [], spadPoison := [],
    acc := Vector.replicate 8 Acc.reset, cnt := Vector.replicate 64 Counter.reset, eps := [],
    grp := Vector.replicate 16 0, win := Vector.replicate 8 0, dmap := [], dmapSel := 0, wsheaf := 0, wasid := 0,
    trapq := [], trapqSel := 0, refuse := 0, halted := false, sfuq := [], sfuBusy := false, tlb := [], walks := [],
    tq := [], trun := none, mloads := [], drains := [], gl := { lists := [], nextLid := 1, kept := [], lastBy := [], turn := 0, sentAt := none, frozen := false },
    th := { ops := [], nextOid := 1, kept := [], lastBy := [], tiles := [] }, outq := [], bank := [], lastGrant := [],
    ticket := none, aside := [], sows := [], faults := [], pidBase := 0, issuedTotal := 0, landedTotal := 0, sentTotal := 0, receivedTotal := 0, wire := [],
    wireArr := [] }

/-- An empty ring of records. -/
def Ring.empty : Ring := { head := 0, tail := 0, ovf := 0, recs := [] }

/-- A Culm die after reset (R143, R238, R347, R410). -/
def Die.reset : Die :=
  { chaff := Ring.empty, dlk := Ring.empty, flt := Ring.empty, fltNotify := 0, probeCfg := 4096, inv := none, stale := 0,
    clkRate := 0x100000000#64, clkRateHeld := none, clkOff := 0, clkGen := 0, origin := 0, tlb2 := [], wires := [],
    offered := true }

/-- One end of a module after reset (R390). -/
def LinkEnd.reset : LinkEnd :=
  { cmd := 0, half := false, width := false, hold := false, lerr := 0, lremap := 0, lretry := 0, ltxf := 0, lackf := 0,
    lrxf := 0, llost := 0, ptxf := 0, packf := 0, prxf := 0, perr := 0, plost := 0, errLanes := 0, errCycle := 0, replay := [], waiting := [],
    partly := none, result := 0 }

/-- A module after bring-up: trained at x64 and UP (R402, R417). -/
def Module.reset : Module :=
  { st := .up, width := false, half := false, map := 0, tryWidth := false, tryHalf := false, byLimit := false, fromDrain := false,
    ends := Vector.replicate 2 LinkEnd.reset }

/-- The link of a Stolon port after reset: DOWN (R408). -/
def Module.port : Module := { Module.reset with st := .down }

/-- A Stolon port after reset: not enabled, DOWN (R408). -/
def Port.reset : Port :=
  { stat := 0, ctl := 0 }

/-- The Sower after panel reset (R200). -/
def Sower.reset : Sower :=
  { seq := 1, sheaves := [], foreign := [], ended := [], inbox := [], asid := [], mailbox := [], arg := 0, busy := false, result := 0,
    groups := [], answers := [], held := [], placing := none, deferred := [] }

/-- The host interface after stage 6 (R413, R417). -/
def HostIf.reset : HostIf :=
  { sq := 0, cq := 0, sqtail := 0, sqerr := false, sqdone := 0, cqseq := 0, cqack := 0, hwbase := 0, hwlen := 0,
    domcfg := 0, route := [], pending := [], opened := true }

/-- The security processor after stage 6 (R420). -/
def Security.reset : Security :=
  { stage := 6, lastAlarm := 0, sigreq := false, erased := false, meas := Vector.replicate 8 0, mextAddr := 0,
    mextLen := 0, mextIndex := 0, mextData := (0, 0), mextBusy := false, mextResult := 0, imgKey := Vector.replicate 4 0, attAddr := 0,
    attBusy := false, attArea := 0, attResult := 0, attMeas := Vector.replicate 8 0, attClock := 0, attNonce := [], alcount := 0, allast := 0,
    pcap := 30000, pthr := 0, haltAll := false, overs := 0, enables := [] }

/-- The issue entries of the service slots of `n` cores, from core `c` up, at cycle 15 (R69). -/
def serviceIssues : Nat → Nat → List Due
  | 0, _ => []
  | n + 1, c => { cycle := 15, phase := 3, act := .issue c 15 } :: serviceIssues n (c + 1)

/-- A panel with nothing due: every core just after reset. -/
def State.quiet : State :=
  { cycle := 0, curCore := 0, curSlot := 15, curWord := 0, agenda := [], cores := [], dies := [], modules := [], ports := [], mem := [],
    poison := [], hshare := 6, net := [], reqs := [], sow := Sower.reset, host := HostIf.reset, sec := Security.reset,
    planes := [], nextId := 1, free := 0, out := [] }

/-- The machine right after the bring-up stages of a panel reset (R417): every core's slot 15 is about to issue for the first
time, nothing else is due, every memory is empty (log 3). -/
def State.reset : State := { State.quiet with agenda := serviceIssues 16384 0 }

end Sys2Proof.Machine
end

