-- ==== Sys2Proof/Machine/Bits.lean ====
section
/-! DEFINITION. Bit fields, bytes, maps by number and byte memories: the data operations under every other file of Machine/. -/

namespace Sys2Proof

/-- The order of the scopes. -/
def Scope.rank : Scope → Nat
  | .core => 0
  | .die => 1
  | .panel => 2
  | .domain => 3

/-- Whether a target whose smallest scope is `a` lies within `b`. -/
def Scope.within (a b : Scope) : Bool := a.rank ≤ b.rank

/-- The wider of two scopes. -/
def Scope.max (a b : Scope) : Scope := if a.rank ≤ b.rank then b else a

end Sys2Proof

namespace Sys2Proof.Machine

/-- `len` bits of a number from bit `lo` up. -/
def bitsOf (w lo len : Nat) : Nat := (w >>> lo) % 2 ^ len

/-- `len` bits of a word from bit `lo` up. -/
def field {n : Nat} (w : BitVec n) (lo len : Nat) : Nat := bitsOf w.toNat lo len

/-- Bit `i` of a word. -/
def bitAt {n : Nat} (w : BitVec n) (i : Nat) : Bool := w.getLsbD i

/-- A word with `len` bits from bit `lo` up replaced by `v`. -/
def setField {n : Nat} (w : BitVec n) (lo len v : Nat) : BitVec n :=
  BitVec.ofNat n (w.toNat - field w lo len * 2 ^ lo + (v % 2 ^ len) * 2 ^ lo)

/-- One bit as a number. -/
def bit (b : Bool) : Nat := if b then 1 else 0

/-- The signed value of the low `n` bits of a number. -/
def signedOf (n v : Nat) : Int :=
  let u := v % 2 ^ n
  if u < 2 ^ (n - 1) then (u : Int) else (u : Int) - (2 ^ n : Nat)

/-- The `n` low bytes of a number, least significant first. -/
def leBytes : Nat → Nat → List Byte
  | 0, _ => []
  | n + 1, v => BitVec.ofNat 8 v :: leBytes n (v / 256)

/-- The number a list of bytes is, least significant first. -/
def leNat : List Byte → Nat
  | [] => 0
  | b :: t => b.toNat + 256 * leNat t

/-- `n` counted up from `a`. -/
def rangeFrom : Nat → Nat → List Nat
  | 0, _ => []
  | n + 1, a => a :: rangeFrom n (a + 1)

/-- The numbers below `n`. -/
def below (n : Nat) : List Nat := rangeFrom n 0

/-- The value at a number. -/
def KMap.get {α : Type} : KMap α → Nat → Option α
  | [], _ => none
  | (k, v) :: t, n => if k = n then some v else KMap.get t n

/-- The map with the value at a number set. -/
def KMap.put {α : Type} : KMap α → Nat → α → KMap α
  | [], n, v => [(n, v)]
  | (k, w) :: t, n, v =>
    if n < k then (n, v) :: (k, w) :: t else if n = k then (n, v) :: t else (k, w) :: KMap.put t n v

/-- The map without a number. -/
def KMap.del {α : Type} (m : KMap α) (n : Nat) : KMap α := m.filter (fun p => p.1 != n)

/-- The byte at an address; zero where nothing is listed (log 6). -/
def Memory.read (m : Memory) (a : Nat) : Byte := (KMap.get m a).getD 0

/-- The memory with one byte written; a zero byte is not listed. -/
def Memory.write (m : Memory) (a : Nat) (b : Byte) : Memory := if b = 0 then KMap.del m a else KMap.put m a b

/-- The bytes from an address up. -/
def Memory.bytes (m : Memory) : Nat → Nat → List Byte
  | 0, _ => []
  | n + 1, a => m.read a :: Memory.bytes m n (a + 1)

/-- Writes bytes from an address up. -/
def Memory.writeAll (m : Memory) : Nat → List Byte → Memory
  | _, [] => m
  | a, b :: t => Memory.writeAll (m.write a b) (a + 1) t

/-- The memory with `n` bytes from an address up zero. -/
def Memory.clear (m : Memory) (a n : Nat) : Memory := m.filter fun c => decide (c.1 < a) || decide (a + n ≤ c.1)

/-- `n` bytes at an address as a number, little-endian (R9, R39). -/
def Memory.load (m : Memory) (n a : Nat) : Nat := leNat (m.bytes n a)

/-- Stores the `n` low bytes of a number at an address, little-endian. -/
def Memory.store (m : Memory) (n a v : Nat) : Memory := m.writeAll a (leBytes n v)

/-- The canonical form of a map: rising numbers. -/
def KMap.sorted {α : Type} : KMap α → Bool
  | [] => true
  | [_] => true
  | (a, _) :: (b, w) :: t => decide (a < b) && KMap.sorted ((b, w) :: t)

/-- The canonical form of a memory: rising addresses, no zero byte listed. -/
def Memory.wf (m : Memory) : Bool := KMap.sorted m && m.all (fun p => p.2 != 0)

/-- Applies a function to every entry of a vector. -/
def vecMap {α β : Type} {n : Nat} (f : α → β) (v : Vector α n) : Vector β n := Vector.ofFn fun i => f (v.get i)

/-- The entry of a vector at a number, or a given value past its end. -/
def vecGet {α : Type} {n : Nat} (v : Vector α n) (i : Nat) (d : α) : α := if h : i < n then v[i] else d

/-- The vector with the entry at a number set, if there is one. -/
def vecSet {α : Type} {n : Nat} (v : Vector α n) (i : Nat) (a : α) : Vector α n :=
  if h : i < n then v.set i a else v

end Sys2Proof.Machine
end

