-- ==== Sys2Proof/Machine/Hash.lean ====
section
/-! DEFINITION. SHAKE256, the hash that R193, R417 and R418 name: the sponge of FIPS 202 over Keccak-f[1600] (log 16). -/

namespace Sys2Proof.Machine

/-- Lane (x, y) of a Keccak state of 25 lanes. -/
def lane (a : List Word) (x y : Nat) : Word := (a[x % 5 + 5 * (y % 5)]?).getD 0

/-- The steps of the walk from (x, y) to (y, 2x + 3y), which FIPS 202 takes through every lane but (0, 0), from a step on: each lane met,
with its triangular number as its rotation. -/
def rhoWalk : Nat → Nat → Nat → Nat → KMap Nat
  | 0, _, _, _ => []
  | n + 1, step, x, y => KMap.put (rhoWalk n (step + 1) y ((2 * x + 3 * y) % 5)) (x + 5 * y) ((step + 1) * (step + 2) / 2 % 64)

/-- The rotation of a lane by its place x + 5y: none for lane (0, 0). -/
def rhoOf (place : Nat) : Nat := (KMap.get (rhoWalk 24 0 1 0) place).getD 0

/-- The output bits of the shift register x^8 + x^6 + x^5 + x^4 + 1 of FIPS 202, from a state on. -/
def iotaBits : Nat → Nat → List Bool
  | 0, _ => []
  | n + 1, r => (r % 2 == 1) :: iotaBits n (if r < 128 then 2 * r else (2 * r) ^^^ 0x171)

/-- The constant of a round: its bits 2^j − 1 are seven output bits of the register. -/
def roundConstant (bits : List Bool) : Word :=
  ((below 7).zip bits).foldl (fun w p => if p.2 then w ||| (1#64 <<< (2 ^ p.1 - 1)) else w) 0

/-- The constants of `n` rounds, from the register's output. -/
def iotaConstants : Nat → List Bool → List Word
  | 0, _ => []
  | n + 1, bits => roundConstant (bits.take 7) :: iotaConstants n (bits.drop 7)

/-- The lanes of a state computed one by one. -/
def lanes (f : Nat → Nat → Word) : List Word := (below 25).map fun i => f (i % 5) (i / 5)

/-- The sum of a column of lanes. -/
def columnSum (a : List Word) (x : Nat) : Word := (below 5).foldl (fun w y => w ^^^ lane a x y) 0

/-- The step that adds to every lane the two columns beside it. -/
def theta (a : List Word) : List Word :=
  lanes fun x y => lane a x y ^^^ columnSum a (x + 4) ^^^ (columnSum a (x + 1)).rotateLeft 1

/-- The steps that rotate the lanes and move them: lane (x, y) comes from (x + 3y, x). -/
def rhoPi (a : List Word) : List Word := lanes fun x y => (lane a (x + 3 * y) x).rotateLeft (rhoOf ((x + 3 * y) % 5 + 5 * x))

/-- The step that combines the lanes of a row. -/
def chi (a : List Word) : List Word := lanes fun x y => lane a x y ^^^ (~~~(lane a (x + 1) y) &&& lane a (x + 2) y)

/-- One round of Keccak-f[1600] with its constant. -/
def keccakRound (a : List Word) (rc : Word) : List Word :=
  let e := chi (rhoPi (theta a))
  (lane e 0 0 ^^^ rc) :: e.drop 1

/-- Keccak-f[1600]. -/
def keccak (a : List Word) : List Word := (iotaConstants 24 (iotaBits 168 1)).foldl keccakRound a

/-- A message padded for SHAKE256, whose rate is 136 bytes. -/
def shakePad (m : List Byte) : List Byte :=
  let gap := 136 - m.length % 136
  m ++ (if gap = 1 then [0x9F#8] else 0x1F#8 :: List.replicate (gap - 2) 0#8 ++ [0x80#8])

/-- Absorbs `n` blocks. -/
def absorb : Nat → List Word → List Byte → List Word
  | 0, a, _ => a
  | n + 1, a, m =>
    let a := lanes fun x y =>
      let i := x + 5 * y
      if i < 17 then lane a x y ^^^ BitVec.ofNat 64 (leNat ((m.drop (8 * i)).take 8)) else lane a x y
    absorb n (keccak a) (m.drop 136)

/-- The first 512 bits of SHAKE256 of a message. -/
def shake256 (m : List Byte) : BitVec 512 :=
  let p := shakePad m
  let a := absorb (p.length / 136) (List.replicate 25 0) p
  BitVec.ofNat 512 (leNat ((a.take 8).flatMap fun w => leBytes 8 w.toNat))

/-- A measurement register after an extend with data (R418). -/
def extendMeas (m : BitVec 512) (d : List Byte) : BitVec 512 :=
  shake256 (leBytes 64 m.toNat ++ leBytes 64 (shake256 d).toNat)

end Sys2Proof.Machine
end

