-- ==== Sys2Proof/Config.lean ====
section
/-! DEFINITION. The free values: constants without a body, so that no proof can use what they are. Each is applied to a counter of
the state that grows with every draw, or to the operands it depends on (log 11). -/

namespace Sys2Proof.Config

/-- Extra cycles of a message or request when other traffic is in flight; R148 gives the latencies without it (log 2). -/
opaque netDelay : Nat → Nat

/-- Cycles of each way of a global access of the Gleaner, whose service lies outside the unloaded model (R302; log 96). -/
opaque gleanTime : Nat → Nat

/-- Cycles a translation walk takes beyond the second-level lookup (R87). -/
opaque walkTime : Nat → Nat

/-- Cycles a step of the Sower, of firmware or of the security processor takes (R200, R207, R393, R420). -/
opaque serviceTime : Nat → Nat

/-- A choice the spec leaves open, as a bit: which of two values a register or byte holds. -/
opaque freeBit : Nat → Bool

/-- A 64-bit value the spec leaves open. -/
opaque freeWord : Nat → Word

/-- A 1,024-bit value the spec leaves open. -/
opaque freeVec : Nat → VWord

/-- Whether a flit that crosses a module is received damaged (R401). -/
opaque flitBad : Nat → Bool

/-- The lanes of a module that do not work as it is trained: 64 data lanes, then 4 spares (R391, R402). -/
opaque laneFails : Nat → BitVec 68

/-- Whether a training of a Stolon port succeeds (R408). -/
opaque trainOk : Nat → Bool

/-- The panel's fuses: SIGFUSE (R419), and the fused panel identifier (R421). -/
opaque sigFuse : Bool
opaque panelId : BitVec 128

/-- Whether a signature over the first bytes is valid under a 64-byte key: SLH-DSA-SHAKE-256s (R192, R419). -/
opaque verifies : List Byte → List Byte → BitVec 512 → Bool

/-- The attestation signature over a report, as its 49,856 bytes: SLH-DSA-SHAKE-256f (R421). -/
opaque attestation : List Byte → List Byte

/-- How the crew, channel and group sections of a sowing image are read: the spec names their contents and gives no layout in bits, so
which bytes make which sections, and which make none, is open (R192). -/
opaque imageBody : List Byte → Option Machine.ImageBody

/-- Whether a stage of the bring-up succeeds (R417). -/
opaque stageOk : Nat → Bool

/-- The header and body of the firmware, which the boot ROM extends into MEAS0 (R417, R418), and the offset and length of the core image that the
header of a firmware names. -/
opaque firmware : List Byte
opaque imagePart : List Byte → Nat × Nat

/-- What the firmware writes in stages 4 and 6 of the bring-up (R417): CLKRATE and CLKOFF of each die, DOMCFG and each entry of ROUTE, which Stolon
ports it enables, and whether it sets SPCFG.SIGREQ. -/
opaque bootRate : Nat → Word
opaque bootOffset : Nat → Word
opaque bootDomain : Word
opaque bootRoute : Nat → Word
opaque bootPort : Nat → Bool
opaque bootSigreq : Bool

/-- What the expander behind a second-tier port returns with a read of one of its addresses: whether it is poisoned (R345, R415). -/
opaque tierPoison : Nat → Nat → Nat → Bool

/-- What the host returns with a read: whether it is poisoned (R345, R411). -/
opaque hostPoison : Nat → Bool

end Sys2Proof.Config
end

