-- ==== Sys2Proof/Machine/Route.lean ====
section
/-! DEFINITION. Sites, links and the routes of messages on the data and control networks (R131, R132, R134, R427, R428, R149). -/

namespace Sys2Proof.Machine

/-- Cores are numbered 512 × die + 16 × row + col; the relay of stack s is numbered 100,000 + s. -/
def relayBase : Nat := 100000

/-- The numbers from which on the points of other panels stand, and how many of each panel: what is sent to one leaves this panel by a port
(log 1). -/
def foreignBase : Nat := 4000000
def panelSpan : Nat := 2 ^ 21

/-- The number of a core, relay or node of a panel, as panel `own` names it. -/
def foreignTarget (panel own target : Nat) : Nat := if panel = own then target else foreignBase + panel * panelSpan + target

/-- Whether a point lies on another panel. -/
def isForeign (n : Nat) : Bool := decide (foreignBase ≤ n)

/-- The panel of a point of another panel. -/
def panelTo (n : Nat) : Nat := (n - foreignBase) / panelSpan

/-- The number of a point on its own panel. -/
def localPoint (n : Nat) : Nat := if isForeign n then (n - foreignBase) % panelSpan else n

/-- The second-tier port that serves a second-tier offset (R141). -/
def tierPort (o : Nat) : Nat := (o >>> 12) % 32

/-- The Culm die of a core (R131). -/
def dieOf (core : Nat) : Nat := core / 512

/-- The physical row of a core (R54). -/
def rowOf (core : Nat) : Nat := core % 512 / 16

/-- The physical column of a core (R54). -/
def colOf (core : Nat) : Nat := core % 16

/-- The core at coordinates of the panel. -/
def coreAt (die row col : Nat) : Nat := die * 512 + row * 16 + col

/-- The site (row, column) of a die (R131). -/
def dieSite (d : Nat) : Nat × Nat := (d / 4, 2 * (d % 4) + d / 4 % 2)

/-- The site (row, column) of a stack (R131). -/
def stackSite (n : Nat) : Nat × Nat := (n / 4, 2 * (n % 4) + (1 - n / 4 % 2))

/-- Whether a site holds a Culm die rather than a stack (R131). -/
def siteIsDie (r c : Nat) : Bool := (r + c) % 2 == 0

/-- The index of the die or stack at a site (R131). -/
def siteIndex (r c : Nat) : Nat := 4 * r + c / 2

/-- The site of a core or relay. -/
def siteOf (p : Nat) : Nat × Nat := if p < relayBase then dieSite (dieOf p) else stackSite (p - relayBase)

/-- The distance between two coordinates. -/
def dist (a b : Nat) : Nat := if a < b then b - a else a - b

/-- A module of a die's edge: 0 north, 1 east, 2 south, 3 west; on the data network links 2m and 2m + 1 share module m, and the
control links share module 16 of an east or west edge and 8 of a north or south edge (R132, R390). -/
def moduleOf (die edge link : Nat) (ctl : Bool) : Nat :=
  die * 72 + edge * 18 + (if ctl then (if edge % 2 = 1 then 16 else 8) else link / 2)

/-- A route: the cycles to the first die-edge module or to the end, and each module crossed with its sending end (0 Culm, 1
Granary) and the cycles from there on, the crossing's hop included. -/
abbrev Route := Nat × List (Nat × Nat × Nat)

/-- A route with cycles before it. -/
def Route.after (k : Nat) (r : Route) : Route := (k + r.1, r.2)

/-- A route that first crosses a module, one hop of 2 cycles (R148). -/
def Route.cross (m e : Nat) (r : Route) : Route := (0, (m, e, 2 + r.1) :: r.2)

/-- The edge towards which a message moves from a site: in X first, then in Y (R134). -/
def edgeTo (r c r' c' : Nat) : Nat := if c < c' then 1 else if c' < c then 3 else if r' < r then 0 else 2

/-- The site beyond an edge. -/
def beyond (r c edge : Nat) : Nat × Nat :=
  if edge = 0 then (r - 1, c) else if edge = 1 then (r, c + 1) else if edge = 2 then (r + 1, c) else (r, c - 1)

/-- The opposite edge. -/
def opposite (edge : Nat) : Nat := (edge + 2) % 4

/-- The router at which a message enters a die by a link of an edge (R132, R428). -/
def entryRouter (edge link : Nat) (ctl : Bool) : Nat × Nat :=
  let n := if ctl then 4 * link else link
  if edge = 0 then (0, n) else if edge = 1 then (n, 15) else if edge = 2 then (31, n) else (n, 0)

/-- The link by which a message that starts at a relay leaves it (R427, R428). -/
def startLink (r c : Nat) (dst : Nat) (ctl : Bool) : Nat :=
  let (r', c') := siteOf dst
  if relayBase ≤ dst then 0
  else if c = c' then (if ctl then colOf dst / 4 else colOf dst)
  else if r = r' then (if ctl then rowOf dst / 4 else rowOf dst)
  else if siteIsDie r c' then 0
  else 2 * (if ctl then colOf dst / 4 else colOf dst)

/-- Hops inside a die from a router to its exit by an edge, and the link it leaves by. `src` says the die is the source's own;
`cameX` the edge by which a transit message entered (R134, R428). -/
def exitHops (row col edge : Nat) (src ctl : Bool) : Nat × Nat :=
  if ¬ ctl then
    if edge = 1 then (15 - col, row) else if edge = 3 then (col, row)
    else if edge = 0 then (row, col) else (31 - row, col)
  else if src then
    if edge = 1 then (row % 4 + (15 - col), row / 4) else if edge = 3 then (row % 4 + col, row / 4)
    else if edge = 0 then (row + col % 4, col / 4) else ((31 - row) + col % 4, col / 4)
  else
    if edge = 1 then (15 - col, row / 4) else if edge = 3 then (col, row / 4)
    else if edge = 0 then (row + col % 4, col / 4) else ((31 - row) + col % 4, col / 4)

/-- The rest of a route from a die (`pos` its router) or a relay (`pos` the edge entered and the link), site by site. -/
def routeFrom (dst : Nat) (ctl : Bool) : Nat → Nat → Nat → Nat × Nat → Bool → Route
  | 0, _, _, _, _ => (0, [])
  | fuel + 1, r, c, pos, start =>
    let (r', c') := siteOf dst
    if r = r' ∧ c = c' then
      if dst < relayBase then (2 * (dist pos.2 (colOf dst) + dist pos.1 (rowOf dst)), []) else (0, [])
    else
      let e := edgeTo r c r' c'
      let (nr, nc) := beyond r c e
      if siteIsDie r c then
        let (h, link) := exitHops pos.1 pos.2 e start ctl
        Route.after (2 * h) (Route.cross (moduleOf (siteIndex r c) e link ctl) 0
          (routeFrom dst ctl fuel nr nc (opposite e, link) false))
      else
        let link := if start then startLink r c dst ctl else if pos.1 % 2 = 1 ∧ e % 2 = 0 then pos.2 / 2 else pos.2
        Route.after (if start then 0 else 40) (Route.cross (moduleOf (siteIndex nr nc) (opposite e) link ctl) 1
          (routeFrom dst ctl fuel nr nc (entryRouter (opposite e) link ctl) false))

/-- The route of a message from a core or relay to another, with its charges of 2 cycles a hop and 40 a relay crossed (R149). -/
def route (src dst : Nat) (ctl : Bool) : Route :=
  let (r, c) := siteOf src
  routeFrom dst ctl 32 r c (rowOf src, colOf src) true

/-! ### Routes of the data network node by node (R134, R221)

A node is a core, which stands for its router, or a relay as it passes messages on to one router: routes to one destination that cross a relay
to different routers cross different nodes. -/

/-- The node of a relay (by its number from 0) whose next router is `next`. -/
def relayNode (relay next : Nat) : Nat := 1000000 + relay * 20000 + next

/-- Where a node lies: its core, or its relay; another panel's stands for itself. -/
def nodePoint (n : Nat) : Nat := if n < 1000000 ∨ isForeign n then n else relayBase + (n - 1000000) / 20000

/-- The coordinates after `a`, through `b`. -/
def steps (a b : Nat) : List Nat := if a < b then rangeFrom (b - a) (a + 1) else (below (a - b)).map fun k => a - 1 - k

/-- The routers of a die after a router, through another: in X first, then in Y (R134). -/
def dieWalk (die : Nat) (a b : Nat × Nat) : List Nat :=
  (steps a.2 b.2).map (fun c => coreAt die a.1 c) ++ (steps a.1 b.1).map fun r => coreAt die r b.2

/-- The node of a relay that passes messages on to a Stolon port (R406). -/
def portNode (relay : Nat) : Nat := relayNode relay 16384

/-- The nodes after a router of a die's site through a core, or through the relay of a port, die by die. -/
def pathFrom (dst : Nat) : Nat → Nat → Nat → Nat × Nat → List Nat
  | 0, _, _, _ => []
  | fuel + 1, r, c, pos =>
    let die := siteIndex r c
    let (r', c') := siteOf dst
    if r = r' ∧ c = c' then dieWalk die pos (rowOf dst, colOf dst)
    else
      let e := edgeTo r c r' c'
      let link := if e % 2 = 1 then pos.1 else pos.2
      let (rr, rc) := beyond r c e
      let edge := dieWalk die pos (entryRouter e link false)
      if rr = r' ∧ rc = c' then edge ++ [portNode (siteIndex rr rc)]
      else
        let e2 := edgeTo rr rc r' c'
        let link2 := if e % 2 = 1 ∧ e2 % 2 = 0 then link / 2 else link
        let (nr, nc) := beyond rr rc e2
        let entry := entryRouter (opposite e2) link2 false
        let next := coreAt (siteIndex nr nc) entry.1 entry.2
        edge ++ [relayNode (siteIndex rr rc) next, next] ++ pathFrom dst fuel nr nc entry

/-- The nodes of the route from a core to another, or to the relay of a port, without the first: that of `route` on the data network, node by
node. From the relay of a port, which is no node before its next router is known, it has the first as well. -/
def pathNodes (src dst : Nat) : List Nat :=
  let (r, c) := siteOf src
  if src < relayBase then pathFrom dst 32 r c (rowOf src, colOf src)
  else
    let e := edgeTo r c (siteOf dst).1 (siteOf dst).2
    let (nr, nc) := beyond r c e
    let entry := entryRouter (opposite e) (startLink r c dst false) false
    let next := coreAt (siteIndex nr nc) entry.1 entry.2
    relayNode (siteIndex r c) next :: next :: pathFrom dst 32 nr nc entry

/-- The route from a node to one beside it: a hop (R148), over the module of the die's edge beside a relay. -/
def hopRoute (a b : Nat) : Route :=
  let core := min a b
  let relay := max a b
  if a = b then (0, [])
  else if relay < relayBase then (2, [])
  else
    let (r, c) := siteOf core
    let (r', c') := siteOf (nodePoint relay)
    let e := edgeTo r c r' c'
    Route.cross (moduleOf (dieOf core) e (if e % 2 = 1 then rowOf core else colOf core) false) (bit (core = b)) (0, [])

/-- A route of which only the hops over its modules take time. -/
def Route.bare (r : Route) : Route := (0, r.2.map fun m => (m.1, m.2.1, 2))

/-- The cycles of a whole route. -/
def Route.cycles (r : Route) : Nat := r.2.foldl (fun k m => k + m.2.2) r.1

end Sys2Proof.Machine
end

