-- ==== Sys2Proof/Machine/Ops.lean ====
section
/-! DEFINITION. The operations every meaning is written over: reading and updating parts of the state, what is due when, memory
and poison, registers, traps and their return, blocking and completing, accesses and what waits for them, messages. -/

namespace Sys2Proof.Machine

/-- The outcome of a step. -/
abbrev Out := Host.Outcome State Fault Refusal

/-- A next state. -/
def ok (s : State) : Out := .next s

/-! ### Parts of the state -/

/-- Whether a core has halted, alone or with the whole panel (R343, R422). -/
def State.halted (s : State) (c : Nat) : Bool := s.sec.haltAll || ((KMap.get s.cores c).getD Core.reset).halted

/-- A core; one that is not listed is as after reset. -/
def State.core (s : State) (c : Nat) : Core := (KMap.get s.cores c).getD Core.reset

/-- Updates a core. -/
def State.modCore (s : State) (c : Nat) (f : Core → Core) : State :=
  { s with cores := KMap.put s.cores c (f (s.core c)) }

/-- A slot of a core. -/
def Core.slot (k : Core) (i : Nat) : Slot := vecGet k.slots i Slot.reset

/-- Updates a slot of a core. -/
def Core.modSlot (k : Core) (i : Nat) (f : Slot → Slot) : Core := { k with slots := vecSet k.slots i (f (k.slot i)) }

/-- A slot by core and number. -/
def State.slot (s : State) (c i : Nat) : Slot := (s.core c).slot i

/-- Updates a slot by core and number. -/
def State.modSlot (s : State) (c i : Nat) (f : Slot → Slot) : State := s.modCore c fun k => k.modSlot i f

/-- The core whose slot is issuing. -/
def State.here (s : State) : Core := s.core s.curCore

/-- Updates the core whose slot is issuing. -/
def State.modHere (s : State) (f : Core → Core) : State := s.modCore s.curCore f

/-- The issuing slot. -/
def State.me (s : State) : Slot := s.slot s.curCore s.curSlot

/-- Updates the issuing slot. -/
def State.modMe (s : State) (f : Slot → Slot) : State := s.modSlot s.curCore s.curSlot f

/-- A Culm die. -/
def State.die (s : State) (d : Nat) : Die := (KMap.get s.dies d).getD Die.reset

/-- Updates a Culm die. -/
def State.modDie (s : State) (d : Nat) (f : Die → Die) : State := { s with dies := KMap.put s.dies d (f (s.die d)) }

/-- The number from which on the links of the Stolon ports stand among the modules. -/
def portModule : Nat := 10000

/-- A UCIe module, or the link of a Stolon port; one that is not listed is as after reset. -/
def State.module (s : State) (m : Nat) : Module :=
  (KMap.get s.modules m).getD (if m < portModule then Module.reset else Module.port)

/-- Updates a UCIe module, or the link of a Stolon port. -/
def State.modModule (s : State) (m : Nat) (f : Module → Module) : State :=
  { s with modules := KMap.put s.modules m (f (s.module m)) }

/-- A Stolon port. -/
def State.port (s : State) (p : Nat) : Port := (KMap.get s.ports p).getD Port.reset

/-- Updates a Stolon port. -/
def State.modPort (s : State) (p : Nat) (f : Port → Port) : State := { s with ports := KMap.put s.ports p (f (s.port p)) }

/-- A counter of a core. -/
def State.counter (s : State) (c n : Nat) : Counter := vecGet (s.core c).cnt n Counter.reset

/-- Updates a counter of a core. -/
def State.modCounter (s : State) (c n : Nat) (f : Counter → Counter) : State :=
  s.modCore c fun k => { k with cnt := vecSet k.cnt n (f (vecGet k.cnt n Counter.reset)) }

/-- A bound endpoint of a core. -/
def State.endpoint (s : State) (c n : Nat) : Option Endpoint := KMap.get (s.core c).eps n

/-- Updates an endpoint of a core, if it is bound. -/
def State.modEndpoint (s : State) (c n : Nat) (f : Endpoint → Endpoint) : State :=
  match s.endpoint c n with
  | none => s
  | some e => s.modCore c fun k => { k with eps := KMap.put k.eps n (f e) }

/-- The key of another panel's sheaf among the sheaves of this one: above every sequence number (R200). -/
def foreignKey (ticket : Word) : Nat := 2 ^ 64 + ticket.toNat

/-- A sheaf record by its ticket's sequence number, or by its key if it is another panel's. -/
def State.sheaf (s : State) (t : Nat) : Option Sheaf := if t < 2 ^ 64 then KMap.get s.sow.sheaves t else KMap.get s.sow.foreign t

/-- Updates a sheaf record. -/
def State.modSheaf (s : State) (t : Nat) (f : Sheaf → Sheaf) : State :=
  match s.sheaf t with
  | none => s
  | some h =>
    if t < 2 ^ 64 then { s with sow := { s.sow with sheaves := KMap.put s.sow.sheaves t (f h) } }
    else { s with sow := { s.sow with foreign := KMap.put s.sow.foreign t (f h) } }

/-- Updates the Sower. -/
def State.modSow (s : State) (f : Sower → Sower) : State := { s with sow := f s.sow }

/-- Updates the security processor. -/
def State.modSec (s : State) (f : Security → Security) : State := { s with sec := f s.sec }

/-- Updates the host interface. -/
def State.modHost (s : State) (f : HostIf → HostIf) : State := { s with host := f s.host }

/-- A fresh number. -/
def State.fresh (s : State) : Nat × State := (s.nextId, { s with nextId := s.nextId + 1 })

/-- The counter for the next free value, and the state with it advanced (log 11). -/
def State.draw (s : State) : Nat × State := (s.free, { s with free := s.free + 1 })

/-! ### The agenda (R69, R73; log 2) -/

/-- Inserts an entry after every entry that is due no later. -/
def insertDue (d : Due) : List Due → List Due
  | [] => [d]
  | e :: t =>
    if d.cycle < e.cycle ∨ (d.cycle = e.cycle ∧ d.phase < e.phase) then d :: e :: t else e :: insertDue d t

/-- Makes an act due. -/
def State.schedule (s : State) (cycle phase : Nat) (a : Act) : State :=
  { s with agenda := insertDue { cycle := cycle, phase := phase, act := a } s.agenda }

/-- Makes an event due at a cycle, in the phase of arrivals and completions (R73 step 1). -/
def State.at (s : State) (cycle : Nat) (e : Instr) : State := s.schedule cycle 1 (.event e)

/-- Makes an event the next thing that happens. -/
def State.now (s : State) (e : Instr) : State :=
  { s with agenda := { cycle := s.cycle, phase := 0, act := .event e } :: s.agenda }

/-- Makes an event due at the end of the current cycle (R73 step 3). -/
def State.atEnd (s : State) (e : Instr) : State := s.schedule s.cycle 5 (.event e)

/-- The first issue cycle of a slot after a cycle (R69). -/
def State.nextIssue (s : State) (c slot : Nat) (after : Nat) : Nat :=
  let o := (s.die (dieOf c)).origin
  let k := (after - o) % 16
  after + (if k < slot then slot - k else slot + 16 - k)

/-- Whether the issue cycles of a slot are on the agenda. -/
def State.hasIssue (s : State) (c slot : Nat) : Bool := s.agenda.any fun d => d.act == .issue c slot

/-- Puts the issue cycles of a slot on the agenda, unless they are there. -/
def State.ensureIssue (s : State) (c slot : Nat) (after : Nat) : State :=
  if s.hasIssue c slot then s else s.schedule (s.nextIssue c slot after) 3 (.issue c slot)

/-- The sheaf of a core, if it has one, may now be able to retire (R218): its Sower looks. -/
def State.mayRetire (s : State) (c : Nat) : State :=
  match (s.core c).ticket with
  | some t => s.at s.cycle (.quiescenceRound t)
  | none => s

/-! ### Identity and clocks -/

/-- The panel's number in the domain (R407). -/
def State.panel (s : State) : Nat := field s.host.domcfg 0 6

/-- `wslot` bits [23:0] of a slot of a core of this panel or of another one (R54). -/
def State.wslotLow (s : State) (c slot : Nat) : Nat :=
  let n := localPoint c
  (if isForeign c then panelTo c else s.panel) * 2 ^ 18 + dieOf n * 2 ^ 13 + rowOf n * 2 ^ 8 + colOf n * 16 + slot

/-- The process id a slot reports: 0x1F_FFFF without a process (R54). -/
def Slot.pidWord (t : Slot) : Nat := t.pid.getD 0x1FFFFF

/-- A die's clock: 1 GHz counts since its reset, at 1.75 GHz cycles (R55, R405; log 15, log 74). -/
def State.clock (s : State) (d : Nat) : Word := BitVec.ofNat 64 ((s.cycle - (s.die d).origin) * 4 / 7)

/-- A reading of a die's clock in the reference time of the domain: Floor((TIME × RATE + OFFSET) / 2^32), with OFFSET signed (R410). -/
def Die.reference (x : Die) (time : Word) : Int := ((time.toNat * x.clkRate.toNat : Nat) + x.clkOff.toInt) / 2 ^ 32

/-- The reference time now as a die reads it (R410). -/
def State.reference (s : State) (d : Nat) : Int := (s.die d).reference (s.clock d)

/-- The counts of 38 µs after which a request is past its deadline, and of the 2 µs that must remain of it at a second-tier port (R405). -/
def deadlineTime : Int := 38000
def expanderTime : Int := 2000

/-- The sheaf a core holds, from `wsheaf` (R196). -/
def Core.sid (k : Core) : Nat := field k.wsheaf 52 12

/-- Dies, Rows and Cols of the core's sheaf (R93, R196). -/
def Core.shape (k : Core) : Nat × Nat × Nat := (field k.wsheaf 16 8 + 1, field k.wsheaf 8 5 + 1, field k.wsheaf 0 4 + 1)

/-! ### Registers (R47 to R49) -/

/-- The value of an x register; x0 reads zero. -/
def Slot.getX (t : Slot) (r : BitVec 5) : Word := if r = 0 then 0 else t.x[r.toNat]'r.isLt

/-- The full/empty state of an x register; x0 is always FULL (R47). -/
def Slot.xState (t : Slot) (r : BitVec 5) : RegSt := if r = 0 then RegSt.full else t.xs[r.toNat]'r.isLt

/-- Writes an x register, which becomes FULL; a write of x0 is discarded. -/
def Slot.setX (t : Slot) (r : BitVec 5) (w : Word) : Slot :=
  if r = 0 then t
  else { t with x := t.x.set r.toNat w r.isLt, xs := t.xs.set r.toNat RegSt.full r.isLt }

/-- Sets the full/empty state of an x register; x0 keeps its own. -/
def Slot.markX (t : Slot) (r : BitVec 5) (g : RegSt) : Slot :=
  if r = 0 then t else { t with xs := t.xs.set r.toNat g r.isLt }

/-- The value of a v register. -/
def Slot.getV (t : Slot) (r : BitVec 4) : VWord := t.v[r.toNat]'r.isLt

/-- The full/empty state of a v register. -/
def Slot.vState (t : Slot) (r : BitVec 4) : RegSt := t.vs[r.toNat]'r.isLt

/-- Writes a v register, which becomes FULL. -/
def Slot.setV (t : Slot) (r : BitVec 4) (w : VWord) : Slot :=
  { t with v := t.v.set r.toNat w r.isLt, vs := t.vs.set r.toNat RegSt.full r.isLt }

/-- Sets the full/empty state of a v register. -/
def Slot.markV (t : Slot) (r : BitVec 4) (g : RegSt) : Slot := { t with vs := t.vs.set r.toNat g r.isLt }

/-- The value of a mask register; m0 reads all ones (R75). -/
def Slot.getM (t : Slot) (r : BitVec 3) : MWord := if r = 0 then BitVec.allOnes 128 else t.m[r.toNat]'r.isLt

/-- Writes a mask register; no instruction names m0 as a destination (R12). -/
def Slot.setM (t : Slot) (r : BitVec 3) (w : MWord) : Slot :=
  if r = 0 then t else { t with m := t.m.set r.toNat w r.isLt }

/-- An accumulator of a core. -/
def Core.getAcc (k : Core) (n : BitVec 3) : Acc := k.acc[n.toNat]'n.isLt

/-- Updates an accumulator of a core. -/
def Core.modAcc (k : Core) (n : BitVec 3) (f : Acc → Acc) : Core :=
  { k with acc := k.acc.set n.toNat (f (k.getAcc n)) n.isLt }

/-- The full/empty state of a register of the issuing slot or its core. -/
def State.regState (s : State) : RegRef → RegSt
  | .x r => s.me.xState r
  | .v r => s.me.vState r
  | .acc n => (s.here.getAcc n).reg

/-- Sets the full/empty state of a register of a slot or its core. -/
def State.markReg (s : State) (c slot : Nat) (r : RegRef) (g : RegSt) : State :=
  match r with
  | .x r => s.modSlot c slot fun t => t.markX r g
  | .v r => s.modSlot c slot fun t => t.markV r g
  | .acc n => s.modCore c fun k => k.modAcc n fun a => { a with reg := g }

/-- The register code of R48: class in [6:5], number in [4:0]. -/
def regCode : RegRef → Nat
  | .x r => r.toNat
  | .v r => 32 + r.toNat
  | .acc n => 64 + n.toNat

/-- The bit of `wfetrap` that stands for a register (R53). -/
def trapBit : RegRef → Nat
  | .x r => r.toNat
  | .v r => 32 + r.toNat
  | .acc n => 48 + n.toNat

/-- Reads an x register of the issuing slot. -/
def State.x (s : State) (r : BitVec 5) : Word := s.me.getX r

/-- Reads a v register of the issuing slot. -/
def State.v (s : State) (r : BitVec 4) : VWord := s.me.getV r

/-- Writes an x register of the issuing slot, FULL (R47). -/
def State.setX (s : State) (r : BitVec 5) (w : Word) : State := s.modMe fun t => t.setX r w

/-- Writes a v register of the issuing slot, FULL (R47). -/
def State.setV (s : State) (r : BitVec 4) (w : VWord) : State := s.modMe fun t => t.setV r w

/-- Updates the custom CSRs of the issuing slot. -/
def State.modU (s : State) (f : UCsrs → UCsrs) : State := s.modMe fun t => { t with u := f t.u }

/-- Sets STATUS and EP of `wchst` (R113). -/
def Slot.chStatus (t : Slot) (status ep : Nat) : Slot :=
  { t with u := { t.u with wchst := setField (setField t.u.wchst 0 4 status) 8 8 ep } }

/-! ### The wait-for graph's nodes (R230, R231) -/

/-- The endpoint whose receive will write a register, if a receive is its producer. -/
def Slot.receiveOf (t : Slot) : RegRef → Option Nat
  | .x r => match (t.xState r).prod with | some (.receive ch) => some ch | _ => none
  | .v r => match (t.vState r).prod with | some (.receive ch) => some ch | _ => none
  | .acc _ => none

/-- Whether an x or v register is FULL. -/
def Slot.isFull (t : Slot) : RegRef → Bool
  | .x r => (t.xState r).fe == .full
  | .v r => (t.vState r).fe == .full
  | .acc _ => false

/-- The receive behind which a receive of an endpoint waits (R110): the outstanding one of the endpoint, or the oldest of eight. -/
def Slot.recvAhead (t : Slot) (ch : Nat) : Option Recv :=
  match t.recvs.find? fun r => r.ch == ch with
  | some r => some r
  | none => if 8 ≤ t.recvs.length then t.recvs.head? else none

/-- The edge of a receive that waits behind another one (R230). -/
def Slot.behindKey (t : Slot) (ch : Nat) : Option (Nat × Nat) := (t.recvAhead ch).map fun r => (2, r.ch)

/-- What makes a slot a node of the wait-for graph: the kind of its wait, coded as in R239, and the endpoint it waits on (R230).
None for a slot that is no node. Where what the instruction waited for has come, and it would now wait for something else, that is the
edge. -/
def Slot.nodeKey (t : Slot) : Option (Nat × Nat) :=
  if t.st = .blocked ∧ t.hold = false then
    match t.wait with
    | none => none
    | some w =>
      match w.kind with
      | .send ch .offered => some (0, ch)
      | .source r more dst =>
        match (r :: more).findSome? t.receiveOf with
        | some ch => some (1, ch)
        | none => if (r :: more).all t.isFull then (dst.bind t.receiveOf).map fun ch => (1, ch) else none
      | .dest r ch =>
        match t.receiveOf r with
        | some ch => some (1, ch)
        | none => ch.bind t.behindKey
      | .feWait r => (t.receiveOf r).map fun ch => (1, ch)
      | .behind ch _ => t.behindKey ch
      | .altWait _ _ => some (3, 256)
      | _ => none
  else none

/-- A changed slot, with its block sequence number raised and its marks cleared if it became a node, stopped being one, or its
edge changed (R231, R232). -/
def Slot.renode (old new : Slot) : Slot :=
  if old.nodeKey = new.nodeKey then new else { new with bseq := new.bseq + 1, marks := [] }

/-! ### Completing and blocking (R51, R72) -/

/-- Ends the wait of a slot, if it has one. -/
def Slot.endWait (t : Slot) : Slot :=
  match t.wait with
  | none => t
  | some _ => Slot.renode t { t with st := .ready, wait := none, issued := none }

/-- The instruction completes and the next one follows it. -/
def Slot.retire (t : Slot) : Slot := { t.endWait with pc := t.pc + 4 }

/-- The issuing slot's instruction completes. -/
def State.retire (s : State) : State := s.modMe Slot.retire

/-- The issuing slot's instruction completes and goes on at an address. -/
def State.goto (s : State) (pc : Word) : State := s.modMe fun t => { t.endWait with pc := pc }

/-- What a blocked or parked slot waits for. -/
def Slot.waitKind (t : Slot) : Option WaitKind :=
  match t.wait with
  | some w => some w.kind
  | none => none

/-- LIMIT of `wtmo` (R52). -/
def Slot.limit (t : Slot) : Nat := field t.u.wtmo 0 40

/-- TRAP of `wtmo` (R52). -/
def Slot.limitTraps (t : Slot) : Bool := bitAt t.u.wtmo 63

/-- Whether a wait reaches the `wtmo` limit (R51); `pfence`, `stop` and the waits marked unlimited never do. -/
def WaitKind.limited : WaitKind → Bool
  | .unlimited => false
  | .send _ (.release _) => false
  | .send _ .withdrawing => false
  | .mma tile => tile
  | .wgdata _ _ _ => false
  | .resumed => false
  | _ => true

/-- A slot blocked on a wait: a wait of the same instruction keeps its start and its number (R51). -/
def Slot.blockedOn (t : Slot) (k : WaitKind) (cycle serial : Nat) : Slot :=
  match t.wait with
  | some w => Slot.renode t { t with st := .blocked, wait := some { w with kind := k } }
  | none => Slot.renode t { t with st := .blocked, wait := some { kind := k, since := cycle, serial := serial } }

/-- The probe period of a die (R238). -/
def State.probePeriod (s : State) (c : Nat) : Nat := (s.die (dieOf c)).probeCfg

/-- When the next probe of a wait is due (R232): a period after the wait's latest, or after its start, also where the slot's block sequence
number has changed within the wait, which the rule leaves open: the model's choice (log 92). -/
def Slot.probeDue (t : Slot) (w : Wait) (period : Nat) : Nat :=
  match t.lastProbe with
  | some l => (if w.since ≤ l then l else w.since) + period
  | none => w.since + period

/-- Starts the probe timer of a slot that is a node, unless it will fire by the cycle in which its next probe is due (R232): a probe that
is overdue comes in the next cycle. -/
def State.armProbe (s : State) (c i : Nat) : State :=
  let t := s.slot c i
  match t.wait with
  | none => s
  | some w =>
    let e := Instr.probeTimer c i w.serial
    let due := max (t.probeDue w (s.probePeriod c)) (s.cycle + 1)
    if t.nodeKey.isNone ∨ s.probePeriod c = 0 ∨ s.agenda.any (fun d => d.act == .event e && decide (d.cycle ≤ due)) then s
    else s.at due e

/-- Updates a slot that may be a node of the wait-for graph: its block sequence number follows its edge (R231) and its probe timer
runs (R232). -/
def State.modNode (s : State) (c i : Nat) (f : Slot → Slot) : State :=
  (s.modSlot c i fun t => t.renode (f t)).armProbe c i

/-- What follows when a slot is blocked: a node starts its probe timer (R232), and a wait at its limit meets it after this
sample (R51). -/
def State.watch (s : State) (c i : Nat) (first : Bool) : State :=
  let t := s.slot c i
  match t.wait with
  | none => s
  | some w =>
    let s := if first then s.armProbe c i else s
    let s := if w.kind.limited ∧ t.limit ≠ 0 ∧ t.hold = false ∧ w.since + t.limit ≤ s.cycle then
        s.schedule s.cycle 4 (.event (.wtmoLimit c i w.serial)) else s
    if w.kind = .wrsSto ∧ t.hold = false ∧ w.since + 1024 ≤ s.cycle then
      s.schedule s.cycle 4 (.event (.wrsStoTimeout c i w.serial)) else s

/-- The issuing slot's instruction does not complete: the slot is BLOCKED and retests at its next issue cycle (R72). -/
def State.block (s : State) (k : WaitKind) : State :=
  let old := s.me.nodeKey
  let (n, s) := s.fresh
  let s := s.modMe fun t => t.blockedOn k s.cycle n
  s.watch s.curCore s.curSlot (s.me.nodeKey ≠ old)

/-! ### Wakes (R56, R57) -/

/-- A slot that leaves PARKED: the `park` completes (R56, R72). -/
def Slot.unparked (t : Slot) : Slot := { t.endWait with st := .ready, pc := t.pc + 4 }

/-- A slot whose PAGE or FAULTED has been ended goes on once it is not held and its record is posted: it may issue from the next cycle on
(R341, R348; log 90). -/
def Slot.settled (t : Slot) (cycle : Nat) : Slot :=
  if t.leaving ∧ t.hold = false ∧ (if t.st = .page then t.pendFault.isNone else t.pendTrap.isNone) then
    { t with
      st := .ready
      leaving := false
      issueFrom := cycle + 1 }
  else t

/-- A slot that a wake of a cycle releases or whose token it sets (R57): a released slot may issue from the next cycle on (R56). A held
PARKED slot gets its token only, which ends its `park` at the release; the wait of a held one on a page ends at the release too (log 64). -/
def Slot.woken (t : Slot) (cycle : Nat) : Slot :=
  match t.st, t.hold with
  | .page, _ => { t with leaving := true }.settled cycle
  | .parked, false => { t.unparked with issueFrom := cycle + 1 }
  | _, _ => { t with token := true }

/-- A wake reaches a slot: a slot with no process, but for the service slot, ignores it (R57). -/
def State.wake (s : State) (c i : Nat) : State :=
  if i = 15 ∨ (s.slot c i).pid.isSome then s.modSlot c i fun t => t.woken s.cycle else s

/-! ### Alarms and records -/

/-- An alarm's entries in the security processor's registers (R420, R422). -/
def State.alarmLog (s : State) (code cls : Nat) : State :=
  s.modSec fun x => { x with
    alcount := if x.alcount = BitVec.allOnes 32 then x.alcount else x.alcount + 1
    lastAlarm := cls
    allast := BitVec.ofNat 64 (code + cls * 256 + (s.clock 0).toNat % 2 ^ 48 * 2 ^ 16) }

/-- Appends a record to a ring of `cap` records whose indexes count modulo `2 × cap`; a full ring drops it and counts. -/
def Ring.push (r : Ring) (cap : Nat) (v : BitVec 2048) : Ring :=
  if (r.tail + 2 * cap - r.head) % (2 * cap) = cap then
    { r with ovf := if r.ovf = BitVec.allOnes 32 then r.ovf else r.ovf + 1 }
  else { r with tail := (r.tail + 1) % (2 * cap), recs := KMap.put r.recs (r.tail % cap) v }

/-- Whether a ring is full. -/
def Ring.full (r : Ring) (cap : Nat) : Bool := (r.tail + 2 * cap - r.head) % (2 * cap) == cap

/-- The KIND of a chaff record (R102). -/
def DepKind.code : DepKind → Nat
  | .store => 0
  | .atomic _ => 1
  | .wake => 2
  | .gleaner _ _ => 3
  | .drain _ => 4

/-- Posts a chaff record for a deposit at a die (R101, R102). -/
def State.chaff (s : State) (d : Dep) (reason die : Nat) : State :=
  let target := if d.global then 0 else s.wslotLow d.target (if d.kind = .wake then d.targetSlot else 0)
  let size := if d.kind = .wake then 0 else d.size
  let v := reason + d.kind.code * 2 ^ 8 + size * 2 ^ 16 + s.wslotLow d.core d.slot * 2 ^ 32 + d.addr.toNat * 2 ^ 64
    + target * 2 ^ 128 + d.asid * 2 ^ 160 + (s.clock die).toNat * 2 ^ 192
  s.modDie die fun x => { x with chaff := x.chaff.push 256 (BitVec.ofNat 2048 v) }

/-- The words of a fault record but for the clock (R348). -/
def FaultRec.word (r : FaultRec) : Nat :=
  r.source + r.cause * 2 ^ 24 + r.pid * 2 ^ 32 + r.sid * 2 ^ 64 + r.asid * 2 ^ 76 + r.kind * 2 ^ 96 + r.va.toNat * 2 ^ 128

/-- Appends a fault record to a die's ring and wakes the slot that FLT_NOTIFY names (R347, R348). -/
def State.pushFault (s : State) (die : Nat) (r : FaultRec) : State :=
  let v := r.word + (s.clock die).toNat * 2 ^ 192
  let s := s.modDie die fun x => { x with flt := x.flt.push 64 (BitVec.ofNat 2048 v) }
  let n := (s.die die).fltNotify
  if bitAt n 15 then s.wake (coreAt die (field n 8 5) (field n 4 4)) 15 else s

/-- Posts a fault record of a slot, or leaves it pending while the ring is full (R348). -/
def State.postFault (s : State) (c i : Nat) (r : FaultRec) : State :=
  if (s.die (dieOf c)).flt.full 64 then s.modSlot c i fun t => { t with pendFault := some r }
  else (s.modSlot c i fun t => { t with pendFault := none }.settled s.cycle).pushFault (dieOf c) r

/-! ### Traps and returns (R336 to R343) -/

/-- MODE as records code it (R339). -/
def modeCode : Mode → Nat
  | .u => 0
  | .s => 1
  | .m => 3

/-- A mode from its code; 10 stands for no mode and reads as U. -/
def modeOf (n : Nat) : Mode := if n = 3 then .m else if n = 1 then .s else .u

/-- Posts a trap record, or leaves it pending while the queue is full; each posting wakes slot 15 (R341). -/
def State.postTrap (s : State) (c : Nat) (r : TrapRec) : State :=
  if (s.core c).trapq.length < 16 then
    ((s.modCore c fun k => { k with trapq := k.trapq ++ [r] }).modSlot c r.slot fun t => { t with pendTrap := none }.settled s.cycle).wake c 15
  else s.modSlot c r.slot fun t => { t with pendTrap := some r }

/-- A slot whose instruction traps (R336): FAULTED, its reservation lost. -/
def Slot.faulted (t : Slot) : Slot := { t.endWait with st := .faulted, resv := none, leaving := false }

/-- The record of a trap of a slot in 0 to 14 (R337, R339); its word is 0 for cause 1. -/
def State.trapRecord (s : State) (c i cause : Nat) (word : BitVec 32) (tval extra : Word) : TrapRec :=
  let t := s.slot c i
  { slot := i, mode := t.mode, tgt := !(decide (t.mode ≠ .m) && bitAt (s.slot c 15).c.medeleg cause), cause := cause,
    word := if cause = 1 then 0 else word, pc := t.pc, tval := tval, extra := extra }

/-- A trap of a slot in 0 to 14: it becomes FAULTED and its record goes to the queue (R336, R337). -/
def State.userTrap (s : State) (c i cause : Nat) (word : BitVec 32) (tval extra : Word) : State :=
  (s.modSlot c i Slot.faulted).postTrap c (s.trapRecord c i cause word tval extra)

/-- A trap of a slot in 0 to 14 in a cycle in which it does not issue: its record is posted, and slot 15 woken, at the end of the cycle
(R73 step 3). -/
def State.userTrapAtEnd (s : State) (c i cause : Nat) (word : BitVec 32) (tval extra : Word) : State :=
  let r := s.trapRecord c i cause word tval extra
  (s.modSlot c i fun t => { t.faulted with pendTrap := some r }).atEnd (.trapRecordPendingPost c)

/-- Every plane operation in which some cores take part, and that has not ended at every participant, ends FAULT as they halt, once their
Threshers have completed what is in flight (R387). -/
def State.haltPlanes (s : State) (cores : Nat → Bool) : State :=
  let stops (o : PlaneOp) : Bool := (o.ranks.any fun r => cores r.2.core) && o.ranks.any fun r => !r.2.ended
  let ops := s.planes.filter fun p => stops p.2
  ops.foldl (fun s o => s.at s.cycle (.thresherFault o.1)) { s with
    planes := s.planes.map fun p => if stops p.2 then (p.1, { p.2 with halting := true }) else p }

/-- A core halts: no slot issues again, and its plane operations end FAULT (R343, R387). -/
def State.haltCore (s : State) (c : Nat) : State :=
  ((s.modCore c fun k => { k with halted := true }).alarmLog 1 1).haltPlanes (· == c)

/-- The S-mode entry of slot 15 (R342): sepc, scause and stval are written, SPIE takes SIE, SIE clears, SPP takes the mode. -/
def Slot.enterS (t : Slot) (cause : Nat) (tval : Word) : Slot :=
  let m := setField (setField (setField t.c.mstatus 5 1 (field t.c.mstatus 1 1)) 1 1 0) 8 1 (bit (t.mode == .s))
  { t.endWait with
      st := .ready, resv := none, mode := .s, pc := t.c.stvec,
      c := { t.c with mstatus := m, sepc := t.pc, scause := BitVec.ofNat 64 cause, stval := tval } }

/-- The M-mode entry of slot 15 (R342): mepc, mcause and mtval are written, MPIE takes MIE, MIE clears, MPP takes the mode. -/
def Slot.enterM (t : Slot) (cause : Nat) (tval : Word) : Slot :=
  let m := setField (setField (setField t.c.mstatus 7 1 (field t.c.mstatus 3 1)) 3 1 0) 11 2 (modeCode t.mode)
  { t.endWait with
      st := .ready, resv := none, mode := .m, pc := t.c.mtvec,
      c := { t.c with mstatus := m, mepc := t.pc, mcause := BitVec.ofNat 64 cause, mtval := tval } }

/-- A trap of slot 15 (R342, R343). -/
def State.serviceTrap (s : State) (c cause : Nat) (tval : Word) : State :=
  let t := s.slot c 15
  if t.mode = .s ∧ bitAt t.c.medeleg cause ∧ bitAt t.c.mstatus 1 then s.modSlot c 15 fun t => t.enterS cause tval
  else if bitAt t.c.mstatus 3 then s.modSlot c 15 fun t => t.enterM cause tval
  else s.haltCore c

/-- Takes a trap of a slot, as the instruction it executes (R336, R342). -/
def State.trapAt (s : State) (c i cause : Nat) (tval extra : Word) : State :=
  if i = 15 then s.serviceTrap c cause tval else s.userTrap c i cause s.curWord tval extra

/-- Takes a trap of the issuing slot. -/
def State.trap (s : State) (cause : Nat) (tval : Word) (extra : Word := 0) : State :=
  s.trapAt s.curCore s.curSlot cause tval extra

/-- The illegal-instruction trap: tval is the instruction word (R25). -/
def State.illegal (s : State) : State := s.trap 2 (s.curWord.setWidth 64)

/-- The return of `mret` (R45): MIE takes MPIE, MPIE is set, the mode is MPP, MPP becomes U, MPRV clears below M. With MPP = U slot 15
goes on in U-mode: the model's choice (log 77). -/
def Slot.returnM (t : Slot) : Slot :=
  let ms := t.c.mstatus
  let back := modeOf (field ms 11 2)
  let m := setField (setField (setField ms 3 1 (field ms 7 1)) 7 1 1) 11 2 0
  { t.endWait with mode := back, pc := t.c.mepc, c := { t.c with mstatus := if back = .m then m else setField m 17 1 0 } }

/-- The return of `sret` (R45): SIE takes SPIE, SPIE is set, the mode is SPP, SPP becomes U, MPRV clears. -/
def Slot.returnS (t : Slot) : Slot :=
  let ms := t.c.mstatus
  let back := if field ms 8 1 = 1 then Mode.s else Mode.u
  let m := setField (setField (setField (setField ms 1 1 (field ms 5 1)) 5 1 1) 8 1 0) 17 1 0
  { t.endWait with mode := back, pc := t.c.sepc, c := { t.c with mstatus := m } }

/-! ### Scopes, accesses and what waits for them (R59, R150, R153) -/

/-- The bit of a path in a path mask (R151). -/
def Path.index : Path → Nat
  | .loc => 0
  | .glb => 1
  | .dep => 2
  | .eng => 3
  | .mx => 4

/-- Whether a path stands in a path mask. -/
def Path.inMask (p : Path) (m : BitVec 5) : Bool := bitAt m p.index

/-- The smallest scope that holds two cores, as this panel numbers them (R59): DOMAIN where one of them is another panel's. -/
def coreScope (a b : Nat) : Scope :=
  if a = b then .core else if isForeign a ∨ isForeign b then .domain else if dieOf a = dieOf b then .die else .panel

/-- The accesses of a slot on some paths that lie within a scope. -/
def Slot.accsWithin (t : Slot) (mask : BitVec 5) (sc : Scope) : List Nat :=
  (t.accs.filter fun a => a.path.inMask mask && a.scope.within sc).map (·.id)

/-- Every path (R13). -/
def allPaths : BitVec 5 := 31#5

/-- Adds an access to a slot. -/
def State.addAccess (s : State) (c i : Nat) (p : Path) (sc : Scope) (write : Bool) : Nat × State :=
  let (n, s) := s.fresh
  (n, s.modSlot c i fun t => { t with accs := t.accs ++ [{ id := n, path := p, scope := sc, write := write }] })

/-- A fence that no longer waits for an access; a fence that waits for nothing is clear (R59). -/
def Fence.without (f : Fence) (id : Nat) : Option Fence :=
  match f.awaited.filter (· != id) with
  | [] => none
  | l => some { f with awaited := l }

/-- A slot that knows one of its accesses to be performed. -/
def Slot.forget (t : Slot) (id : Nat) : Slot :=
  { t with
           accs := t.accs.filter (·.id != id), aqs := t.aqs.filter (· != id), fence := t.fence.bind (·.without id),
           wbar := t.wbar.map fun w => (w.1, w.2.1, w.2.2.filter (· != id)) }

/-- A deposit whose release no longer waits for an access. -/
def Dep.without (d : Dep) (id : Nat) : Dep := { d with awaited := d.awaited.filter (· != id) }

/-- Deposits whose release waited for an access alone leave (R96). -/
def State.knownOut (s : State) (c id : Nat) : State :=
  let freed := (s.core c).outq.filter fun q => q.2.awaited == [id]
  let s := s.modCore c fun k => { k with
    outq := k.outq.map fun q => (q.1, q.2.without id),
    drains := k.drains.map fun d => { d with amax := d.amax.map (·.without id) } }
  freed.foldl (fun s q => s.at (max s.cycle q.2.ready) (.depositDepart c q.1)) s

/-- The scope of an endpoint of a core. -/
def State.endScope (s : State) (c ch : Nat) : Scope :=
  match s.endpoint c ch with
  | some e => e.scope
  | none => .core

/-- A blocked send whose earlier accesses are all performed leaves (R109). -/
def State.knownSend (s : State) (c i : Nat) : State :=
  match (s.slot c i).wait with
  | some w =>
    match w.kind with
    | .send ch (.release _) =>
      if (s.slot c i).accsWithin allPaths (s.endScope c ch) = [] then s.at s.cycle (.sendRelease c i w.serial) else s
    | _ => s
  | none => s

/-- Barrier arrivals that wait for nothing more are signalled (R118). -/
def State.knownWbar (s : State) (c i : Nat) : State :=
  (s.slot c i).wbar.foldl (fun s w => if w.2.2.isEmpty then s.at s.cycle (.wbarArrivalSignal c i w.1) else s) s

/-- Drains that are done and whose amax update waits for nothing more send it (R284). -/
def State.knownAmax (s : State) (c : Nat) : State :=
  (s.core c).drains.foldl (fun s d =>
    match d.amax with
    | some a => if d.left = 0 ∧ a.awaited.isEmpty then s.at s.cycle (.amaxUpdate c d.id) else s
    | none => s) s

/-- A slot learns that one of its accesses is performed (R153): fences and holds that waited for it clear, and what its releases
held leaves. -/
def State.known (s : State) (c i id : Nat) : State :=
  ((((s.modSlot c i fun t => t.forget id).knownOut c id).knownSend c i).knownWbar c i).knownAmax c

/-- A list of awaited accesses that also waits for a child of one of them, if the child lies within its scope. -/
def spawnIn (parent child : Nat) (csc sc : Scope) (l : List Nat) : List Nat :=
  if l.contains parent ∧ csc.within sc then l ++ [child] else l

/-- An access that work already waited for gives rise to: whatever waits for the parent (a fence, a barrier arrival, a release, the amax
update of a drain) waits for the child, if the child's target lies within its scope (R284, R333). -/
def State.spawn (s : State) (c i parent : Nat) (sc : Scope) : Nat × State :=
  let (n, s) := s.addAccess c i .eng sc false
  let s := s.modSlot c i fun t => { t with
    fence := t.fence.map fun f => { f with awaited := spawnIn parent n sc f.scope f.awaited }
    wbar := t.wbar.map fun w => (w.1, w.2.1, spawnIn parent n sc .die w.2.2) }
  let follow (d : Dep) : Dep := { d with awaited := spawnIn parent n sc (d.rel.getD .core) d.awaited }
  (n, s.modCore c fun k => { k with
    outq := k.outq.map fun q => (q.1, follow q.2)
    drains := k.drains.map fun d => { d with amax := d.amax.map follow } })

/-- Whether a slot's next access on a path to a scope is held: by a pending fence (R59), an `aq` (R41), or an outstanding
receive whose channel's scope holds it (R110). That what an `aq` holds waits without a limit is the model's choice (log 109). -/
def Slot.held (t : Slot) (p : Path) (sc : Scope) : Bool :=
  !t.aqs.isEmpty || (match t.fence with | none => false | some f => p.inMask f.succ && sc.within f.scope)
    || t.recvs.any fun r => sc.within r.scope

/-! ### Memory, poison and reservations -/

/-- Clears the reservations that a write to a range of a core's scratchpad meets (R42). -/
def Core.clearResv (k : Core) (a n : Nat) : Core :=
  if k.slots.toList.any (fun t => t.resv.isSome) then
    { k with slots := vecMap (fun t => match t.resv with
        | some r => if a < r.block + 64 ∧ r.block < a + n then { t with resv := none } else t
        | none => t) k.slots }
  else k

/-- Writes bytes to a core's scratchpad: a word written whole loses its poison (R345), reservations clear (R42). -/
def Core.writeSpad (k : Core) (a : Nat) (bs : List Byte) : Core :=
  let n := bs.length
  let k := { k with
                    spad := k.spad.writeAll a bs,
                    spadPoison := k.spadPoison.filter fun w => !(decide (a ≤ w * 8) && decide (w * 8 + 8 ≤ a + n)) }
  k.clearResv a n

/-- Whether a range of a scratchpad holds a poisoned word (R344, R345). -/
def Core.poisoned (k : Core) (a n : Nat) : Bool := k.spadPoison.any fun w => decide (a < w * 8 + 8) && decide (w * 8 < a + n)

/-- Writes bytes to a scratchpad of the machine. -/
def State.writeSpad (s : State) (c a : Nat) (bs : List Byte) : State := s.modCore c fun k => k.writeSpad a bs

/-- Whether an address lies in HBM (R138). -/
def isHbm (a : Nat) : Bool := bitsOf a 48 8 == 1

/-- The quarters of its granule that a write of `n` bytes at `a` covers whole (R345). -/
def coveredQuarters (granule a n : Nat) : BitVec 4 :=
  (below 4).foldl (fun m q =>
    if a ≤ granule * 256 + q * 64 ∧ granule * 256 + q * 64 + 64 ≤ a + n then setField m q 1 1 else m) 0

/-- The poison of HBM after a write: a granule all of whose quarters have been written whole is clean (R345). -/
def clearPoison (p : KMap (BitVec 4)) (a n : Nat) : KMap (BitVec 4) :=
  (p.map fun g => (g.1, g.2 ||| coveredQuarters g.1 a n)).filter fun g => g.2 != 15

/-- Whether a range of global memory is poisoned. -/
def State.memPoisoned (s : State) (a n : Nat) : Bool :=
  s.poison.any fun g => decide (a < g.1 * 256 + 256) && decide (g.1 * 256 < a + n)

/-- An uncorrectable error: the granule or word it strikes is poisoned (R345). -/
def State.upset (s : State) (u : Upset) : State :=
  match u with
  | .hbm g => { s with poison := KMap.put s.poison g 0 }
  | .spad c w => s.modCore c fun k => { k with spadPoison := if k.spadPoison.contains w then k.spadPoison else w :: k.spadPoison }

/-- Writes bytes to global memory at its home. -/
def State.writeMem (s : State) (a : Nat) (bs : List Byte) : State :=
  { s with mem := s.mem.writeAll a bs, poison := clearPoison s.poison a bs.length }

/-- The bank of a scratchpad offset (R77). -/
def bankOf (a : Nat) : Nat := bitsOf a 6 5

/-- The 64-byte rows that a range touches. -/
def rowsOf (a n : Nat) : List Nat := rangeFrom ((a + n - 1) / 64 - a / 64 + 1) (a / 64)

/-- Presents bank requests of a core and makes the bank cycle they first meet due (R83), after every arrival of that cycle and every start of
an `mma` (R327). -/
def State.present (s : State) (c : Nat) (rs : List BankReq) : State :=
  let s := s.modCore c fun k => { k with bank := k.bank ++ rs }
  rs.foldl (fun s r =>
    if s.agenda.any (fun d => d.act == .event (.bankGrant c) && d.cycle == r.first) then s
    else s.schedule r.first 2 (.event (.bankGrant c))) s

/-- Starts a local access of the issuing slot in the banks: one request for each row, first attempted 4 cycles after issue (R83).
The slot does not issue again before the last grant (R71). -/
def State.startLocal (s : State) (op : LocalOp) (addr : Nat) (rows : List Nat) (data : BitVec 32768) : State :=
  (s.modMe fun t => { t with mem := some { op := op, addr := addr, rows := rows, data := data, poison := false } }).present
    s.curCore (rows.map fun r => { cls := .slot, bank := r % 32, first := s.cycle + 4, act := .slotRow s.curSlot r })

/-- Places in the drain queue of a Thresher (R329). -/
def Core.tileFree (k : Core) : Bool := decide (k.th.tiles.length < 4)

/-- The first cycle from a cycle on at which the throttle level lets a core's tensor unit start an `mma` (R425). -/
def State.tensorCycle (s : State) (c frm : Nat) : Nat :=
  let k := frm - (s.die (dieOf c)).origin
  let r := k / 16 % 8
  if s.sec.pthr ≤ r then frm else frm + ((s.sec.pthr - r) * 16 - k % 16)

/-- Makes the start of the oldest queued `mma` of a core due, from a cycle on, if the tensor unit is free and the drain queue has a
free tile (R277). A start comes before the bank grants of its cycle (R327). -/
def State.kickTensor (s : State) (c frm : Nat) : State :=
  let k := s.core c
  if k.trun.isNone ∧ k.tq ≠ [] ∧ k.tileFree ∧ ¬ s.agenda.any (fun d => d.act == .event (.mmaStart c)) then
    s.schedule (s.tensorCycle c frm) 0 (.event (.mmaStart c))
  else s

/-- The SFU requests of a slot whose results will be discarded (R49). -/
def Core.discardSfu (k : Core) (i : Nat) : Core :=
  { k with sfuq := k.sfuq.map fun q => if q.slot = i then { q with discarded := true } else q }

/-- A loaded value of `n` bytes, with the standard extension. -/
def extend (n : Nat) (signed : Bool) (v : Nat) : Word :=
  if signed then BitVec.ofInt 64 (signedOf (8 * n) v) else BitVec.ofNat 64 (v % 2 ^ (8 * n))

/-- What an atomic writes, from the old value and the operand, both of `n` bytes (R41, R99). -/
def AtomicOp.apply (op : AtomicOp) (n a b : Nat) : Nat :=
  let m := 2 ^ (8 * n)
  let a := a % m
  let b := b % m
  let less := signedOf (8 * n) a < signedOf (8 * n) b
  match op with
  | .swap => b
  | .add => (a + b) % m
  | .xor => a ^^^ b
  | .and => a &&& b
  | .or => a ||| b
  | .min => if less then a else b
  | .max => if less then b else a
  | .minu => if a < b then a else b
  | .maxu => if a < b then b else a

/-- Element `i` of `n` bytes of a vector value. -/
def vecElem (v : VWord) (n i : Nat) : Nat := field v (8 * n * i) (8 * n)

/-! ### Messages (R133, R148, R149) -/

/-- The flits of some bytes of their own. -/
def flitsFor (bytes : Nat) : Nat := max 1 ((bytes + 63) / 64)

/-- The flits that some bytes begin after others of one message (R371). -/
def flitsAfter (before bytes : Nat) : Nat := (before + bytes + 63) / 64 - (before + 63) / 64

/-- The flits a message makes, one for each 64 bytes of its payload (R371, R400). -/
def flitsOf (b : Body) : Nat :=
  match b with
  | .dep d => flitsFor d.size
  | .chan _ (.offer o) => if o.vec then 2 else 1
  | .up _ block _ => flitsAfter (268 * block) 268
  | .header _ _ _ _ _ _ _ flits _ => flits
  | .plane _ _ _ _ _ flits _ => flits
  | _ => 1

/-- The event a message's landing is. -/
def landing (id : Nat) (m : Msg) : Instr :=
  match m.body with
  | .dep d =>
    if d.global then .globalPostedAtomic id
    else match d.kind with
      | .wake => .wakeRLanding id
      | .atomic _ => .postedAtomicLanding id
      | _ => .depositLanding id
  | .raise _ _ _ => .counterRaise id
  | .receipt _ _ _ _ => .landingReceipt id
  | .chan _ c =>
    match c with
    | .offer _ => .offer id
    | .ack _ => .ack id
    | .recv _ => .recv id
    | .withdraw => .withdraw id
    | .withdrawn => .withdrawn id
    | .broken => .broken id
  | .probe _ _ _ => .probe id
  | .reply _ _ _ _ _ _ _ => .reply id
  | .start t => .startRelease (dieOf m.dst) t
  | .eround _ _ _ _ => .eround id
  | .up _ _ _ => .up id
  | .header _ _ _ _ _ _ _ _ _ => .header id
  | .plane _ _ _ _ _ _ _ => .plane id
  | .cancel _ _ => .cancel id
  | .marker g => .sweepMarkerReturn g
  | .loss _ => .lossNotice id
  | .reserve _ _ _ _ _ _ _ _ _ _ _ => .reservationMessage id
  | .commit _ => .reservationMessage id
  | .sower _ _ => .reservationMessage id
  | .sweep _ _ _ => .reservationMessage id
  | .req r => .homeAccess r
  | .rsp r ack => if ack then .storeAck r else .globalLoadData r
  | .hostWrite _ _ _ => .storeAck 0

/-- The rank that stands for every receiver of a HEADER or PLANE, and for the root of a reduction that delivers (R369). A group has at most
65,536 members (R368). -/
def atRoot : Nat := 65536

/-- The bytes of an element of a destination format (R290). -/
def destWidth (dfmt : Nat) : Nat := if dfmt = 0 then 4 else 2

/-- The 64-byte rows of a receiver's destination that a block covers (R369, R382). -/
def State.blockRows (s : State) (op rank block : Nat) : List Nat :=
  match (KMap.get s.planes op).bind fun p => KMap.get p.ranks rank with
  | none => []
  | some r => rowsOf (r.desc.dst + 32 * block * destWidth r.desc.dfmt) (32 * destWidth r.desc.dfmt)

/-- The bank requests of the inbound class that a message's arrival makes, one for each 64-byte row it writes (R83, R161): deposits and
posted atomics to a scratchpad, HEADERs and PLANEs that their last router hands to its Thresher. A request that waits behind the head, or in the
router before the buffer, has its first attempt where it arrives at the core: the model's choice (log 112). -/
def State.inboundReqs (s : State) (id : Nat) (m : Msg) (cycle : Nat) : List BankReq :=
  let rows (op rank block : Nat) : List BankReq :=
    if m.src ≠ m.dst then []
    else (s.blockRows op rank block).map fun r =>
      { cls := .inbound, bank := r % 32, first := cycle, act := .planeRow id r }
  match m.body with
  | .dep d =>
    if d.global || d.kind == .wake then []
    else (rowsOf d.off d.size).map fun r => { cls := .inbound, bank := r % 32, first := cycle, act := .landing id r }
  | .header op _ rank block _ _ _ _ _ => rows op rank block
  | .plane op _ rank block _ _ _ => rows op rank block
  | _ => []

/-- The cycles between a request's reaching its home and its being performed there (R148): 608 for HBM, 28 for a register; the second
tier and the host take longer, by a free value. -/
def serviceCycles (mmio : Bool) (a f : Nat) : Nat :=
  if mmio then 28 else if isHbm a then 608 else 608 + Config.netDelay f

/-- Whether an operation is an access of MMIO. -/
def ReqOp.mmio : ReqOp → Bool
  | .mmioLoad => true
  | .mmioStore _ => true
  | _ => false

/-- Whether an operation is the Gleaner's: the time of its access is open (R302; log 96). -/
def ReqOp.ofGleaner : ReqOp → Bool
  | .gleanRead _ _ _ _ _ => true
  | .gleanWrite _ _ _ => true
  | _ => false

/-- The cycles from a message's arrival to its landing event: a request's service at its home (R148). -/
def State.service (s : State) (m : Msg) : Nat :=
  match m.body with
  | .req id => match KMap.get s.reqs id with
    | some r => if r.op.ofGleaner then 0 else serviceCycles r.op.mmio r.addr s.free
    | none => 0
  | .dep d => if d.global then serviceCycles false d.off s.free else 0
  | _ => 0

/-- The die whose clock the home of an address reads: its own for a register of a Culm die, and D0's for a stack, which has none. -/
def homeDie (a : Nat) : Nat := if bitsOf a 48 8 = 15 ∧ bitsOf a 40 2 = 0 then bitsOf a 35 5 else 0

/-- The request that a message takes to its home. -/
def requestOf (b : Body) (id : Nat) (r : Req) : Bool :=
  match b with
  | .req i => i == id
  | .dep d => d.global && r.core == d.core && r.slot == d.slot && r.acc == d.acc && r.posted.isSome
  | _ => false

/-- The requests, with the reference time at which one that reaches its home at a cycle does so (R405). -/
def State.noteReached (s : State) (m : Msg) (cycle : Nat) : KMap Req :=
  s.reqs.map fun q =>
    if requestOf m.body q.1 q.2 then
      (q.1, { q.2 with reached := some (({ s with cycle := cycle } : State).reference (homeDie q.2.addr)) })
    else q

/-- The second-tier port that serves a request, if one does (R141). -/
def Req.port (r : Req) : Option Nat := if bitsOf r.addr 48 8 = 2 then some (tierPort (bitsOf r.addr 0 42)) else none

/-- The first cycle at which a message's access can be performed behind those that its second-tier port has yet to forward: a port forwards what
reaches it in order (R405). -/
def State.portFloor (s : State) (m : Msg) : Nat :=
  let portOf (id : Nat) : Option Nat := (KMap.get s.reqs id).bind Req.port
  match m.body with
  | .req id =>
    if (portOf id).isNone then 0
    else s.agenda.foldl (fun n d => match d.act with
      | .event (.homeAccess q) => if portOf q = portOf id then max n d.cycle else n
      | _ => n) 0
  | _ => 0

/-- Makes a message's landing due: an inbound write waits for its banks (R84), a request is performed after its service, and in the order of its
port (R405), any other lands as it arrives. -/
def State.arrive (s : State) (id : Nat) (m : Msg) (cycle : Nat) : State :=
  match s.inboundReqs id m cycle with
  | [] => { (s.draw).2.at (max (cycle + s.service m) (s.portFloor m)) (landing id m) with reqs := s.noteReached m cycle }
  | rs => s.present m.dst rs

/-- Whether a request that has reached its home is past its deadline there, or has less than a time left of it (R405). -/
def Req.late (r : Req) (left : Int) : Bool := r.reached.any fun t => decide (r.deadline < t + left)

/-- A group identifier's entry; one never used is at generation 0. -/
def State.group (s : State) (g : Nat) : Group :=
  (KMap.get s.sow.groups g).getD
    { used := false, generation := 0, members := [], op := .add, ticket := 0, index := 0, tree := [], behind := [], awaits := [] }

/-- The core a message works for, where what it carries says so: that of the request it takes or answers, or to which a receipt returns. -/
def State.workOf (s : State) (m : Msg) : Option Nat :=
  match m.body with
  | .req id => (KMap.get s.reqs id).map fun r => r.core
  | .rsp id _ => (KMap.get s.reqs id).map fun r => r.core
  | .receipt _ _ _ _ => some m.dst
  | _ => none

/-- The ticket that a message works for: under PLN that of its group, otherwise that of the core it works for, or that of the core it leaves,
or, from a relay, of the core it goes to. -/
def State.ticketOf (s : State) (m : Msg) : Option Nat :=
  if m.net = .pln then
    let g := s.group (m.generation / 16)
    if g.used then some g.ticket else none
  else if let some c := s.workOf m then (s.core c).ticket
  else if m.src < relayBase then (s.core m.src).ticket
  else if m.dst < relayBase then (s.core m.dst).ticket
  else none

/-- Whether a body travels: a counter raise is on its way within its core alone. -/
def Body.travels : Body → Bool
  | .raise _ _ _ => false
  | _ => true

/-- Extra cycles of a message: none while all that is in flight works for the same sheaf (R148's unloaded panel), otherwise free
(log 2, log 65). -/
def State.congestion (s : State) (m : Msg) : Nat :=
  let own := s.ticketOf m
  if s.net.all (fun p => !p.2.body.travels || s.ticketOf p.2 == own) ∧ s.reqs.all (fun r => (s.core r.2.core).ticket == own) then 0
  else Config.netDelay s.free

/-- The latest expected landing of the messages in flight on a network between two points. -/
def State.lastLanding (s : State) (net : VNet) (src dst : Nat) : Nat :=
  s.net.foldl (fun k p => if p.2.net = net ∧ p.2.src = src ∧ p.2.dst = dst then max k p.2.due else k) 0

/-- Puts a message on a route that it enters `leave` cycles from now; its landing takes `eject` cycles past the route, and is no earlier
than a cycle. -/
def State.launch (s : State) (m : Msg) (r : Route) (leave extra floor : Nat) : State :=
  let (id, s) := s.fresh
  let land := max (s.cycle + leave + Route.cycles r + m.eject + extra) floor
  let m := { m with
    due := land
    route := r.2 }
  let s := { s with net := KMap.put s.net id m }
  match r.2 with
  | [] => s.arrive id m land
  | h :: _ => s.at (land - (Route.cycles r - r.1) - m.eject + 2) (.flitReceive h.1 h.2.1 id)

/-- The first module of a route that is not UP, with the end at which what travels the route reaches it. -/
def State.firstShut (s : State) (r : Route) : Option (Nat × Nat) :=
  (r.2.find? fun m => (s.module m.1).st != .up).map fun m => (m.1, m.2.1)

/-- Whether a module discards what reaches it: it is DOWN without HOLD (R391). -/
def State.discards (s : State) (m : Nat) : Bool := (s.module m).st == .down && !(vecGet (s.module m).ends 0 LinkEnd.reset).hold

/-- The cycles after which a global access that has not completed ends (R405). -/
def accessLimit : Nat := 70000

/-- An end of a module. -/
def Module.end_ (m : Module) (e : Nat) : LinkEnd := vecGet m.ends e LinkEnd.reset

/-- Updates an end of a module. -/
def State.modEnd (s : State) (m e : Nat) (f : LinkEnd → LinkEnd) : State :=
  s.modModule m fun x => { x with ends := vecSet x.ends e (f (x.end_ e)) }

/-- The partner's copies will be refreshed within 1 µs (R390); a Stolon port has none (R408). -/
def State.refreshSoon (s : State) (m : Nat) : State :=
  if portModule ≤ m ∨ s.agenda.any fun d => d.act == .event (.partnerCopyRefresh m) then s
  else ((s.draw).2).at (s.cycle + 1 + Config.serviceTime s.free % 1750) (.partnerCopyRefresh m)

/-- LLOST rises at an end of a module (R403). -/
def State.countLost (s : State) (m e : Nat) : State := (s.modEnd m e fun y => { y with llost := y.llost + 1 }).refreshSoon m

/-- What the Sower or a slot sends without a message of its own in the model travels some routes now (R391): `go` is what follows when every
module is UP, `wait` when the first that is not holds it, and `lost` when that one discards it and counts it (log 57). -/
def State.travels (s : State) (routes : List Route) (go wait lost : State → State) : State :=
  match routes.findSome? s.firstShut with
  | none => go s
  | some (m, e) => if s.discards m then lost (s.countLost m e) else wait s

/-- Sends a message: it leaves `leave` cycles from now and its landing takes `eject` cycles past its route. Messages of one
network between one pair arrive in the order they were sent (R133). -/
def State.send (s : State) (net : VNet) (src dst : Nat) (body : Body) (generation leave eject : Nat) : State :=
  let r := if src = dst then ((0, []) : Route) else route src dst (net = .chn)
  let m : Msg := { net := net, src := src, dst := dst, body := body, generation := generation, crossed := 0, due := 0, eject := eject, route := [] }
  (s.draw).2.launch m r leave (s.congestion m) (s.lastLanding net src dst)

/-- Sends a message of the Gleaner's global accesses: the time it takes is open but for its hops over modules (R302; log 96). -/
def State.sendOpen (s : State) (net : VNet) (src dst : Nat) (body : Body) : State :=
  let m : Msg := { net := net, src := src, dst := dst, body := body, generation := 0, crossed := 0, due := 0, eject := 0, route := [] }
  (s.draw).2.launch m (route src dst false).bare (Config.gleanTime s.free) 0 (s.lastLanding net src dst)

/-- Takes a message out of the networks. -/
def State.drop (s : State) (id : Nat) : State := { s with net := KMap.del s.net id }

/-- The message of a number. -/
def State.msg (s : State) (id : Nat) : Option Msg := KMap.get s.net id

/-- The site of a Stolon port, clockwise from row 0, column 0 (R406). -/
def portSite (p : Nat) : Nat × Nat :=
  if p < 8 then (0, p) else if p < 15 then (p - 7, 7) else if p < 22 then (7, 21 - p) else (28 - p, 0)

/-- Where a message from a point leaves by a port: the relay of a Granary site, or the router of the outward edge of a Culm die, north or south
for rows 0 and 7 and otherwise east or west, in the message's own column or row (R134, R406). -/
def exitPoint (p src : Nat) : Nat :=
  let (r, c) := portSite p
  let d := siteIndex r c
  if siteIsDie r c = false then relayBase + d
  else
    let row := if src < relayBase then rowOf src else 0
    let col := if src < relayBase then colOf src else 0
    if r = 0 then coreAt d 0 col else if r = 7 then coreAt d 31 col else if c = 7 then coreAt d row 15 else coreAt d row 0

/-- The cycles that a Stolon crossing adds in place of any hop count (R407). -/
def stolonCycles : Nat := 1050

/-- The exit port of the first route to a panel, or of the second one (R407). -/
def State.portTo (s : State) (panel : Nat) (second : Bool) : Nat :=
  field ((KMap.get s.host.route panel).getD 0) (if second then 8 else 0) 5

/-- Sends a message for another panel to the exit port that the route table names, over which it leaves the panel (R407; log 1). -/
def State.sendOut (s : State) (m : Msg) (second : Bool) (leave : Nat) : State :=
  let p := s.portTo (panelTo m.dst) second
  let src := nodePoint m.src
  let (k, mods) := route src (exitPoint p src) (m.net = .chn)
  (s.draw).2.launch m (k, mods ++ [(portModule + p, 0, stolonCycles)]) leave (s.congestion m) (s.lastLanding m.net m.src m.dst)

/-- A message leaves the panel: for another one, after a crossing more, or for the host (log 1). -/
def State.depart (s : State) (m : Msg) : State := { s with out := m :: s.out }

/-- Sends a message to a point of this panel or of another one. -/
def State.sendTo (s : State) (net : VNet) (src dst : Nat) (body : Body) (leave eject : Nat) : State :=
  if isForeign dst then
    s.sendOut { net := net, src := src, dst := dst, body := body, generation := 0, crossed := 0, due := s.cycle, eject := 0, route := [] }
      false leave
  else s.send net src dst body 0 leave eject

end Sys2Proof.Machine
end

