-- ==== Sys2Proof/Machine/Mmio.lean ====
section
/-! DEFINITION. The registers of the MMIO map (R142): which exist, what a read returns, and which event a write is. -/

namespace Sys2Proof.Machine

/-- The kind of an MMIO address: 0 Culm die, 1 Granary, 2 security processor (R142). -/
def mmioKind (a : Nat) : Nat := bitsOf a 40 2

/-- The die or stack an MMIO address names (R142). -/
def mmioIndex (a : Nat) : Nat := bitsOf a 35 5

/-- The register offset of an MMIO address (R142). -/
def mmioOff (a : Nat) : Nat := bitsOf a 0 24

/-- The MMIO address of a register of this panel. -/
def mmioAddr (s : State) (kind index off : Nat) : Nat :=
  0x0F * 2 ^ 48 + s.panel * 2 ^ 42 + kind * 2 ^ 40 + index * 2 ^ 35 + off

/-- Dword `i` of a wide register. -/
def dwordOf {n : Nat} (w : BitVec n) (i : Nat) : Word := BitVec.ofNat 64 (w.toNat >>> (64 * i))

/-- A record's dword in a ring of `size`-byte records from `base`, for an offset inside it. -/
def ringRead (r : Ring) (base size off : Nat) : Word :=
  dwordOf ((KMap.get r.recs ((off - base) / size)).getD 0) ((off - base) % size / 8)

/-- Whether a die edge faces the panel edge and has no modules (R132, R390). -/
def edgeFacesOut (die edge : Nat) : Bool :=
  let (r, c) := dieSite die
  edge == 0 && r == 0 || edge == 1 && c == 7 || edge == 2 && r == 7 || edge == 3 && c == 0

/-- The module and register that an offset of a die's module block names, if there are such (R390). -/
def moduleReg (die off : Nat) : Option (Nat × Nat) :=
  let o := off - 0x80000
  let edge := o / 0x2000
  let m := o % 0x2000 / 0x100
  let r := o % 0x100
  if off < 0x80000 ∨ 4 ≤ edge ∨ 0x68 < r ∨ edgeFacesOut die edge ∨ (if edge % 2 = 1 then 18 else 9) ≤ m then none
  else some (die * 72 + edge * 18 + m, r)

/-- The code of a link's state (R391). -/
def LinkSt.code (st : LinkSt) : Nat := match st with | .down => 0 | .up => 1 | .drain => 2 | .held => 3 | .train => 4

/-- LSTAT of a module at its Culm end (R390). -/
def lstat (m : Module) (e : LinkEnd) : Word :=
  let rbuf := if m.st = .train then 0 else e.replay.foldl (fun n r => n + r.flits) 0
  BitVec.ofNat 64 (m.st.code + bit m.width * 16 + bit m.half * 32 + e.result * 256 + rbuf * 2 ^ 32)

/-- A register of a module at its Culm end (R390). The partner's copies are current in HELD, TRAIN and DOWN. -/
def moduleRead (m : Module) (r : Nat) : Word :=
  let e := m.ends[0]
  let p := m.ends[1]
  let fresh := m.st = .held ∨ m.st = .train ∨ m.st = .down
  let c48 (n : Nat) : Word := BitVec.ofNat 64 (n % 2 ^ 48)
  if r = 0x00 then lstat m e
  else if r = 0x08 then BitVec.ofNat 64 (bit e.hold + bit e.width * 4 + bit e.half * 8 + e.cmd.toNat * 16)
  else if r = 0x10 then e.lerr
  else if r = 0x18 then e.lremap
  else if r = 0x20 then c48 e.lretry
  else if r = 0x28 then c48 e.ltxf
  else if r = 0x30 then c48 e.lackf
  else if r = 0x38 then c48 e.lrxf
  else if r = 0x40 then BitVec.ofNat 64 (min e.llost 0xFFFFFFFF)
  else if r = 0x48 then c48 (if fresh then p.ltxf else e.ptxf)
  else if r = 0x50 then c48 (if fresh then p.lackf else e.packf)
  else if r = 0x58 then c48 (if fresh then p.lrxf else e.prxf)
  else if r = 0x60 then (if fresh then p.lerr else e.perr)
  else BitVec.ofNat 64 (min (if fresh then p.llost else e.plost) 0xFFFFFFFF)

/-- A register of a Culm die (R143, R222, R238, R347, R390, R410); none where no map lists the offset. -/
def dieRead (s : State) (d off : Nat) : Option Word :=
  let x := s.die d
  if off % 8 ≠ 0 then none
  else if off = 0x00 then some (BitVec.ofNat 64 s.hshare)
  else if off = 0x08 then some (BitVec.ofNat 64 x.chaff.head)
  else if off = 0x10 then some (BitVec.ofNat 64 x.chaff.tail)
  else if off = 0x18 then some (x.chaff.ovf.setWidth 64)
  else if off = 0x20 then some (x.stale.setWidth 64)
  else if off = 0x28 then some (BitVec.ofNat 64 x.probeCfg)
  else if off = 0x30 then some (BitVec.ofNat 64 x.dlk.head)
  else if off = 0x38 then some (BitVec.ofNat 64 x.dlk.tail)
  else if off = 0x40 then some (x.dlk.ovf.setWidth 64)
  else if off = 0x48 then some x.fltNotify
  else if off = 0x50 then some (BitVec.ofNat 64 x.flt.head)
  else if off = 0x58 then some (BitVec.ofNat 64 x.flt.tail)
  else if off = 0x60 then some (BitVec.ofNat 64 (bit x.inv.isSome))
  else if off = 0x70 then some x.clkRate
  else if off = 0x78 then some x.clkOff
  else if off = 0x80 then some (x.clkGen.setWidth 64)
  else if 0x100 ≤ off ∧ off < 0x140 then
    some (BitVec.ofNat 64 ((below 64).foldl (fun k b => k + bit (s.halted (d * 512 + (off - 0x100) * 8 + b)) * 2 ^ b) 0))
  else if 0x10000 ≤ off ∧ off < 0x12000 then some (ringRead x.chaff 0x10000 32 off)
  else if 0x20000 ≤ off ∧ off < 0x21000 then some ((s.core (d * 512 + (off - 0x20000) / 8)).refuse.setWidth 64)
  else if 0x40000 ≤ off ∧ off < 0x41000 then some (ringRead x.dlk 0x40000 256 off)
  else if 0x50000 ≤ off ∧ off < 0x50800 then some (ringRead x.flt 0x50000 32 off)
  else (moduleReg d off).map fun p => moduleRead (s.module p.1) p.2

/-- Whether a write reaches a register of a Culm die: offsets that are read-only take no store (R142). -/
def dieWritable (d off : Nat) : Bool :=
  [0x08, 0x18, 0x28, 0x30, 0x40, 0x48, 0x50, 0x60, 0x70, 0x78].contains off
    || (decide (0x20000 ≤ off ∧ off < 0x21000) && off % 8 == 0)
    || match moduleReg d off with
       | some p => [0x08, 0x10, 0x18, 0x60].contains p.2
       | none => false

/-- A register of a Stolon port (R408): the state and the flit counters are those of its link, 8, 4 and 2 lanes its three widths. -/
def portRead (p : Port) (m : Module) (r : Nat) : Word :=
  let e := m.ends[0]
  let c48 (n : Nat) : Word := BitVec.ofNat 64 (n % 2 ^ 48)
  if r = 0 then setField p.stat 0 3 m.st.code
  else if r = 8 then p.ctl
  else if r = 0x10 then c48 e.lretry
  else if r = 0x18 then c48 e.ltxf
  else if r = 0x20 then c48 e.lackf
  else if r = 0x28 then c48 e.lrxf
  else BitVec.ofNat 64 (min e.llost 0xFFFFFFFF)

/-- An entry of the ASID table as it reads: USERS counts the sheaves, running or suspended, of this panel's Sower and of others, that hold or
have held cores here (R198). -/
def State.asidEntry (s : State) (a : Nat) : Word :=
  let users := ((s.sow.sheaves ++ s.sow.foreign).filter fun h => h.2.asid == a && h.2.sat).length
  setField ((KMap.get s.sow.asid a).getD 0) 48 13 (min users 0x1FFF)

/-- A Granary register (R198, R210, R212, R407, R408, R413, R424); every listed one belongs to stack 0. -/
def granaryRead (s : State) (stack off : Nat) : Option Word :=
  let w := s.sow
  let h := s.host
  if off % 8 ≠ 0 ∨ stack ≠ 0 then none
  else if off = 0x100000 then some 0
  else if off = 0x100008 then some w.arg
  else if off = 0x100010 then some (BitVec.ofNat 64 (w.result + bit w.busy * 2 ^ 63))
  else if 0x101000 ≤ off ∧ off < 0x102000 then
    let m := (KMap.get w.mailbox ((off - 0x101000) / 16)).getD { lo := 0, hi := 0 }
    some (if off % 16 = 0 then m.lo else m.hi)
  else if 0x104000 ≤ off ∧ off < 0x106000 then some (s.asidEntry ((off - 0x104000) / 8))
  else if off = 0x120000 then some h.sq
  else if off = 0x120008 then some h.cq
  else if off = 0x120010 then some (h.sqtail.setWidth 64)
  else if off = 0x120018 then some (BitVec.ofNat 64 (h.sqdone.toNat * 2 ^ 32 + bit h.sqerr * 2 ^ 31))
  else if off = 0x120020 then some (h.cqseq.setWidth 64)
  else if off = 0x120028 then some (h.cqack.setWidth 64)
  else if off = 0x121000 then some h.hwbase
  else if off = 0x121008 then some h.hwlen
  else if 0x130000 ≤ off ∧ off < 0x131C00 ∧ off % 0x100 ≤ 0x30 then
    let p := (off - 0x130000) / 0x100
    some (portRead (s.port p) (s.module (portModule + p)) (off % 0x100))
  else if 0x132000 ≤ off ∧ off < 0x132200 then some ((KMap.get h.route ((off - 0x132000) / 8)).getD 0)
  else if off = 0x133000 then some h.domcfg
  else none

/-- Whether a store reaches a Granary register. HWBASE and HWLEN take a device store and ignore it (R423). -/
def granaryWritable (stack off : Nat) : Bool :=
  stack == 0 && off % 8 == 0 &&
    ([0x100000, 0x100008, 0x120000, 0x120008, 0x120010, 0x120028, 0x121000, 0x121008, 0x133000].contains off
      || decide (0x101000 ≤ off ∧ off < 0x102000) || decide (0x104000 ≤ off ∧ off < 0x106000)
      || decide (0x130000 ≤ off ∧ off < 0x131C00 ∧ off % 0x100 = 8) || decide (0x132000 ≤ off ∧ off < 0x132200))

/-- A measurement register. The boot ROM alone extends MEAS0, from zero, with the firmware that stage 2 reads: a panel whose stage 1 failed has it
at zero (R417, R418). -/
def Security.measure (x : Security) (k : Nat) : BitVec 512 :=
  if k ≠ 0 then vecGet x.meas k 0 else if x.stage ≤ 1 then 0 else extendMeas 0 Config.firmware

/-- A register of the security processor (R420). -/
def securityRead (s : State) (off : Nat) : Option Word :=
  let x := s.sec
  if off % 8 ≠ 0 then none
  else if off = 0x000 then
    some (BitVec.ofNat 64 (x.stage + x.lastAlarm * 16 + bit (x.sigreq || Config.sigFuse) * 64 + bit x.erased * 128))
  else if off = 0x008 then some 0
  else if 0x100 ≤ off ∧ off < 0x300 then some (dwordOf (x.measure ((off - 0x100) / 64)) (off % 64 / 8))
  else if off = 0x400 then some x.mextAddr
  else if off = 0x408 then some (x.mextLen.setWidth 64)
  else if off = 0x410 then some 0
  else if off = 0x418 then some (BitVec.ofNat 64 (x.mextResult + bit x.mextBusy * 2 ^ 63))
  else if 0x500 ≤ off ∧ off < 0x600 then some (dwordOf (vecGet x.imgKey ((off - 0x500) / 64) 0) (off % 64 / 8))
  else if off = 0x600 then some x.attAddr
  else if off = 0x608 then some 0
  else if off = 0x610 then some (BitVec.ofNat 64 (x.attResult + bit x.attBusy * 2 ^ 63))
  else if off = 0x700 then some (x.alcount.setWidth 64)
  else if off = 0x708 then some x.allast
  else if off = 0x800 then some (x.pcap.setWidth 64)
  else if off = 0x808 then some (BitVec.ofNat 64 x.pthr)
  else none

/-- Whether a store reaches a register of the security processor (R420). -/
def securityWritable (off : Nat) : Bool :=
  [0x008, 0x400, 0x408, 0x410, 0x600, 0x608, 0x700, 0x800].contains off
    || (decide (0x500 ≤ off ∧ off < 0x600) && off % 8 == 0)

/-- What a read of an MMIO address of this panel returns; none where no map lists it (R142). -/
def mmioRead (s : State) (a : Nat) : Option Word :=
  if bitsOf a 24 11 ≠ 0 ∨ (mmioKind a = 2 ∧ mmioIndex a ≠ 0) then none
  else match mmioKind a with
    | 0 => dieRead s (mmioIndex a) (mmioOff a)
    | 1 => granaryRead s (mmioIndex a) (mmioOff a)
    | 2 => securityRead s (mmioOff a)
    | _ => none

/-- Whether a store to an MMIO address reaches a register that takes one (R142). -/
def mmioWritable (a : Nat) : Bool :=
  match mmioKind a with
  | 0 => dieWritable (mmioIndex a) (mmioOff a)
  | 1 => granaryWritable (mmioIndex a) (mmioOff a)
  | 2 => securityWritable (mmioOff a)
  | _ => false

/-- The event that a write of a register is: one of its own where the opcode table has a row for it, otherwise
`REGISTER_WRITE`. -/
def writeEvent (a : Nat) (v : Word) : Instr :=
  let off := mmioOff a
  match mmioKind a with
  | 0 =>
    let d := mmioIndex a
    if off = 0x60 then
      match field v 62 2 with
      | 0 => .invAll d
      | 1 => .invAsid d (field v 48 10)
      | 2 => .invAsidPage d (field v 48 10) (field v 12 36)
      | _ => .invPage d (field v 12 36)
    else if off = 0x70 then .clkrate d v
    else if off = 0x78 then .clkoff d v
    else .registerWrite a v
  | 1 =>
    if 0x104000 ≤ off ∧ off < 0x106000 then .asidEntryWrite ((off - 0x104000) / 8) v
    else if off = 0x120010 then .sqDoorbell v
    else .registerWrite a v
  | _ =>
    if off = 0x008 ∧ bitAt v 0 then .sigreq
    else if off = 0x800 then .pcap v
    else .registerWrite a v

end Sys2Proof.Machine
end

