-- ==== Sys2Proof/Machine/Operands.lean ====
section
/-! DEFINITION. Every operand form: registers read and written under R48 and R49, immediates, effective addresses with their checks
and translation (R38, R39, R78, R82, R86 to R88, R138 to R142), local ranges, deposit addresses (R92, R93), global requests. -/

namespace Sys2Proof.Machine

/-! ### Registers as sources and destinations -/

/-- The tests of sources that trap (R48 steps 1 and 2): a POISONED one with cause 24; an EMPTY one whose `wfetrap` bit is set with
cause 25. -/
def testing (srcs : List RegRef) (s : State) (k : State → State) : State :=
  match srcs.find? fun r => (s.regState r).fe == .poisoned with
  | some r => s.trap 24 (BitVec.ofNat 64 (regCode r))
  | none =>
    match srcs.find? fun r => (s.regState r).fe == .empty && bitAt s.me.u.wfetrap (trapBit r) with
    | some r => s.trap 25 (BitVec.ofNat 64 (regCode r))
    | none => k s

/-- Reads sources (R48): none of them traps, an EMPTY one blocks the slot, otherwise the instruction goes on. `dst` is the destination for
which it then waits (R49). -/
def reading (srcs : List RegRef) (s : State) (k : State → State) (dst : Option RegRef := none) : State :=
  testing srcs s fun s =>
    match srcs.filter fun r => (s.regState r).fe == .empty with
    | r :: more => s.block (.source r more dst)
    | [] => k s

/-- Writes a destination (R49): while its producer is outstanding the slot is BLOCKED. `ch` is the endpoint of a receive (R110). -/
def writing (dst : RegRef) (s : State) (k : State → State) (ch : Option Nat := none) : State :=
  if (s.regState dst).prod.isSome then s.block (.dest dst ch) else k s

/-- An instruction that reads x registers and writes one. -/
def readWrite (srcs : List RegRef) (dst : RegRef) (s : State) (k : State → State) : State :=
  reading srcs s (fun s => writing dst s k) (some dst)

/-- Writes an x register and completes. -/
def State.finishX (s : State) (rd : BitVec 5) (w : Word) : State := (s.setX rd w).retire

/-- Writes a v register and completes. -/
def State.finishV (s : State) (vd : BitVec 4) (w : VWord) : State := (s.setV vd w).retire

/-- An instruction that computes an x register from two. -/
def aluRR (f : Word → Word → Word) (rd rs1 rs2 : BitVec 5) (s : State) : State :=
  readWrite [.x rs1, .x rs2] (.x rd) s fun s => s.finishX rd (f (s.x rs1) (s.x rs2))

/-- An instruction that computes an x register from another one. -/
def aluR (f : Word → Word) (rd rs1 : BitVec 5) (s : State) : State :=
  readWrite [.x rs1] (.x rd) s fun s => s.finishX rd (f (s.x rs1))

/-- A 12-bit immediate, sign-extended (R11). -/
def imm12 (i : BitVec 12) : Word := i.signExtend 64

/-- A branch offset: 12 bits and a zero below them, sign-extended (R11). -/
def immB (i : BitVec 12) : Word := (i ++ 0#1).signExtend 64

/-- A jump offset (R11). -/
def immJ (i : BitVec 20) : Word := (i ++ 0#1).signExtend 64

/-- An upper immediate (R11). -/
def immU (i : BitVec 20) : Word := (i ++ 0#12).signExtend 64

/-- A word's low 32 bits, sign-extended. -/
def sextW (w : Word) : Word := (w.setWidth 32).signExtend 64

/-! ### Local addresses -/

/-- What an access does at an address. -/
inductive Perm where
  | read | write | exec
  deriving DecidableEq, Repr

/-- The size of the local alias (R38). -/
def localSize : Nat := 0x200000

/-- Whether one of the two windows of a `wlocwin` value permits an access to a page (R80). -/
def windowPermits (w : Word) (page : Nat) (p : Perm) : Bool :=
  (below 2).any fun i =>
    let b := 32 * i
    decide (field w b 9 ≤ page) && decide (page ≤ field w (b + 16) 9)
      && bitAt w (b + match p with | .read => 29 | .write => 30 | .exec => 31)

/-- Whether a slot may access a page of the local alias: slots 0 to 14 never the service region (R78), and below M-mode only
through a window (R82). -/
def pageOk (slot : Nat) (mode : Mode) (wlocwin : Word) (p : Perm) (page : Nat) : Bool :=
  (slot == 15 || decide (page < 480)) && (mode == .m || windowPermits wlocwin page p)

/-- The lowest address of a range that fails the local checks (R78, R82), if any; a byte past the local alias fails. -/
def localFault (slot : Nat) (mode : Mode) (wlocwin : Word) (p : Perm) (a n : Nat) : Option Nat :=
  match (rangeFrom ((a + n - 1) / 4096 - a / 4096 + 1) (a / 4096)).find? fun pg =>
      !(decide (pg < 512) && pageOk slot mode wlocwin p pg) with
  | some pg => some (max a (pg * 4096))
  | none => none

/-- The mode in which the issuing slot's data accesses are made: MPP under MPRV in M-mode (R38, R46). -/
def Slot.dataMode (t : Slot) : Mode :=
  if t.mode = .m ∧ bitAt t.c.mstatus 17 then modeOf (field t.c.mstatus 11 2) else t.mode

/-- The issuing slot's check of a local range for the accesses that MPRV moves to another mode (R46). -/
def State.localFault (s : State) (p : Perm) (a n : Nat) : Option Nat :=
  Machine.localFault s.curSlot s.me.dataMode s.me.u.wlocwin p a n

/-- The issuing slot's check of a local range for the instructions that R46 does not name: they keep the slot's own mode. -/
def State.ownFault (s : State) (p : Perm) (a n : Nat) : Option Nat :=
  Machine.localFault s.curSlot s.me.mode s.me.u.wlocwin p a n

/-- The causes of a misaligned access and of an access fault: 4 and 5 for loads, 6 and 7 for stores (R38, R39). -/
def misaligned : Perm → Nat
  | .write => 6
  | _ => 4

/-- See `misaligned`. -/
def accessFault : Perm → Nat
  | .write => 7
  | _ => 5

/-- Whether a range overlaps a range of the Gleaner's scoreboard (R334). -/
def Core.onScoreboard (k : Core) (a n : Nat) : Bool :=
  k.gl.lists.any fun l => l.inFlight.any fun e => e.ranges.any fun r => decide (a < r.1 + r.2) && decide (r.1 < a + n)

/-- Starts an access of the issuing slot on a path, unless a fence, an `aq` or a receive holds it (R59, R41, R110). -/
def gated (p : Path) (sc : Scope) (s : State) (k : State → State) : State :=
  if s.me.held p sc then s.block .unlimited else k s

/-- A local access of the issuing slot to the bytes of some ranges: fences and the range scoreboard hold it (R59, R334);
otherwise it starts in the banks and the slot goes on after it. -/
def localAccess (op : LocalOp) (addr : Nat) (ranges : List (Nat × Nat)) (data : BitVec 32768) (s : State) : State :=
  gated .loc .core s fun s =>
    if ranges.any fun r => s.here.onScoreboard r.1 r.2 then s.block .unlimited
    else (s.startLocal op addr ((ranges.flatMap fun r => rowsOf r.1 r.2).eraseDups) data).retire

/-! ### Fetching (R44, R78, R79, R82, R344) -/

/-- What a fetch at the pc of a slot finds: a word, or the extra field of cause 1. At a pc that is not a multiple of 4 it is the word at that
address, with zeros past the buffered block: the model's choice (log 76). -/
def State.fetchAt (s : State) (c i : Nat) : Except Word (BitVec 32) :=
  let t := s.slot c i
  let a := t.pc.toNat
  if localSize ≤ a then .error 0
  else if (Machine.localFault i t.mode t.u.wlocwin .exec a 4).isSome then .error 0
  else
    match t.fetch with
    | some (b, w) =>
      if b = a / 16 * 16 then .ok (BitVec.ofNat 32 (field w (a % 16 * 8) 32))
      else if (s.core c).poisoned a 4 then .error 2 else .ok (BitVec.ofNat 32 ((s.core c).spad.load 4 a))
    | none => if (s.core c).poisoned a 4 then .error 2 else .ok (BitVec.ofNat 32 ((s.core c).spad.load 4 a))

/-- The slot's fetch buffer after a fetch: the aligned 16-byte block that holds the pc, as read when it was filled (R44). -/
def State.fillFetch (s : State) (c i : Nat) : State :=
  s.modSlot c i fun t =>
    let b := t.pc.toNat / 16 * 16
    if (t.fetch.any fun f => f.1 == b) || (s.core c).poisoned b 16 then t
    else { t with fetch := some (b, BitVec.ofNat 128 ((s.core c).spad.load 16 b)) }

/-- The instruction word at a slot's pc, 0 where it cannot be fetched: what the trap record of a reissued instruction holds. -/
def State.wordAt (s : State) (c i : Nat) : BitVec 32 :=
  match s.fetchAt c i with
  | .ok w => w
  | .error _ => 0

/-- Takes a trap of a slot outside its issue: its record holds the word at its pc and is posted at the end of the cycle (R73). -/
def State.lateTrap (s : State) (c i cause : Nat) (tval extra : Word) : State :=
  let w := s.wordAt c i
  let s := { s with curWord := w }
  if i = 15 then s.serviceTrap c cause tval else s.userTrapAtEnd c i cause w tval extra

/-! ### Global addresses -/

/-- Whether a panel number names a panel of the domain (R138, R407). -/
def State.panelOk (s : State) (q : Nat) : Bool :=
  q == s.panel || bitAt ((KMap.get s.host.route q).getD 0) 15

/-- Whether an HBM offset lies in a pool (R139). -/
def hbmOffsetOk (hshare off : Nat) : Bool :=
  decide (off < hshare * 2 ^ 37)
    || (decide (2 ^ 41 ≤ off) && decide ((off - 2 ^ 41) / 2 ^ 36 < 32) && decide ((off - 2 ^ 41) % 2 ^ 36 < (12 - hshare) * 2 ^ 32))

/-- The home stack of an HBM offset (R140). -/
def hbmHome (hshare off : Nat) : Nat × Nat × Nat :=
  if off < hshare * 2 ^ 37 then
    let g := off >>> 8
    let ch := (g ^^^ (g >>> 10) ^^^ (g >>> 20) ^^^ (g >>> 30)) % 1024
    (ch / 32, ch % 32, (g >>> 10) * 256 + off % 256)
  else
    let st := (off - 2 ^ 41) / 2 ^ 36
    let gl := (off - 2 ^ 41) % 2 ^ 36 / 256
    (st, gl % 32, (hshare * 2 ^ 19 + gl / 32) * 256 + off % 256)

/-- The stack that carries a second-tier port (R141). -/
def portStack (p : Nat) : Nat :=
  ([0, 0, 1, 1, 2, 2, 3, 3, 3, 3, 4, 4, 11, 11, 12, 12, 19, 19, 20, 20, 27, 27, 28, 28, 28, 28, 29, 29, 30, 30, 31,
    31][p]?).getD 0

/-- The expander address behind a port of a second-tier offset (R141). With the port it names each offset once, so that the bytes of the second
tier stand in the state's memory by their physical addresses. -/
def expanderAddr (o : Nat) : Nat := (o >>> 17) * 4096 + o % 4096

/-- Whether the expander that serves a second-tier address returns a read of it poisoned; `f` is a free number (R345, R415). -/
def tierPoisons (f a : Nat) : Bool := Config.tierPoison f (tierPort (bitsOf a 0 42)) (expanderAddr (bitsOf a 0 42))

/-- The core and offset that a physical address with prefix 0x0E names on this panel (R138). -/
def State.scratchAt (s : State) (a : Nat) : Option (Nat × Nat) :=
  if bitsOf a 48 8 = 14 ∧ bitsOf a 42 6 = s.panel ∧ bitsOf a 21 7 = 0 then
    some (coreAt (bitsOf a 37 5) (bitsOf a 32 5) (bitsOf a 28 4), bitsOf a 0 21)
  else none

/-- Whether a physical address of 56 bits can be accessed by a slot in a mode (R38, R138, R139, R141, R142). `size` and `plain` say whether
it is an aligned 8-byte `ld` or `sd`. -/
def State.physOk (s : State) (a : Nat) (p : Perm) (mode : Mode) (size : Nat) (plain : Bool) : Bool :=
  match bitsOf a 48 8 with
  | 1 => s.panelOk (bitsOf a 42 6) && hbmOffsetOk s.hshare (bitsOf a 0 42)
  | 2 => s.panelOk (bitsOf a 42 6) && decide (bitsOf a 0 42 < 3 * 2 ^ 40)
  | 3 => decide (bitsOf a 0 48 < s.host.hwlen.toNat)
  | 15 =>
    mode != .u && s.panelOk (bitsOf a 42 6) && size == 8 && plain
      && (mmioKind a != 2 || mode == .m)
      && (mmioRead s a).isSome && (p != .write || mmioWritable a)
  | _ => false

/-- The smallest scope of a physical target (R59, R150): second tier and host window lie within DOMAIN only. -/
def State.physScope (s : State) (a : Nat) : Scope :=
  match bitsOf a 48 8 with
  | 1 => if bitsOf a 42 6 = s.panel then .panel else .domain
  | 15 => if bitsOf a 42 6 = s.panel then .panel else .domain
  | _ => .domain

/-- The relay or core at which a physical address is served (R140 to R142). -/
def State.homeOf (s : State) (a : Nat) : Nat :=
  match bitsOf a 48 8 with
  | 1 => relayBase + (hbmHome s.hshare (bitsOf a 0 42)).1
  | 2 => relayBase + portStack (tierPort (bitsOf a 0 42))
  | 15 =>
    match mmioKind a with
    | 0 => coreAt (mmioIndex a) 0 0
    | 1 => relayBase + mmioIndex a
    | _ => relayBase
  | _ => relayBase

/-- Whether a TLB entry translates a page for an address space (R86). -/
def TlbEntry.hits (e : TlbEntry) (vpn asid : Nat) : Bool :=
  e.vpn / 512 ^ e.level == vpn / 512 ^ e.level && (e.global || e.asid == asid)

/-- The physical address an entry gives a virtual one (R86). -/
def TlbEntry.phys (e : TlbEntry) (va : Nat) : Nat :=
  e.ppn / 512 ^ e.level * 512 ^ e.level * 4096 + va % (4096 * 512 ^ e.level)

/-- Whether a leaf's permissions and A and D state allow an access (R46, R88): bits R 1, W 2, X 3, U 4, A 6, D 7. -/
def permOk (perm : BitVec 10) (mode : Mode) (sum mxr : Bool) (p : Perm) : Bool :=
  bitAt perm 0 && bitAt perm 6
    && (match mode with | .u => bitAt perm 4 | _ => !bitAt perm 4 || sum)
    && (match p with
        | .write => bitAt perm 2 && bitAt perm 7
        | _ => bitAt perm 1 || (mxr && bitAt perm 3))

/-- How an address of a slot resolves (R38, R86 to R88). -/
inductive Resolved where
  | inLocal (a : Nat)
  | phys (a : Nat)
  | miss (vpn : Nat)
  | page
  | bad
  deriving DecidableEq, Repr

/-- Classifies and translates an effective address of the issuing slot (R38). -/
def State.resolve (s : State) (ea : Word) (p : Perm) : Resolved :=
  let t := s.me
  let mode := t.dataMode
  if ea.toNat < localSize then .inLocal ea.toNat
  else if mode ≠ .m ∧ field t.c.satp 60 4 = 9 then
    if ea ≠ (ea.setWidth 48).signExtend 64 then .bad
    else
      let vpn := field ea 12 36
      let asid := field t.c.satp 44 10
      match s.here.tlb.find? fun e => e.hits vpn asid with
      | none => .miss vpn
      | some e =>
        if permOk e.perm mode (bitAt t.c.mstatus 18) (bitAt t.c.mstatus 19) p then .phys (e.phys (field ea 0 48)) else .page
  else if field ea 56 8 ≠ 0 then .bad
  else .phys ea.toNat

/-- The fault record of a slot's access (R348). -/
def State.faultRec (s : State) (c i : Nat) (va : Word) (kind : Nat) : FaultRec :=
  let t := s.slot c i
  { source := s.wslotLow c i, cause := if kind = 0 then 13 else 15, pid := t.pidWord, sid := (s.core c).sid,
    asid := field t.c.satp 44 10, kind := kind, va := va }

/-- A slot's access finds a page that is absent or forbids it: the slot waits in PAGE and a record is posted (R88). -/
def State.enterPage (s : State) (c i : Nat) (va : Word) (kind : Nat) : State :=
  (s.modSlot c i fun t => { t.endWait with st := .page, leaving := false }).postFault c i (s.faultRec c i va kind)

/-- Makes a refill request, or makes it again: 32 cycles where the second-level TLB hits, otherwise a walk's free time more (R87). -/
def State.askRefill (s : State) (c id vpn asid : Nat) : State :=
  let hit := (s.die (dieOf c)).tlb2.any fun e => e.hits vpn asid
  if hit then s.at (s.cycle + 32) (.tlbRefill c id)
  else (s.draw).2.at (s.cycle + 32 + Config.walkTime s.free) (.tlbRefill c id)

/-- The issuing slot's access misses in the TLB: the slot waits in WALK on the page's one refill request (R87). -/
def State.enterWalk (s : State) (vpn : Nat) (va : Word) (kind : Nat) : State :=
  let t := s.me
  let asid := field t.c.satp 44 10
  let root := field t.c.satp 0 44
  let c := s.curCore
  let s := s.modMe fun t => { t.endWait with st := .walk }
  match s.here.walks.find? fun w => w.vpn == vpn && w.asid == asid && w.root == root with
  | some w =>
    s.modHere fun k => { k with
      walks := k.walks.map fun v => if v.id = w.id then { v with slots := v.slots ++ [(s.curSlot, va, kind)] } else v }
  | none =>
    let (id, s) := s.fresh
    (s.modHere fun k => { k with
      walks := k.walks ++ [{ id := id, vpn := vpn, asid := asid, root := root, slots := [(s.curSlot, va, kind)],
                             met := []
                             cut := none }] }).askRefill c id vpn asid

/-- Resolves an address of a scalar access and goes on with a local or a checked physical address; otherwise the access traps or
the slot waits (R38, R87, R88, R138). `kind` is the record's KIND; `plain` holds for `ld` and `sd`. -/
def withAddress (ea : Word) (p : Perm) (size kind : Nat) (plain : Bool) (s : State)
    (loc : Nat → State → State) (glb : Nat → State → State) : State :=
  match s.resolve ea p with
  | .inLocal a =>
    match s.localFault p a size with
    | some f => s.trap (accessFault p) (BitVec.ofNat 64 f)
    | none => loc a s
  | .phys a => if s.physOk a p s.me.dataMode size plain then glb a s else s.trap (accessFault p) ea
  | .miss vpn => s.enterWalk vpn ea kind
  | .page => s.enterPage s.curCore s.curSlot ea kind
  | .bad => s.trap (accessFault p) ea

/-! ### Global requests (R40, R148, R405) -/

/-- The bytes a request touches. -/
def ReqOp.size : ReqOp → Nat
  | .load n _ => n
  | .store n _ => n
  | .amo n _ _ => n
  | .mmioLoad => 8
  | .mmioStore _ => 8
  | .gleanRead _ _ _ _ n => n
  | .gleanWrite _ _ bs => bs.length

/-- Whether a request writes its target. -/
def ReqOp.writes : ReqOp → Bool
  | .load _ _ => false
  | .mmioLoad => false
  | .gleanRead _ _ _ _ _ => false
  | _ => true

/-- The deadline of a request that leaves a core of a die at a cycle, in the reference time as the die reads it (R405, R410). -/
def State.deadline (s : State) (die cycle : Nat) : Int := ({ s with cycle := cycle } : State).reference die + deadlineTime

/-- Sends a global request of a slot of a core, or of its Gleaner, to the home of a physical address (R148), as an access; its timer
runs from the cycle it leaves the core (R405). The destination, if any, becomes EMPTY with the request as its producer (R40, R47).
A register of the core's own die is reached on the die's register path, by no link (R142, R393). -/
def State.sendReq (s : State) (c i acc : Nat) (op : ReqOp) (a : Nat) (dst : Option RegRef) : State :=
  let (id, s) := s.fresh
  let home := s.homeOf a
  let own := op.mmio && mmioKind a == 0 && mmioIndex a == dieOf c && bitsOf a 42 6 == s.panel
  let s := match dst with
    | some d => s.markReg c i d { fe := .empty, prod := some (.request id) }
    | none => s
  let req : Req := { core := c, slot := i, acc := acc, op := op, addr := a, dst := dst, posted := none, issued := s.cycle,
                     deadline := s.deadline (dieOf c) (s.cycle + 4), reached := none, performed := false, poison := false, value := 0, bytes := [],
                     arrived := false }
  let s := { s with reqs := KMap.put s.reqs id req }
  let s := s.schedule (s.cycle + 4 + accessLimit) 1 (.event (.accessTimeout id))
  if bitsOf a 42 6 ≠ s.panel ∧ bitsOf a 48 8 ≠ 3 then
    s.sendTo .req c (foreignTarget (bitsOf a 42 6) s.panel 0) (.req id) 4 0
  else if op.ofGleaner then s.sendOpen .req c home (.req id)
  else if own then s.at (s.cycle + 28) (.homeAccess id)
  else s.send .req c home (.req id) 0 4 0

/-- A global request of the issuing slot: the access stays with the slot until its response (R148, R153). -/
def State.request (s : State) (op : ReqOp) (a : Nat) (dst : Option RegRef) : State :=
  let (acc, s) := s.addAccess s.curCore s.curSlot .glb (s.physScope a) op.writes
  s.sendReq s.curCore s.curSlot acc op a dst

/-- A global access of the issuing slot, if no fence or receive holds it. -/
def globalAccess (op : ReqOp) (a : Nat) (dst : Option RegRef) (s : State) (k : State → State) : State :=
  gated .glb (s.physScope a) s fun s => k (s.request op a dst)

/-! ### Deposit addresses (R92, R93, R96) -/

/-- Where a deposit goes, or the trap its address raises: cause and tval. -/
abbrev DaResult := Except (Nat × Word) Nat

/-- A word with MARK 0xD (R92). -/
def isDa (da : Word) : Bool := field da 60 4 == 0xD

/-- Relocate (R93): the panel and the core that a U-mode DA names in the sheaf of the issuing core. On a core that holds no sheaf `wsheaf` reads
0 (R196), so that the shape is 1 × 1 × 1 and entry 0 of the die map decides: the model's reading (log 106). -/
def Core.relocate (k : Core) (da : Word) : Option (Nat × Nat) :=
  let d := field da 46 8
  let r := field da 41 5
  let c := field da 37 4
  let (dies, rows, cols) := k.shape
  if dies ≤ d ∨ rows ≤ r ∨ cols ≤ c then none
  else
    let e := (KMap.get k.dmap d).getD 0
    if bitAt e 31 then some (field e 25 6, coreAt (field e 20 5) (field e 15 5 + r) (field e 11 4 + c)) else none

/-- The target (panel, core) of a DA as a mode reads it: relocated in U-mode, absolute on the panel otherwise (R58, R93). -/
def Core.daTarget (k : Core) (panel : Nat) (mode : Mode) (da : Word) : Except Nat (Nat × Nat) :=
  if mode = .u then
    match k.relocate da with
    | some t => .ok t
    | none => .error 30
  else if 31 < field da 46 8 then .error 7
  else .ok (panel, coreAt (field da 46 8) (field da 41 5) (field da 37 4))

/-- The checks of a deposit's DA in a mode and its target (R96): marker and reserved fields, alignment, relocation. -/
def Core.checkDa (k : Core) (panel : Nat) (mode : Mode) (da : Word) (align : Nat) : Except Nat (Nat × Nat) :=
  if field da 60 4 ≠ 0xD ∨ field da 54 6 ≠ 0 ∨ field da 33 4 ≠ 0 ∨ field da 21 5 ≠ 0
      ∨ (bitAt da 26 = false ∧ field da 27 6 ≠ 0) then .error 7
  else if field da 0 21 % align ≠ 0 then .error 6
  else k.daTarget panel mode da

/-- The scope of a target core of a panel (R59). -/
def State.targetScope (s : State) (c panel target : Nat) : Scope :=
  if panel ≠ s.panel then .domain else coreScope c target

/-- The counter a DA counts on, if any (R92). -/
def daCounter (da : Word) : Option Nat := if bitAt da 26 then some (field da 27 6) else none

/-- Places in the outbound queue (R96). -/
def outboundSize : Nat := 32

/-- The places of the outbound queue that are taken: those of the deposits in it, and those kept for the rows that a drain has yet to
enqueue (R282). -/
def Core.outbound (k : Core) : Nat := k.drains.foldl (fun n d => n + d.rows.length) k.outq.length

/-- Puts a deposit of a slot into the outbound queue (R96, R98): it leaves 4 cycles after it is enqueued, or once its release
condition holds. -/
def State.enqueue (s : State) (d : Dep) : State :=
  let (id, s) := s.fresh
  let s := s.modCore d.core fun k => { k with
                                              outq := k.outq ++ [(id, d)],
                                              issuedTotal := k.issuedTotal + bit d.counted }
  if d.awaited.isEmpty then s.at (max s.cycle d.ready) (.depositDepart d.core id) else s

end Sys2Proof.Machine
end

