-- ==== Sys2Proof/Machine/Alu.lean ====
section
/-! DEFINITION. The integer instructions of the opcodes OP-IMM, OP, OP-IMM-32, OP-32, LUI and AUIPC (R11, R16), as RV64IM defines
them. -/

namespace Sys2Proof.Machine

/-- 1 or 0. -/
def boolWord (b : Bool) : Word := if b then 1 else 0

/-- Shifts: the amount is the low 6 bits of the second operand. -/
def shl (a b : Word) : Word := a <<< field b 0 6

/-- See `shl`. -/
def shr (a b : Word) : Word := a >>> field b 0 6

/-- See `shl`; the sign bit fills. -/
def sar (a b : Word) : Word := a.sshiftRight (field b 0 6)

/-- Shifts of the low 32 bits, sign-extended: the amount is the low 5 bits. -/
def shlW (a b : Word) : Word := (a.setWidth 32 <<< field b 0 5).signExtend 64

/-- See `shlW`. -/
def shrW (a b : Word) : Word := (a.setWidth 32 >>> field b 0 5).signExtend 64

/-- See `shlW`; the sign bit fills. -/
def sarW (a b : Word) : Word := ((a.setWidth 32).sshiftRight (field b 0 5)).signExtend 64

/-- The high halves of the products. -/
def mulHigh (a b : Int) : Word := BitVec.ofInt 64 (a * b / 2 ^ 64)

/-- The signed quotient, toward zero: all ones for a zero divisor, the dividend on overflow. -/
def divS {n : Nat} (a b : BitVec n) : BitVec n := if b = 0 then BitVec.allOnes n else BitVec.ofInt n (a.toInt.tdiv b.toInt)

/-- The unsigned quotient: all ones for a zero divisor. -/
def divU {n : Nat} (a b : BitVec n) : BitVec n := if b = 0 then BitVec.allOnes n else a / b

/-- The signed remainder, with the dividend's sign: the dividend for a zero divisor, 0 on overflow. -/
def remS {n : Nat} (a b : BitVec n) : BitVec n := if b = 0 then a else BitVec.ofInt n (a.toInt.tmod b.toInt)

/-- The unsigned remainder: the dividend for a zero divisor. -/
def remU {n : Nat} (a b : BitVec n) : BitVec n := if b = 0 then a else a % b

/-- An operation on the low 32 bits of its operands, sign-extended. -/
def onW (f : BitVec 32 → BitVec 32 → BitVec 32) (a b : Word) : Word := (f (a.setWidth 32) (b.setWidth 32)).signExtend 64

/-- ADDI (R16). -/
def execAddi (rd rs1 : BitVec 5) (imm : BitVec 12) (s : State) : Out :=
  ok (aluR (fun a => a + imm12 imm) rd rs1 s)

/-- SLTI (R16). -/
def execSlti (rd rs1 : BitVec 5) (imm : BitVec 12) (s : State) : Out :=
  ok (aluR (fun a => boolWord (a.slt (imm12 imm))) rd rs1 s)

/-- SLTIU (R16). -/
def execSltiu (rd rs1 : BitVec 5) (imm : BitVec 12) (s : State) : Out :=
  ok (aluR (fun a => boolWord (a.ult (imm12 imm))) rd rs1 s)

/-- XORI (R16). -/
def execXori (rd rs1 : BitVec 5) (imm : BitVec 12) (s : State) : Out :=
  ok (aluR (fun a => a ^^^ imm12 imm) rd rs1 s)

/-- ORI (R16). -/
def execOri (rd rs1 : BitVec 5) (imm : BitVec 12) (s : State) : Out :=
  ok (aluR (fun a => a ||| imm12 imm) rd rs1 s)

/-- ANDI (R16). -/
def execAndi (rd rs1 : BitVec 5) (imm : BitVec 12) (s : State) : Out :=
  ok (aluR (fun a => a &&& imm12 imm) rd rs1 s)

/-- SLLI (R16). -/
def execSlli (rd rs1 : BitVec 5) (sh : BitVec 6) (s : State) : Out :=
  ok (aluR (fun a => shl a (sh.setWidth 64)) rd rs1 s)

/-- SRLI (R16). -/
def execSrli (rd rs1 : BitVec 5) (sh : BitVec 6) (s : State) : Out :=
  ok (aluR (fun a => shr a (sh.setWidth 64)) rd rs1 s)

/-- SRAI (R16). -/
def execSrai (rd rs1 : BitVec 5) (sh : BitVec 6) (s : State) : Out :=
  ok (aluR (fun a => sar a (sh.setWidth 64)) rd rs1 s)

/-- LUI (R11). -/
def execLui (rd : BitVec 5) (imm : BitVec 20) (s : State) : Out := ok (writing (.x rd) s fun s => s.finishX rd (immU imm))

/-- AUIPC (R11). -/
def execAuipc (rd : BitVec 5) (imm : BitVec 20) (s : State) : Out :=
  ok (writing (.x rd) s fun s => s.finishX rd (s.me.pc + immU imm))

/-- ADDIW (R16). -/
def execAddiw (rd rs1 : BitVec 5) (imm : BitVec 12) (s : State) : Out :=
  ok (aluR (fun a => sextW (a + imm12 imm)) rd rs1 s)

/-- SLLIW (R16). -/
def execSlliw (rd rs1 sh : BitVec 5) (s : State) : Out :=
  ok (aluR (fun a => shlW a (sh.setWidth 64)) rd rs1 s)

/-- SRLIW (R16). -/
def execSrliw (rd rs1 sh : BitVec 5) (s : State) : Out :=
  ok (aluR (fun a => shrW a (sh.setWidth 64)) rd rs1 s)

/-- SRAIW (R16). -/
def execSraiw (rd rs1 sh : BitVec 5) (s : State) : Out :=
  ok (aluR (fun a => sarW a (sh.setWidth 64)) rd rs1 s)

/-- ADD (R16). -/
def execAdd (rd rs1 rs2 : BitVec 5) (s : State) : Out := ok (aluRR (fun a b => a + b) rd rs1 rs2 s)

/-- SUB (R16). -/
def execSub (rd rs1 rs2 : BitVec 5) (s : State) : Out := ok (aluRR (fun a b => a - b) rd rs1 rs2 s)

/-- SLL (R16). -/
def execSll (rd rs1 rs2 : BitVec 5) (s : State) : Out := ok (aluRR (shl) rd rs1 rs2 s)

/-- SLT (R16). -/
def execSlt (rd rs1 rs2 : BitVec 5) (s : State) : Out := ok (aluRR (fun a b => boolWord (a.slt b)) rd rs1 rs2 s)

/-- SLTU (R16). -/
def execSltu (rd rs1 rs2 : BitVec 5) (s : State) : Out := ok (aluRR (fun a b => boolWord (a.ult b)) rd rs1 rs2 s)

/-- XOR (R16). -/
def execXor (rd rs1 rs2 : BitVec 5) (s : State) : Out := ok (aluRR (fun a b => a ^^^ b) rd rs1 rs2 s)

/-- SRL (R16). -/
def execSrl (rd rs1 rs2 : BitVec 5) (s : State) : Out := ok (aluRR (shr) rd rs1 rs2 s)

/-- SRA (R16). -/
def execSra (rd rs1 rs2 : BitVec 5) (s : State) : Out := ok (aluRR (sar) rd rs1 rs2 s)

/-- OR (R16). -/
def execOr (rd rs1 rs2 : BitVec 5) (s : State) : Out := ok (aluRR (fun a b => a ||| b) rd rs1 rs2 s)

/-- AND (R16). -/
def execAnd (rd rs1 rs2 : BitVec 5) (s : State) : Out := ok (aluRR (fun a b => a &&& b) rd rs1 rs2 s)

/-- MUL (R16). -/
def execMul (rd rs1 rs2 : BitVec 5) (s : State) : Out := ok (aluRR (fun a b => a * b) rd rs1 rs2 s)

/-- MULH (R16). -/
def execMulh (rd rs1 rs2 : BitVec 5) (s : State) : Out := ok (aluRR (fun a b => mulHigh a.toInt b.toInt) rd rs1 rs2 s)

/-- MULHSU (R16). -/
def execMulhsu (rd rs1 rs2 : BitVec 5) (s : State) : Out := ok (aluRR (fun a b => mulHigh a.toInt b.toNat) rd rs1 rs2 s)

/-- MULHU (R16). -/
def execMulhu (rd rs1 rs2 : BitVec 5) (s : State) : Out := ok (aluRR (fun a b => mulHigh a.toNat b.toNat) rd rs1 rs2 s)

/-- DIV (R16). -/
def execDiv (rd rs1 rs2 : BitVec 5) (s : State) : Out := ok (aluRR (divS) rd rs1 rs2 s)

/-- DIVU (R16). -/
def execDivu (rd rs1 rs2 : BitVec 5) (s : State) : Out := ok (aluRR (divU) rd rs1 rs2 s)

/-- REM (R16). -/
def execRem (rd rs1 rs2 : BitVec 5) (s : State) : Out := ok (aluRR (remS) rd rs1 rs2 s)

/-- REMU (R16). -/
def execRemu (rd rs1 rs2 : BitVec 5) (s : State) : Out := ok (aluRR (remU) rd rs1 rs2 s)

/-- ADDW (R16). -/
def execAddw (rd rs1 rs2 : BitVec 5) (s : State) : Out := ok (aluRR (fun a b => sextW (a + b)) rd rs1 rs2 s)

/-- SUBW (R16). -/
def execSubw (rd rs1 rs2 : BitVec 5) (s : State) : Out := ok (aluRR (fun a b => sextW (a - b)) rd rs1 rs2 s)

/-- SLLW (R16). -/
def execSllw (rd rs1 rs2 : BitVec 5) (s : State) : Out := ok (aluRR (shlW) rd rs1 rs2 s)

/-- SRLW (R16). -/
def execSrlw (rd rs1 rs2 : BitVec 5) (s : State) : Out := ok (aluRR (shrW) rd rs1 rs2 s)

/-- SRAW (R16). -/
def execSraw (rd rs1 rs2 : BitVec 5) (s : State) : Out := ok (aluRR (sarW) rd rs1 rs2 s)

/-- MULW (R16). -/
def execMulw (rd rs1 rs2 : BitVec 5) (s : State) : Out := ok (aluRR (fun a b => sextW (a * b)) rd rs1 rs2 s)

/-- DIVW (R16). -/
def execDivw (rd rs1 rs2 : BitVec 5) (s : State) : Out := ok (aluRR (onW divS) rd rs1 rs2 s)

/-- DIVUW (R16). -/
def execDivuw (rd rs1 rs2 : BitVec 5) (s : State) : Out := ok (aluRR (onW divU) rd rs1 rs2 s)

/-- REMW (R16). -/
def execRemw (rd rs1 rs2 : BitVec 5) (s : State) : Out := ok (aluRR (onW remS) rd rs1 rs2 s)

/-- REMUW (R16). -/
def execRemuw (rd rs1 rs2 : BitVec 5) (s : State) : Out := ok (aluRR (onW remU) rd rs1 rs2 s)

end Sys2Proof.Machine
end

