-- ==== Sys2Proof/Machine/Counter.lean ====
section
/-! DEFINITION. Counters: their raises and their instructions (R104 to R107, R211). -/

namespace Sys2Proof.Machine

/-- The largest value of a counter field. -/
def cntMax : Nat := 0xFFFFFFFF

/-- A sum clamped to a counter field. -/
def saturate (n : Int) : BitVec 32 := BitVec.ofNat 32 (min n.toNat cntMax)

/-- VALUE has reached TARGET (R104). -/
def Counter.reached (c : Counter) : Bool := decide (c.target.toNat ≤ c.value.toNat)

/-- A raise of a counter (R104): VALUE saturates; OVR is set by saturation, and under STRICT by an increase that leaves VALUE above
TARGET. A raise by 0 is none. -/
def Counter.raise (c : Counter) (delta : Int) : Counter :=
  if delta = 0 then c
  else
    let exact := (c.value.toNat : Int) + delta
    let v := saturate exact
    let clamped := decide (exact < 0 ∨ cntMax < exact)
    let beyond := c.strict && decide (c.value.toNat < v.toNat) && decide (c.target.toNat < v.toNat)
    { c with
      value := v
      ovr := c.ovr || clamped || beyond }

/-- The status word of a counter (R104). -/
def Counter.word (c : Counter) (tmo : Bool) : Word :=
  BitVec.ofNat 64 (c.value.toNat * 2 ^ 32 + bit tmo * 128 + bit c.strict * 64 + c.mode.toNat * 16 + bit c.cancel * 8 + bit c.loss * 4
    + bit c.ovr * 2 + bit c.reached)

/-- The amount by which an arrival of some bytes raises a counter in its mode (R97). -/
def Counter.amount (c : Counter) (bytes : Nat) : Nat := if c.mode = 1 then bytes else 1

/-- Whether a valid mailbox that has not fired names a counter of a core of this panel (R210). -/
def State.mailboxNames (s : State) (m : Mailbox) (c n : Nat) : Bool :=
  bitAt m.lo 63 && !bitAt m.lo 61 && field m.lo 24 6 == n && field m.lo 16 6 == s.panel
    && coreAt (field m.hi 51 5) (field m.lo 8 5) (field m.lo 4 4) == c

/-- A mailbox fires (R211): FIRED is set, and its record is launched or slot 15 of the core woken, for which STATUS is 0 (R210). A poisoned record is read as it stands: the
model's choice (log 83). -/
def State.fire (s : State) (i : Nat) (m : Mailbox) (c : Nat) : State :=
  let lo := setField m.lo 61 1 1
  let s := s.modSow fun w => { w with mailbox := KMap.put w.mailbox i { m with lo := if bitAt m.lo 62 then setField lo 48 8 0 else lo } }
  if bitAt m.lo 62 then s.wake c 15
  else
    let (id, s) := s.fresh
    let a := 2 ^ 48 + field m.hi 0 51 % 2 ^ 48
    let record := (below 8).map fun k => BitVec.ofNat 64 (s.mem.load 8 (a / 64 * 64 + 8 * k))
    (s.modSow fun w => { w with inbox := w.inbox ++ [{ id := id, source := .mailbox i, record := record, user := false }] }).now
      (.launchAccept id)

/-- Raises a counter of a core; an arrival or a Gleaner completion that makes it REACHED fires the mailboxes that name it (R211), in rising
order of their index: the model's choice (log 98). -/
def State.raiseBy (s : State) (c n amount : Nat) (fires : Bool) : State :=
  let old := s.counter c n
  let new := old.raise amount
  let s := s.modCounter c n fun _ => new
  if fires ∧ old.reached = false ∧ new.reached then
    (s.sow.mailbox.filter fun m => s.mailboxNames m.2 c n).foldl (fun s m => s.fire m.1 m.2 c) s
  else s

/-- A counted arrival or completion of so many bytes raises a counter of a core (R97, R286). -/
def State.raise (s : State) (c n bytes : Nat) (fires : Bool) : State := s.raiseBy c n ((s.counter c n).amount bytes) fires

/-- COUNTER_RAISE: a counted arrival raises its counter two cycles after the data write (R97). -/
def execCounterRaise (msg : Nat) (s : State) : Out :=
  ok (match s.msg msg with
    | some m =>
      match m.body with
      | .raise c bytes fires => (s.drop msg).raise m.dst c bytes fires
      | _ => s
    | none => s)

/-- CNT_SET (R105). -/
def execCntSet (c : BitVec 6) (rs1 : BitVec 5) (s : State) : Out :=
  ok (reading [.x rs1] s fun s =>
    let v := s.x rs1
    (s.modCounter s.curCore c.toNat fun k => { k with
      value := v.setWidth 32
      target := BitVec.ofNat 32 (field v 32 32)
      ovr := false
      loss := false
      cancel := false }).retire)

/-- CNT_ADD (R105): TARGET takes its sum first, and STRICT compares with the new one (log 19). -/
def execCntAdd (c : BitVec 6) (rs1 : BitVec 5) (s : State) : Out :=
  ok (reading [.x rs1] s fun s =>
    let v := s.x rs1
    (s.modCounter s.curCore c.toNat fun k =>
      { k with target := saturate (k.target.toNat + signedOf 32 (field v 32 32)) }.raise (signedOf 32 (field v 0 32))).retire)

/-- CNT_RD (R105). -/
def execCntRd (rd : BitVec 5) (c : BitVec 6) (s : State) : Out :=
  ok (writing (.x rd) s fun s =>
    let k := s.counter s.curCore c.toNat
    s.finishX rd (BitVec.ofNat 64 (k.target.toNat * 2 ^ 32 + k.value.toNat)))

/-- CNT_POLL (R105). -/
def execCntPoll (rd : BitVec 5) (c : BitVec 6) (s : State) : Out :=
  ok (writing (.x rd) s fun s => s.finishX rd ((s.counter s.curCore c.toNat).word false))

/-- CNT_MODE (R105). -/
def execCntMode (c : BitVec 6) (rs1 : BitVec 5) (s : State) : Out :=
  ok (reading [.x rs1] s fun s =>
    let v := s.x rs1
    if field v 0 2 = 3 then s.retire
    else
      (s.modCounter s.curCore c.toNat fun k => { k with
        mode := v.setWidth 2
        strict := bitAt v 2
        ovr := k.ovr && !bitAt v 3
        loss := k.loss && !bitAt v 3
        cancel := k.cancel && !bitAt v 3 }).retire)

/-- CNT_WAIT, at each sample (R106). -/
def execCntWait (rd : BitVec 5) (c : BitVec 6) (s : State) : Out :=
  ok (writing (.x rd) s fun s =>
    let k := s.counter s.curCore c.toNat
    if k.ovr then s.trap 27 (c.setWidth 64)
    else if k.reached ∨ k.loss ∨ k.cancel then s.finishX rd (k.word false)
    else s.block (.cntWait rd c.toNat))

end Sys2Proof.Machine
end

