-- ==== Sys2Proof/Machine/Translate.lean ====
section
/-! DEFINITION. Translation behind the TLBs: table walks and refills (R86 to R88, R350), `sfence.vma` (R45), the die's
invalidations (R351) and pending fault records (R348). -/

namespace Sys2Proof.Machine

/-! ### Walks (Sv48; R86, R87, R350) -/

/-- How a walk ends: with an entry, a page that is absent, a poisoned table word, or a table address that does not exist. -/
inductive WalkEnd where
  | entry (e : TlbEntry)
  | absent
  | poisoned
  | unreachable
  deriving DecidableEq, Repr

/-- The entry a leaf at a level gives for a page: a leaf at the top level is installed as the 1 GiB part that holds the page. -/
def leafEntry (pte vpn asid level : Nat) (glob : Bool) : TlbEntry :=
  let ppn := bitsOf pte 10 44
  let part := if level = 3 then vpn / 2 ^ 18 % 512 * 2 ^ 18 else 0
  { vpn := vpn, level := min level 2, asid := asid, global := glob, ppn := ppn + part, perm := BitVec.ofNat 10 pte }

/-- The table word at an address, or none where its read meets an uncorrectable error: HBM by its poison, the second tier and the host
as those devices answer (R345, R350). -/
def tableWord (s : State) (a f : Nat) : Option Nat :=
  match bitsOf a 48 8 with
  | 1 => if s.memPoisoned a 8 then none else some (s.mem.load 8 a)
  | 2 => if tierPoisons f a then none else some (s.mem.load 8 a)
  | _ => if Config.hostPoison f then none else some (Config.freeWord f).toNat

/-- A walk from a table at a page number, at a level down to 0 (Sv48: reserved bits, W without R, and misaligned leaves are no
translation). -/
def walkFrom (s : State) (vpn asid : Nat) : Nat → Nat → Bool → WalkEnd
  | 0, _, _ => .absent
  | level + 1, table, glob =>
    let a := table * 4096 + vpn / 512 ^ level % 512 * 8
    if 2 ^ 56 ≤ a ∨ s.physOk a .read .m 8 true = false ∨ bitsOf a 48 8 = 15 then .unreachable
    else
      match tableWord s a (s.free + level) with
      | none => .poisoned
      | some pte =>
        let glob := glob || bitsOf pte 5 1 == 1
        if bitsOf pte 0 1 = 0 ∨ bitsOf pte 1 2 = 2 ∨ bitsOf pte 54 10 ≠ 0 then .absent
        else if bitsOf pte 1 3 = 0 then
          if bitsOf pte 4 1 ≠ 0 ∨ bitsOf pte 6 2 ≠ 0 then .absent else walkFrom s vpn asid level (bitsOf pte 10 44) glob
        else if bitsOf pte 10 44 % 512 ^ level ≠ 0 then .absent
        else .entry (leafEntry pte vpn asid level glob)

/-- Whether two entries translate the same pages for the same address space. -/
def TlbEntry.same (a b : TlbEntry) : Bool :=
  a.level == b.level && a.vpn / 512 ^ a.level == b.vpn / 512 ^ b.level && a.asid == b.asid && a.global == b.global

/-- Installs an entry in a TLB of a size; the oldest leaves (R86). -/
def installTlb (size : Nat) (l : List TlbEntry) (e : TlbEntry) : List TlbEntry :=
  let l := (l.filter fun x => !x.same e) ++ [e]
  l.drop (l.length - size)

/-- The translation service of a die (R87): the second-level TLB, or a walk whose entry it then holds. -/
def State.serve (s : State) (die vpn asid root : Nat) : WalkEnd × State :=
  match (s.die die).tlb2.find? fun e => e.hits vpn asid with
  | some e => (.entry { e with vpn := vpn, ppn := e.ppn }, s)
  | none =>
    let s' := { s with free := s.free + 4 }
    match walkFrom s vpn asid 4 root false with
    | .entry e => (.entry e, s'.modDie die fun d => { d with tlb2 := installTlb 8192 d.tlb2 e })
    | r => (r, s')

/-- Ends the wait of a slot on a refill. -/
def State.endWalk (s : State) (c : Nat) (r : WalkEnd) (w : Nat × Word × Nat) : State :=
  let (i, va, kind) := w
  if (s.slot c i).st ≠ .walk then s
  else
    let cause := if kind = 0 then 5 else 7
    match r with
    | .entry _ => s.modSlot c i fun t => { t with st := .ready }
    | .absent => s.enterPage c i va kind
    | .poisoned => s.lateTrap c i cause va 2
    | .unreachable => s.lateTrap c i cause va 0

/-- Whether an invalidation removes an entry: one that names an address space leaves global entries. -/
def Inval.matchesEntry (n : Inval) (e : TlbEntry) : Bool :=
  (n.asid.all fun a => !e.global && e.asid == a) && n.page.all fun p => e.vpn / 512 ^ e.level == p / 512 ^ e.level

/-- Whether an invalidation since a refill began matches it (R87): by the entry it would install, or by its page where it has none. -/
def Walk.stale (w : Walk) (r : WalkEnd) : Bool :=
  let e := match r with
    | .entry e => e
    | _ => { vpn := w.vpn, level := 0, asid := w.asid, global := false, ppn := 0, perm := 0 }
  w.met.any fun n => n.matchesEntry e

/-- The relays that hold the table words a walk reads, from a table at a page number down. -/
def walkHomes (s : State) (vpn : Nat) : Nat → Nat → List Nat
  | 0, _ => []
  | level + 1, table =>
    let a := table * 4096 + vpn / 512 ^ level % 512 * 8
    let pte := s.mem.load 8 a
    s.homeOf a :: (if bitsOf pte 0 1 = 1 ∧ bitsOf pte 1 3 = 0 then walkHomes s vpn level (bitsOf pte 10 44) else [])

/-- The routes of a walk's reads and of their answers, which a hit in the second-level TLB saves it (R391; log 67). -/
def State.walkRoutes (s : State) (c vpn asid root : Nat) : List Route :=
  if (s.die (dieOf c)).tlb2.any fun e => e.hits vpn asid then []
  else (walkHomes s vpn 4 root).flatMap fun h => [route c h false, route h c false]

/-- What becomes of a walk whose reads leave: they are served, they have to wait until a cycle, or their time is over. -/
inductive WalkTry where
  | go
  | wait (cut : Cut) (cycle : Nat)
  | spent
  deriving DecidableEq, Repr

/-- A walk makes its reads over the modules on their way: the first that is not UP holds them or discards one and counts it (R391). Reads that are not
back 70,000 cycles after they met it end POISONED (R405; log 67). -/
def State.tryWalk (s : State) (c vpn asid root : Nat) (cut : Option Cut) : WalkTry × State :=
  match (s.walkRoutes c vpn asid root).findSome? s.firstShut with
  | none => if cut.any (·.lost) then (.spent, s) else (.go, s)
  | some (m, e) =>
    let due := (cut.map (·.due)).getD (s.cycle + accessLimit)
    if due ≤ s.cycle then (.spent, s)
    else if cut.any (·.lost) then (.wait { due := due, lost := true } due, s)
    else if s.discards m then (.wait { due := due, lost := true } due, s.countLost m e)
    else (.wait { due := due, lost := false } (min due (s.cycle + 1 + Config.walkTime s.free)), (s.draw).2)

/-- TLB_REFILL: a refill becomes visible; one that a matching invalidation has met is made again (R87, R350, R351), and one whose walk
meets a module that is not UP waits, or has lost a read there and ends as a poisoned one (R391, R405; log 67). -/
def execTlbRefill (core walk : Nat) (s : State) : Out :=
  ok (match (s.core core).walks.find? fun w => w.id == walk with
    | none => s
    | some w =>
      let mark (s : State) (f : Walk → Walk) : State :=
        s.modCore core fun k => { k with walks := k.walks.map fun v => if v.id = walk then f v else v }
      let finish (s : State) (r : WalkEnd) : State :=
        if w.stale r then
          (mark s fun v => { v with
            met := []
            cut := none }).askRefill core walk w.vpn w.asid
        else
          let s := s.modCore core fun k => { k with
            walks := k.walks.filter fun v => v.id != walk
            tlb := match r with | .entry e => installTlb 32 k.tlb e | _ => k.tlb }
          w.slots.foldl (fun s x => s.endWalk core r x) s
      match s.tryWalk core w.vpn w.asid w.root w.cut with
      | (.wait cut cycle, s) => (mark s fun v => { v with cut := some cut }).at cycle (.tlbRefill core walk)
      | (.spent, s) => finish s .poisoned
      | (.go, s) =>
        let (r, s') := s.serve (dieOf core) w.vpn w.asid w.root
        if w.stale r then finish s r else finish s' r)

/-! ### Invalidation (R45, R351) -/

/-- Invalidates at a core. -/
def Core.invalidate (k : Core) (n : Inval) : Core :=
  { k with
    tlb := k.tlb.filter fun e => !n.matchesEntry e
    walks := k.walks.map fun w => { w with met := w.met ++ [n] } }

/-- An invalidation written to INV: the matching entries leave the die's second-level TLB and every core's, and BUSY reads 1 until
INV_COMPLETE; a write while BUSY is ignored (R347, R351). -/
def State.invalidateDie (s : State) (d : Nat) (n : Inval) : State :=
  if (s.die d).inv.isSome then s
  else
    let time := Config.serviceTime s.free
    let s := (s.draw).2
    let cores := s.cores.map fun p => if dieOf p.1 = d then (p.1, p.2.invalidate n) else p
    let s := { s with cores := cores }.modDie d fun x => { x with
        tlb2 := x.tlb2.filter fun e => !n.matchesEntry e
        inv := some (bit n.asid.isSome, n.asid.getD 0, n.page.getD 0) }
    s.at (s.cycle + time) (.invComplete d)

/-- INV_ALL (R351). -/
def execInvAll (die : Nat) (s : State) : Out := ok (s.invalidateDie die { asid := none, page := none })

/-- INV_ASID (R351). -/
def execInvAsid (die asid : Nat) (s : State) : Out := ok (s.invalidateDie die { asid := some asid, page := none })

/-- INV_ASID_PAGE (R351). -/
def execInvAsidPage (die asid page : Nat) (s : State) : Out := ok (s.invalidateDie die { asid := some asid, page := some page })

/-- INV_PAGE (R351). -/
def execInvPage (die page : Nat) (s : State) : Out := ok (s.invalidateDie die { asid := none, page := some page })

/-- INV_COMPLETE: BUSY reads 0 again (R351). -/
def execInvComplete (die : Nat) (s : State) : Out := ok (s.modDie die fun x => { x with inv := none })

/-- SFENCE_VMA (R45): once the slot's earlier writes to global memory are performed, the matching entries of the core's TLB are
invalidated. That its wait has no limit is the model's choice (log 109). -/
def execSfenceVma (rs1 rs2 : BitVec 5) (s : State) : Out :=
  ok (if s.me.mode = .u ∨ (s.me.mode = .s ∧ bitAt s.me.c.mstatus 20) then s.illegal
    else reading [.x rs1, .x rs2] s fun s =>
      if s.me.accs.any fun a => a.write then s.block .unlimited
      else
        let n : Inval := { asid := if rs2 = 0 then none else some (field (s.x rs2) 0 10)
                           page := if rs1 = 0 then none else some (field (s.x rs1) 12 36) }
        (s.modHere fun k => k.invalidate n).retire)

/-! ### Pending fault records -/

/-- The fault records that wait at a core, in ascending order of slot: that of the slot's process, unless it came with a restored context and
waits for the release of the slot (R353), after those of processes of the slot that have ended. -/
def Core.pendingFaults (k : Core) : List (Nat × Bool × FaultRec) :=
  (below 16).flatMap fun i =>
    ((k.faults.filter fun p => p.1 == i).map fun p => (i, true, p.2))
      ++ (if (k.slot i).recsHeld then none else (k.slot i).pendFault).toList.map fun r => (i, false, r)

/-- The fault records that wait on a die, in ascending order of core and slot (R348). -/
def State.pendingFaults (s : State) (die : Nat) : List (Nat × Nat × Bool × FaultRec) :=
  (s.cores.filter fun p => dieOf p.1 == die).flatMap fun p => p.2.pendingFaults.map fun r => (p.1, r)

/-- FAULT_RECORD_PENDING_POST: a pending record is posted in a place that has come free; the next follows in the next cycle (R348). -/
def execFaultRecordPendingPost (die : Nat) (s : State) : Out :=
  ok (match s.pendingFaults die with
    | [] => s
    | (c, i, left, r) :: _ =>
      if (s.die die).flt.full 64 then s
      else
        (if left then (s.modCore c fun k => { k with faults := k.faults.erase (i, r) }).pushFault die r else s.postFault c i r).at (s.cycle + 1)
          (.faultRecordPendingPost die))

end Sys2Proof.Machine
end

