-- ==== Sys2Proof/Machine/Glean.lean ====
section
/-! DEFINITION. The work of the Gleaner (R285, R286, R330 to R334): descriptors, their checks, and the parts of an entry, each the
reads and writes of one 64-byte row of its destination. An entry takes its parts up in order (log 30). -/

namespace Sys2Proof.Machine

/-! ### Lists and entries -/

/-- The list of a LID of a core. -/
def State.glist (s : State) (c lid : Nat) : Option GList := (s.core c).gl.lists.find? fun l => l.lid == lid

/-- Updates the Gleaner of a core. -/
def State.modGl (s : State) (c : Nat) (f : Gleaner → Gleaner) : State := s.modCore c fun k => { k with gl := f k.gl }

/-- Updates a list of a core. -/
def State.modList (s : State) (c lid : Nat) (f : GList → GList) : State :=
  s.modGl c fun g => { g with lists := g.lists.map fun l => if l.lid = lid then f l else l }

/-- An entry in flight. -/
def GList.entry (l : GList) (n : Nat) : Option Entry := l.inFlight.find? fun e => e.index == n

/-- Updates an entry in flight. -/
def State.modEntry (s : State) (c lid n : Nat) (f : Entry → Entry) : State :=
  s.modList c lid fun l => { l with inFlight := l.inFlight.map fun e => if e.index = n then f e else e }

/-- Entries in flight at a core (R330). -/
def Gleaner.inFlight (g : Gleaner) : Nat := g.lists.foldl (fun k l => k + l.inFlight.length) 0

/-- Entries of the range scoreboard in use (R334). -/
def Gleaner.ranges (g : Gleaner) : Nat := g.lists.foldl (fun k l => l.inFlight.foldl (fun k e => k + e.ranges.length) k) 0

/-- Whether a list starts no more entries. -/
def GList.closing (l : GList) : Bool := l.ended || l.aborted || l.failed.isSome

/-- The lists in rotation, from the one after the list that was served last (R330): in the order of their `ce.go`, which is that of their
accesses. -/
def Gleaner.rotated (g : Gleaner) : List GList :=
  (g.lists.filter fun l => decide (g.turn < l.access)) ++ g.lists.filter fun l => decide (l.access ≤ g.turn)

/-- Whether a list takes no further entry: it is closing, or a suspend of the sheaf holds it, which does not concern the service slot's
lists (R214). -/
def Gleaner.stands (g : Gleaner) (l : GList) : Bool := l.closing || (g.frozen && l.slot != 15)

/-- Whether a list has work for the Gleaner's turn: a descriptor to read or being read, or an entry that need not wait for earlier ones
(R330). A list whose entry waits under WAIT is passed over, one whose entry waits for a place or for the scoreboard keeps the turn: the model's choice
(log 110). -/
def Gleaner.ready (g : Gleaner) (l : GList) : Bool :=
  !g.stands l && match l.pending with
    | none => true
    | some e => !(e.wait && !l.inFlight.isEmpty)

/-- Whether it is the turn of a list: it is the first one in rotation that has work (R330). -/
def Gleaner.turnOf (g : Gleaner) (lid : Nat) : Bool := (g.rotated.find? g.ready).any fun l => l.lid == lid

/-- Every list of a core looks for work, in rotation (R330). -/
def State.kickGleaner (s : State) (c : Nat) : State :=
  (s.core c).gl.rotated.foldl (fun s l => s.at s.cycle (.gleanerEntryStart c l.lid)) s

/-- A closing list whose entries are complete ends (R289, R333). -/
def State.checkList (s : State) (c lid : Nat) : State :=
  match s.glist c lid with
  | some l => if l.closing ∧ l.inFlight = [] then s.at s.cycle (.gleanerListEnd c lid) else s
  | none => s

/-- The entries not yet started drop out of every wait (R333). -/
def State.dropUnstarted (s : State) (c lid : Nat) : State :=
  match s.glist c lid with
  | none => s
  | some l =>
    let s := match l.pending with
      | some e => s.known c l.slot e.access
      | none => s
    (s.known c l.slot l.access).modList c lid fun l => { l with pending := none }

/-- A list fails with a status at an index, unless it has failed already; no further entry starts (R286, R333). -/
def State.failList (s : State) (c lid st n : Nat) : State :=
  (s.dropUnstarted c lid).modList c lid fun l =>
    { l with failed := match l.failed with | none => some (st, n) | some f => some f }

/-- An entry leaves the entries in flight: its ranges retire and its accesses are known (R153, R334). -/
def State.leaveEntry (s : State) (c lid : Nat) (e : Entry) : State :=
  match s.glist c lid with
  | none => s
  | some l =>
    (s.modList c lid fun l => { l with inFlight := l.inFlight.filter fun x => x.index != e.index }).known c l.slot e.access

/-- Whether an entry awaits none of its own accesses. -/
def Entry.idle (e : Entry) : Bool := !e.reading && !e.writing && e.sent == 0 && e.left == 0

/-- An entry that has failed leaves once the accesses it has made are performed (R153, R333). -/
def State.endDead (s : State) (c lid n : Nat) : State :=
  match (s.glist c lid).bind fun l => l.entry n with
  | some e => if e.dead ∧ e.idle then ((s.leaveEntry c lid e).checkList c lid).kickGleaner c else s
  | none => s

/-- An entry in flight ends its list with a status; it does nothing more, and its writes so far stay (R333). -/
def State.failEntry (s : State) (c lid st : Nat) (e : Entry) : State :=
  ((s.failList c lid st e.index).modEntry c lid e.index fun e => { e with
    dead := true
    parts := []
    carry := []
    toRead := []
    toWrite := []
    wants := [] }).endDead c lid e.index

/-! ### Descriptors (R285, R286, R332) -/

/-- The entry a descriptor describes, none for a reserved operation, a reserved bit, or a field that must be zero (R285, R286). -/
def entryOf (d : BitVec 512) (n : Nat) : Option Entry :=
  let op := field d 0 4
  let cnten := bitAt d 4
  let len := field d 32 32
  let src := field d 64 64
  let dst := field d 128 64
  let aux := field d 192 64
  let aux2 := field d 256 64
  let md := bitAt d 6
  let zero : Bool := match op with
    | 0 => aux = 0 ∧ aux2 = 0 ∧ md = false
    | 1 => src = 0 ∧ aux2 = 0 ∧ md = false
    | 2 => md = false
    | 4 => aux2 = 0
    | 5 => aux = 0 ∧ aux2 = 0 ∧ md = false
    | 6 => src = 0 ∧ dst = 0 ∧ len = 0 ∧ aux2 = 0 ∧ md = false ∧ cnten = false
    | 7 => src = 0 ∧ dst = 0 ∧ len = 0 ∧ aux = 0 ∧ aux2 = 0 ∧ md = false ∧ cnten = false
    | _ => true
  if 7 < op ∨ bitAt d 7 ∨ field d 14 18 ≠ 0 ∨ field d 320 192 ≠ 0 ∨ zero = false then none
  else
    some { index := n, op := op, cnt := if cnten then some (field d 8 6) else none, wait := bitAt d 5, mod := md, len := len,
           src := src, dst := dst, aux := aux, aux2 := aux2, access := 0, pages := [], wants := [], ranges := [], bad := false,
           pre := [], pos := 0, parts := [], carry := [], toRead := [], toWrite := [], reading := false, writing := false, sent := 0, left := 0,
           finished := false, dead := false }

/-- The bytes of a dense element of EXPAND24 (R332). -/
def Entry.es (e : Entry) : Nat := if e.mod then 2 else 1

/-- The ranges an entry reads, but for the elements of a GATHER (R332). -/
def Entry.reads (e : Entry) : List (Nat × Nat) :=
  match e.op with
  | 0 => [(e.src, e.len)]
  | 2 => [(e.aux, 4 * e.len)]
  | 3 => [(e.src, 3 * e.len / 4), (e.aux, e.len / 32)]
  | 4 => [(e.src, e.len * e.es / 2), (e.aux, (e.len / 4 + 1) / 2)]
  | 5 => [(e.src, e.len)]
  | _ => []

/-- The ranges an entry writes, but for a DEPOSIT's (R332). -/
def Entry.writes (e : Entry) : List (Nat × Nat) :=
  match e.op with
  | 0 => [(e.dst, e.len)]
  | 1 => [(e.dst, e.len)]
  | 2 => [(e.dst, e.len * e.aux2)]
  | 3 => [(e.dst, e.len), (e.aux2, e.len / 32)]
  | 4 => [(e.dst, e.len * e.es)]
  | _ => []

/-- The ranges of an entry that must be local (R286): the indices of a GATHER, the destinations of the expansions, the source of a
DEPOSIT, the next descriptor of a CHAIN. For the values and the metadata of an EXPAND24 the table names no kind of address: that they are
local only is the model's choice (log 95). -/
def Entry.localOnly (e : Entry) : List (Nat × Nat) :=
  match e.op with
  | 2 => [(e.aux, 4 * e.len)]
  | 3 => e.writes
  | 4 => e.reads ++ e.writes
  | 5 => e.reads
  | 6 => [(e.aux, 64)]
  | _ => []

/-- Whether a range, if it is local, passes the checks of a list's slot (R78, R286). -/
def GList.rangeOk (l : GList) (p : Perm) (r : Nat × Nat) : Bool :=
  r.2 == 0 || decide (localSize ≤ r.1) || (localFault l.slot l.mode l.wlocwin p r.1 r.2).isNone

/-- The shape checks of an entry (R286, R332). -/
def Entry.shapeOk (e : Entry) : Bool :=
  match e.op with
  | 0 => decide (1 ≤ e.len)
      && !(decide (e.src < localSize) && decide (e.dst < localSize) && decide (e.src < e.dst + e.len)
            && decide (e.dst < e.src + e.len))
  | 1 => decide (1 ≤ e.len)
  | 2 => decide (1 ≤ e.len) && e.aux % 4 == 0 && decide (1 ≤ e.aux2) && decide (e.aux2 ≤ 4096)
  | 3 => e.len % 32 == 0 && e.src % 8 == 0 && e.dst % 8 == 0
  | 4 => e.len % 4 == 0
  | 5 => e.len % 64 == 0 && e.src % 64 == 0 && decide (e.dst % 2 ^ 21 + e.len ≤ localSize)
  | 6 => e.aux % 64 == 0
  | _ => true

/-- Whether an entry passes every check that is made before it does anything (R286, R332): shape, the counter's mode, local ranges
within the windows of the list's slot, and a DEPOSIT's address under R96. -/
def Core.entryOk (k : Core) (panel : Nat) (l : GList) (e : Entry) : Bool :=
  e.shapeOk
    && (e.cnt.all fun n => (vecGet k.cnt n Counter.reset).mode != 2)
    && (e.localOnly.all fun r => r.2 == 0 || decide (r.1 < localSize))
    && (e.reads.all fun r => l.rangeOk .read r) && (e.writes.all fun r => l.rangeOk .write r)
    && (e.op != 6 || l.rangeOk .read (e.aux, 64))
    && (e.op != 5 || match k.checkDa panel l.mode (BitVec.ofNat 64 e.dst) 64 with | .ok _ => true | .error _ => false)

/-- The local ranges an entry holds on the scoreboard (R334). -/
def Entry.scoreboard (e : Entry) : List (Nat × Nat) := e.writes.filter fun r => decide (r.1 < localSize) && r.2 != 0

/-- What a first translation of an address would find, without a walk's effects. -/
def State.peek (s : State) (die : Nat) (wasid : Word) (va : Nat) : Option Nat :=
  if field wasid 60 4 ≠ 9 then some va
  else
    match (s.serve die (bitsOf va 12 36) (field wasid 44 10) (field wasid 0 44)).1 with
    | .entry t => some (t.phys (va % 2 ^ 48))
    | _ => none

/-- The smallest scope that holds an entry's targets (R59, R333): its destination's; a page that is not mapped counts as PANEL. -/
def State.entryScope (s : State) (c : Nat) (l : GList) (e : Entry) : Scope :=
  match e.op with
  | 5 =>
    match (s.core c).checkDa s.panel l.mode (BitVec.ofNat 64 e.dst) 64 with
    | .ok (panel, core) => s.targetScope c panel core
    | .error _ => .core
  | 6 => .core
  | 7 => .core
  | _ =>
    if e.dst < localSize then .core
    else match s.peek (dieOf c) l.wasid e.dst with
      | some a => s.physScope a
      | none => .panel

/-! ### Parts (R332) -/

/-- The parts of a range that lie in one 64-byte row each: address and bytes. The count of rows bounds the recursion. -/
def cutRows : Nat → Nat → Nat → List (Nat × Nat)
  | 0, _, _ => []
  | k + 1, a, n =>
    if n = 0 then []
    else
      let m := min n (64 - a % 64)
      (a, m) :: cutRows k (a + m) (n - m)

/-- Every part of a range. -/
def partsOf (a n : Nat) : List (Nat × Nat) := cutRows (n / 64 + 2) a n

/-- Part `i` of a range that starts at an address: its offset in the range and its bytes, if there is one. -/
def partAt (a n i : Nat) : Option (Nat × Nat) :=
  let first := min n (64 - a % 64)
  let off := if i = 0 then 0 else first + 64 * (i - 1)
  if n ≤ off then none else some (off, min (n - off) (if i = 0 then first else 64))

/-- The reads that fetch some bytes of a range: whole rows of it. What lies past the last address is no address, and its read ends the list with
FAULT, as a write's does: the model's choice (log 111). -/
def readsFor (base n off m : Nat) : List GleanOp :=
  if m = 0 then []
  else
    let lo := max base ((base + off) / 64 * 64)
    let hi := min (base + n) ((base + off + m - 1) / 64 * 64 + 64)
    (partsOf lo (hi - lo)).map fun r => .read r.1 r.2

/-- The byte at an address among what a part has read. -/
def gotByte (got : List (Nat × Bytes)) (a : Nat) : Option Byte :=
  match got.find? fun g => decide (g.1 ≤ a) && decide (a < g.1 + g.2.length) with
  | some g => (g.2[a - g.1]?).getD none
  | none => none

/-- Bytes of an address range among what a part has read. -/
def gotBytes (got : List (Nat × Bytes)) (a n : Nat) : Bytes := (below n).map fun i => gotByte got (a + i)

/-- The writes of bytes from an address up, in runs that leave the missing bytes unwritten. -/
def runsOf (a : Nat) : Bytes → List GleanOp
  | [] => []
  | none :: t => runsOf (a + 1) t
  | some b :: t =>
    match runsOf (a + 1) t with
    | .write a' bs :: r => if a' = a + 1 ∧ a' % 64 ≠ 0 then .write a (b :: bs) :: r else .write a [b] :: .write a' bs :: r
    | r => .write a [b] :: r

/-- The MXFP8 code of an MXFP6 code (R320): E2M3 to E4M3, or with MOD E3M2 to E5M2. -/
def expand6 (md : Bool) (x : Nat) : Nat :=
  let sign := x / 32 * 128
  if md then
    -- E3M2, bias 3, to E5M2, bias 15
    let e := x / 4 % 8
    let f := x % 4
    sign + (if e ≠ 0 then (e + 12) * 4 + f
      else if f = 0 then 0 else if f = 1 then 11 * 4 else if f = 2 then 12 * 4 else 12 * 4 + 2)
  else
    -- E2M3, bias 1, to E4M3, bias 7
    let e := x / 8 % 4
    let f := x % 8
    sign + (if e ≠ 0 then (e + 6) * 8 + f
      else if f = 0 then 0 else if f = 1 then 4 * 8 else if f < 4 then 5 * 8 + (f - 2) * 4 else 6 * 8 + (f - 4) * 2)

/-- Bytes gathered from several, if none is missing. -/
def allBytes : Bytes → Option (List Byte)
  | [] => some []
  | none :: _ => none
  | some b :: t => (allBytes t).map (b :: ·)

/-- The reads of what an entry reads whole before it writes: the indices of a GATHER and the metadata of an EXPAND24 (R286, R332). -/
def Entry.preRange (e : Entry) : Nat × Nat :=
  match e.op with
  | 2 => (e.aux, 4 * e.len)
  | 4 => (e.aux, (e.len / 4 + 1) / 2)
  | _ => (0, 0)

/-- The index of element `k` of a GATHER, none if its row of indices was affected (R286). -/
def Entry.indexOf (e : Entry) (k : Nat) : Option Nat := (allBytes ((e.pre.drop (4 * k)).take 4)).map leNat

/-- The metadata nibble of a group of an EXPAND24, none if its row was affected (R286, R332). -/
def Entry.nibble (e : Entry) (g : Nat) : Option Nat :=
  match (e.pre[g / 2]?).getD none with
  | some b => some (b.toNat / 16 ^ (g % 2) % 16)
  | none => none

/-- The source address of element `k` of a GATHER. -/
def Entry.elementAt (e : Entry) (k : Nat) : Option Nat := (e.indexOf k).map fun i => e.src + i * e.aux2

/-- Whether the indices or metadata an entry has read let it go on: every element of a GATHER from a local base in the local alias, every
local element within the windows, and in every group of an EXPAND24 the first position below the second (R286, R332). -/
def GList.preOk (l : GList) (e : Entry) : Bool :=
  match e.op with
  | 2 => (below e.len).all fun k => (e.elementAt k).all fun a =>
      !(decide (e.src < localSize) && decide (localSize ≤ a)) && l.rangeOk .read (a, e.aux2)
  | 4 => (below (e.len / 4)).all fun g => (e.nibble g).all fun m => decide (m % 4 < m / 4)
  | _ => true

/-- The source bytes of an EXPAND24 that form its dense bytes from `off`, `m` of them: the values of whole groups (R332). -/
def Entry.valuesFor (e : Entry) (off m : Nat) : Nat × Nat :=
  let g := off / (4 * e.es)
  let h := (off + m - 1) / (4 * e.es)
  (2 * e.es * g, 2 * e.es * (h + 1 - g))

/-- The reads of the whole 64-byte rows that hold some bytes. -/
def wholeRows (a n : Nat) : List GleanOp := (rowsOf a n).map fun r => .read (64 * r) 64

/-- The rows of its source that part `i` of a COPY is made of. -/
def Entry.copyRows (e : Entry) (i : Nat) : List GleanOp :=
  if e.op = 0 then (match partAt e.dst e.len i with | some p => readsFor e.src e.len p.1 p.2 | none => []) else []

/-- The rows that part `i` of a COPY shares with the part before it, for which they are read: each source row is read once, at one grant (R161,
R335). -/
def Entry.shared (e : Entry) (i : Nat) : List GleanOp :=
  if i = 0 then [] else (e.copyRows i).filter fun o => (e.copyRows (i - 1)).contains o

/-- What part `i` of an entry reads, or none past the last part (R332). A part of a GATHER is an element, with the whole source rows
that hold it, since an error in a row affects every element read from it (R286); the parts of an EXPAND6 after its codes' are its
scales'. -/
def Entry.partReads (e : Entry) (i : Nat) : Option (List GleanOp) :=
  match e.op with
  | 0 => (partAt e.dst e.len i).map fun _ => (e.copyRows i).filter fun o => !(e.shared i).contains o
  | 1 => (partAt e.dst e.len i).map fun _ => []
  | 2 => if e.len ≤ i then none else some (match e.elementAt i with | some a => wholeRows a e.aux2 | none => [])
  | 3 =>
    match partAt e.dst e.len i with
    | some p => some (readsFor e.src (3 * e.len / 4) (p.1 / 4 * 3) ((p.1 + p.2 - 1) / 4 * 3 + 3 - p.1 / 4 * 3))
    | none =>
      let k := (e.len + e.dst % 64 + 63) / 64
      (partAt e.aux2 (e.len / 32) (i - k)).map fun p => readsFor e.aux (e.len / 32) p.1 p.2
  | 4 => (partAt e.dst (e.len * e.es) i).map fun p =>
      let v := e.valuesFor p.1 p.2
      readsFor e.src (e.len * e.es / 2) v.1 v.2
  | 5 => if e.len / 64 ≤ i then none else some [.read (e.src + 64 * i) 64]
  | _ => none

/-- The bytes that part `i` of an entry writes outside the local alias: address and bytes. -/
def Entry.partDest (e : Entry) (i : Nat) : List (Nat × Nat) :=
  match e.op with
  | 0 => (partAt e.dst e.len i).toList.map fun p => (e.dst + p.1, p.2)
  | 1 => (partAt e.dst e.len i).toList.map fun p => (e.dst + p.1, p.2)
  | 2 => partsOf (e.dst + i * e.aux2) e.aux2
  | _ => []

/-- A byte of the dense tile of an EXPAND24 (R286, R332): none if its group's metadata or the byte it is formed from was affected. -/
def Entry.denseByte (e : Entry) (got : List (Nat × Bytes)) (n : Nat) : Option Byte :=
  let g := n / (4 * e.es)
  let p := n / e.es % 4
  let value (k : Nat) : Option Byte := gotByte got (e.src + 2 * e.es * g + k * e.es + n % e.es)
  match e.nibble g with
  | some m => if p = m % 4 then value 0 else if p = m / 4 then value 1 else some 0
  | none => none

/-- The code that an EXPAND6 forms for element `n` (R286, R332): none if one of the bytes that hold its six bits was affected. -/
def Entry.code6 (e : Entry) (got : List (Nat × Bytes)) (n : Nat) : Option Byte :=
  let lo := 6 * (n % 4)
  (allBytes (gotBytes got (e.src + n / 4 * 3 + lo / 8) ((lo + 5) / 8 + 1 - lo / 8))).map fun w =>
    BitVec.ofNat 8 (expand6 e.mod (leNat w >>> (lo % 8) % 64))

/-- What part `i` of an entry writes, from what it has read (R286, R332). -/
def Entry.partWrites (e : Entry) (got : List (Nat × Bytes)) (i : Nat) : List GleanOp :=
  match e.op with
  | 0 =>
    match partAt e.dst e.len i with
    | some p =>
      if got.any fun g => g.2.contains none then [] else runsOf (e.dst + p.1) (gotBytes got (e.src + p.1) p.2)
    | none => []
  | 1 =>
    match partAt e.dst e.len i with
    | some p => runsOf (e.dst + p.1) ((below p.2).map fun k => some (BitVec.ofNat 8 (e.aux >>> (8 * ((p.1 + k) % 8)))))
    | none => []
  | 2 =>
    match e.elementAt i with
    | some a =>
      if got.any fun g => g.2.contains none then []
      else runsOf (e.dst + i * e.aux2) (gotBytes got a e.aux2)
    | none => []
  | 3 =>
    match partAt e.dst e.len i with
    | some p =>
      runsOf (e.dst + p.1) ((below p.2).map fun k => e.code6 got (p.1 + k))
    | none =>
      let k := (e.len + e.dst % 64 + 63) / 64
      match partAt e.aux2 (e.len / 32) (i - k) with
      | some p => runsOf (e.aux2 + p.1) (gotBytes got (e.aux + p.1) p.2)
      | none => []
  | 4 =>
    match partAt e.dst (e.len * e.es) i with
    | some p => runsOf (e.dst + p.1) ((below p.2).map fun k => e.denseByte got (p.1 + k))
    | none => []
  | 5 =>
    match allBytes (gotBytes got (e.src + 64 * i) 64) with
    | some bs => [.deposit i bs]
    | none => []
  | _ => []

/-! ### Performing an entry -/

/-- How an address of an entry translates (R331): ready, after a translation of its page, or not at all. -/
inductive GleanAddr where
  | phys (a : Nat)
  | translate (vpn : Nat)
  | none
  deriving DecidableEq, Repr

/-- The translation an entry holds for an address, in the address space of its list (R331). -/
def Entry.translation (e : Entry) (l : GList) (va : Nat) : Option TlbEntry :=
  e.pages.find? fun t => t.hits (bitsOf va 12 36) (field l.wasid 44 10)

/-- The translation of a global address of an entry with the `wasid` of its list (R286, R331): through the pages it holds. Device
registers and addresses that do not exist are not translated. -/
def State.gleanAddr (s : State) (l : GList) (e : Entry) (va n : Nat) (p : Perm) : GleanAddr :=
  let usable (a : Nat) : GleanAddr := if bitsOf a 48 8 ≠ 15 ∧ s.physOk a p .m n false then .phys a else .none
  if field l.wasid 60 4 ≠ 9 then (if 2 ^ 56 ≤ va then .none else usable va)
  else if ((BitVec.ofNat 48 va).signExtend 64).toNat ≠ va then .none
  else
    match e.translation l va with
    | none => .translate (bitsOf va 12 36)
    | some t => if permOk t.perm .s true false p then usable (t.phys (va % 2 ^ 48)) else .none

/-- The pages of a part whose translations an entry does not hold (R331). -/
def State.missingPages (s : State) (l : GList) (e : Entry) (i : Nat) (ops : List GleanOp) : List Nat :=
  let ranges : List (Nat × Nat × Perm) :=
    (ops.filterMap fun o => match o with | .read a n => some (a, n, Perm.read) | _ => none)
      ++ (e.partDest i).map fun r => (r.1, r.2, Perm.write)
  (ranges.filterMap fun r =>
    if r.1 < localSize then none
    else match s.gleanAddr l e r.1 r.2.1 r.2.2 with
      | .translate vpn => some vpn
      | _ => none).eraseDups

/-- Asks for translations of pages that an entry has not asked for yet (R331): 32 cycles where the die's second-level TLB hits, otherwise a
walk's free time more. -/
def State.askPages (s : State) (c : Nat) (l : GList) (n : Nat) (vpns : List Nat) : State :=
  vpns.foldl (fun s vpn =>
    match (s.glist c l.lid).bind fun l => l.entry n with
    | none => s
    | some e =>
      if e.wants.any fun w => w.page == vpn then s
      else
        let hit := (s.die (dieOf c)).tlb2.any fun t => t.hits vpn (field l.wasid 44 10)
        let due := s.cycle + 32 + if hit then 0 else Config.walkTime s.free
        let s := if hit then s else (s.draw).2
        (s.modEntry c l.lid n fun e => { e with wants := e.wants ++ [{ page := vpn, due := due, cut := none }] }).at due (.gleanerTranslate c l.lid)) s

/-- A row of a DEPOSIT entry as a deposit (R93, R96, R197, R286): counted as the slot's own, with the ASID of `wasid`. -/
def State.rowDeposit (s : State) (c : Nat) (l : GList) (e : Entry) (row : Nat) (bs : List Byte) : Option Dep :=
  let da := BitVec.ofNat 64 (e.dst + 64 * row)
  match (s.core c).checkDa s.panel l.mode (BitVec.ofNat 64 e.dst) 64 with
  | .error _ => none
  | .ok (panel, core) =>
    some { kind := .gleaner l.lid e.index, core := c, slot := l.slot, counted := l.slot != 15, addr := da,
           target := foreignTarget panel s.panel core, targetSlot := 0, off := field da 0 21, size := 64,
           data := BitVec.ofNat 1024 (leNat bs), cnt := daCounter da, asid := field l.wasid 44 10, global := false, acc := e.access,
           rel := none, awaited := [], ready := s.cycle + 4, deadline := 0, written := [] }

/-- Whether the Gleaner of a core may send a request on REQ or DEP in this cycle: one a cycle (R330), and at a throttle level of 4 or more in
even cycles only (R425). -/
def State.gleanMaySend (s : State) (c : Nat) : Bool :=
  (s.core c).gl.sentAt != some s.cycle && (decide (s.sec.pthr < 4) || s.cycle % 2 == 0)

/-- The Gleaner of a core sends its one request of this cycle. -/
def State.gleanSends (s : State) (c : Nat) : State := s.modGl c fun g => { g with sentAt := some s.cycle }

/-- A list looks for work again in the next cycle. -/
def State.gleanAgain (s : State) (c lid : Nat) : State :=
  let e := Act.event (.gleanerEntryStart c lid)
  if s.agenda.any fun d => d.act == e && d.cycle == s.cycle + 1 then s else s.at (s.cycle + 1) (.gleanerEntryStart c lid)

/-- The global reads that the Gleaner of a core has outstanding (R330). -/
def State.gleanReads (s : State) (c : Nat) : Nat :=
  (s.reqs.filter fun r => r.2.core == c && match r.2.op with | .gleanRead _ _ _ _ _ => true | _ => false).length

/-- What an operation of an entry can do now: be made, at a local or physical address or as a deposit; wait for the grant of the entry's other
read or write; wait for a place or for the Gleaner's turn to send; wait for a translation; or fail the list. -/
inductive GleanTurn where
  | inBank
  | send (a : Nat)
  | deposit
  | grant
  | later
  | page (vpn : Nat)
  | fail
  deriving DecidableEq, Repr

/-- See `GleanTurn`. -/
def State.gleanTurn (s : State) (c : Nat) (l : GList) (e : Entry) (op : GleanOp) : GleanTurn :=
  let far (a n : Nat) (p : Perm) (room : Bool) : GleanTurn :=
    match s.gleanAddr l e a n p with
    | .none => .fail
    | .translate vpn => .page vpn
    | .phys b => if room ∧ s.gleanMaySend c then .send b else .later
  match op with
  | .read a n =>
    if a < localSize then (if e.reading then .grant else .inBank) else far a n .read (decide (s.gleanReads c < 32))
  | .write a bs => if a < localSize then (if e.writing then .grant else .inBank) else far a bs.length .write true
  | .deposit _ _ => if (s.core c).outbound < outboundSize ∧ s.gleanMaySend c then .deposit else .later

/-- The operations an entry has yet to make, its writes first. -/
def Entry.todo (e : Entry) : List (Nat × GleanOp) := e.toWrite ++ e.toRead

/-- An entry that has made its operation `n`. -/
def Entry.made (e : Entry) (n : Nat) : Entry :=
  { e with
    toWrite := e.toWrite.eraseIdx n
    toRead := if n < e.toWrite.length then e.toRead else e.toRead.eraseIdx (n - e.toWrite.length) }

/-- Makes an operation of an entry (R330): a request to a bank, a request on REQ, or a deposit. -/
def State.gleanMake (s : State) (c : Nat) (l : GList) (e : Entry) (n part : Nat) (op : GleanOp) (turn : GleanTurn) : State :=
  let mod (f : Entry → Entry) (s : State) : State := s.modEntry c l.lid e.index fun e => f (e.made n)
  let bank (a : Nat) (s : State) : State :=
    s.present c [{ cls := .gleaner, bank := bankOf a, first := s.cycle + 1, act := .gleanerRow l.lid e.index part op }]
  match op, turn with
  | .read a _, .inBank => bank a (mod (fun e => { e with reading := true }) s)
  | .write a _, .inBank => bank a (mod (fun e => { e with writing := true }) s)
  | .read a m, .send b =>
    (mod (fun e => { e with sent := e.sent + 1 }) (s.gleanSends c)).sendReq c 16 0 (.gleanRead l.lid e.index part a m) b none
  | .write _ bs, .send b =>
    (mod (fun e => { e with sent := e.sent + 1 }) (s.gleanSends c)).sendReq c 16 0 (.gleanWrite l.lid e.index bs) b none
  | .deposit row bs, .deposit =>
    let s := mod (fun e => { e with left := e.left + 1 }) (s.gleanSends c)
    match s.rowDeposit c l e row bs with
    | some d => s.enqueue d
    | none => s
  | _, _ => s

/-- The mark of a read of the indices or metadata that an entry reads whole. -/
def wholePart : Nat := 2 ^ 40

/-- Whether a row that has been read is one of some rows. -/
def rowAmong (l : List GleanOp) (got : Nat × Bytes) : Bool := l.any fun o => match o with | .read a _ => a == got.1 | _ => false

/-- An entry that has taken up its next part, with what it reads and what has been read for it already; a part that awaits nothing has its writes
at once (R332). -/
def Entry.taking (e : Entry) (ops : List GleanOp) : Entry :=
  let i := e.pos
  let got := e.carry.filter (rowAmong (e.shared i))
  let left := ops.length + (e.shared i).length - got.length
  let e := { e with
    pos := i + 1
    carry := [] }
  if left = 0 then { e with toWrite := e.toWrite ++ (e.partWrites got i).map fun o => (i, o) }
  else { e with
    parts := e.parts ++ [{ index := i, left := left, got := got }]
    toRead := e.toRead ++ ops.map fun o => (i, o) }

/-- An entry goes on until it waits for something, or `fuel` turns have passed: it then goes on in the next cycle. It reads what it reads
whole and checks that; then it makes what it can of its operations, past those that wait for a translation (R331), and takes up its next
part when none waits for anything else. Past the last part it completes once its accesses are performed. -/
def State.runEntry (s : State) (c lid n : Nat) : Nat → State
  | 0 => s.gleanAgain c lid
  | fuel + 1 =>
    match s.glist c lid with
    | none => s
    | some l =>
      match l.entry n with
      | none => s
      | some e =>
        let turns := e.todo.map fun o => (o, s.gleanTurn c l e o.2)
        let can (t : GleanTurn) : Bool := match t with | .inBank => true | .send _ => true | .deposit => true | .fail => true | _ => false
        if e.dead ∨ e.finished then s
        else match (turns.zip (below turns.length)).find? fun t => can t.1.2 with
        | some (((part, op), turn), i) =>
          if turn = .fail then s.failEntry c lid 2 e else (s.gleanMake c l e i part op turn).runEntry c lid n fuel
        | none =>
          let pre := e.preRange
          if turns.any fun t => t.2 == .later then s.gleanAgain c lid
          else if turns.any fun t => t.2 == .grant then s
          else if e.pre.length < pre.2 then
            match (if e.reading then none else partAt pre.1 pre.2 ((e.pre.length + pre.1 % 64) / 64)) with
            | some (off, m) =>
              (s.modEntry c lid n fun e => { e with toRead := [(wholePart, .read (pre.1 + off) m)] }).runEntry c lid n fuel
            | none => s
          else if e.pos = 0 ∧ l.preOk e = false then s.failEntry c lid 3 e
          else
            match e.partReads e.pos with
            | some ops =>
              ((s.modEntry c lid n fun e => e.taking ops).askPages c l n (s.missingPages l e e.pos ops)).runEntry c lid n fuel
            | none =>
              if e.parts ≠ [] ∨ turns ≠ [] ∨ e.reading ∨ e.writing ∨ e.sent ≠ 0 then s
              else
                let s := s.modEntry c lid n fun e => { e with finished := true }
                if e.left = 0 then s.at s.cycle (.gleanerEntryComplete c lid n) else s

/-- Turns of `runEntry` in one cycle. -/
def gleanFuel : Nat := 8

/-- A part of an entry gets what a read has returned: the last read of a part forms the part's writes. -/
def Entry.feed (e : Entry) (part a : Nat) (b : Bytes) : Entry :=
  match e.parts.find? fun p => p.index == part with
  | none => e
  | some p =>
    let got := p.got ++ [(a, b)]
    if p.left ≤ 1 then { e with
      parts := e.parts.filter fun p => p.index != part
      toWrite := e.toWrite ++ (e.partWrites got part).map fun o => (part, o) }
    else { e with parts := e.parts.map fun p => if p.index = part then { p with
      left := p.left - 1
      got := got } else p }

/-- An entry to which a read of a part has returned its bytes, missing where it met an uncorrectable error (R286). A row of a COPY that the next
part shares is kept for it, or goes to it too. -/
def Entry.returned (e : Entry) (part a : Nat) (b : Bytes) : Entry :=
  let e := { e with bad := e.bad || b.contains none }
  if part = wholePart then { e with pre := e.pre ++ b }
  else
    let e := e.feed part a b
    if rowAmong (e.shared (part + 1)) (a, b) = false then e
    else if e.pos ≤ part + 1 then { e with carry := e.carry ++ [(a, b)] }
    else e.feed (part + 1) a b

/-- An entry goes on after one of its accesses has ended, or leaves if it has failed. -/
def State.goOn (s : State) (c lid n : Nat) : State := (s.runEntry c lid n gleanFuel).endDead c lid n

/-- A request of an entry has ended: a read with what it returned, none where it met an uncorrectable error. -/
def State.gleanDone (s : State) (c : Nat) (op : ReqOp) (bytes : Option (List Byte)) : State :=
  match op with
  | .gleanRead lid n part a m =>
    let b : Bytes := match bytes with | some l => l.map some | none => List.replicate m none
    (s.modEntry c lid n fun e => { e with sent := e.sent - 1 }.returned part a b).goOn c lid n
  | .gleanWrite lid n _ => (s.modEntry c lid n fun e => { e with sent := e.sent - 1 }).goOn c lid n
  | _ => s

/-- The bank grant of a local access of an entry (R83, R330). -/
def State.gleanGrant (s : State) (c lid n part : Nat) (op : GleanOp) : State :=
  match op with
  | .read a m =>
    let k := s.core c
    let b : Bytes := if k.poisoned a m then List.replicate m none else (k.spad.bytes m a).map some
    (s.modEntry c lid n fun e => { e with reading := false }.returned part a b).goOn c lid n
  | .write a bs => ((s.writeSpad c a bs).modEntry c lid n fun e => { e with writing := false }).goOn c lid n
  | .deposit _ _ => s

/-- A row of a DEPOSIT entry has landed: one is left fewer, and the last one of a finished entry completes it (R286). -/
def State.gleanerLanded (s : State) (c lid n : Nat) : State :=
  let s := (s.modEntry c lid n fun e => { e with left := e.left - 1 }).endDead c lid n
  match (s.glist c lid).bind fun l => l.entry n with
  | some e => if e.finished ∧ e.left = 0 then s.at s.cycle (.gleanerEntryComplete c lid n) else s
  | none => s

/-- A list that takes no further entry ends once it can, and the turn goes to the next one. -/
def State.endTurn (s : State) (c lid : Nat) : State := (s.checkList c lid).kickGleaner c

/-- The grant of the read of a list's next descriptor (R330): its entry becomes pending, and CHAIN, END and a rejected one act. -/
def State.gleanDescriptor (s : State) (c lid : Nat) : State :=
  match s.glist c lid with
  | none => s
  | some l =>
    let s := s.modList c lid fun l => { l with reading := false }
    if s.halted c then s
    else if l.closing then s.endTurn c lid
    else
      let k := s.core c
      if localSize ≤ l.next ∨ l.rangeOk .read (l.next, 64) = false then (s.failList c lid 3 l.index).endTurn c lid
      else if k.poisoned l.next 64 then (s.failList c lid 4 l.index).endTurn c lid
      else
        match entryOf (BitVec.ofNat 512 (k.spad.load 64 l.next)) l.index with
        | none => (s.failList c lid 3 l.index).endTurn c lid
        | some e =>
          if k.entryOk s.panel l e = false then (s.failList c lid 3 l.index).endTurn c lid
          else
            let (a, s) := s.spawn c l.slot l.access (s.entryScope c l e)
            (s.modList c lid fun l => { l with
              pending := some { e with access := a }
              next := l.next + 64
              index := l.index + 1 }).at s.cycle (.gleanerEntryStart c lid)

end Sys2Proof.Machine
end

