-- ==== Sys2Proof/Machine/Gleaner.lean ====
section
/-! DEFINITION. The Gleaner's instructions (R287 to R289) and events (R330, R331). -/

namespace Sys2Proof.Machine

/-- The status word of a list (R288). -/
def statusWord (lid st done : Nat) : Word := BitVec.ofNat 64 (st + lid * 2 ^ 16 + min done 0xFFFF * 2 ^ 32)

/-- TMO of a status word (R288, R293). -/
def timedOut (w : Word) : Word := w ||| (1#64 <<< 63)

/-! ### Events -/

/-- GLEANER_ENTRY_START: a list looks for work (R330): entries that can go on do, the pending entry starts once there is a place, the
scoreboard has room and, with WAIT, every earlier entry has completed; a CHAIN completes when it is read, and an END closes the
list. Otherwise the next descriptor is read. Only the list whose turn it is does so; the turn then goes to the next one. -/
def execGleanerEntryStart (core lid : Nat) (s : State) : Out :=
  ok (
    let s := match s.glist core lid with
      | some l => l.inFlight.foldl (fun (s : State) (e : Entry) => s.runEntry core lid e.index gleanFuel) s
      | none => s
    match s.glist core lid with
    | none => s
    | some l =>
      let g := (s.core core).gl
      if l.reading ∨ s.halted core ∨ g.turnOf lid = false then s
      else
        match l.pending with
        | none =>
          if g.inFlight < 4 then
            (s.modList core lid fun l => { l with reading := true }).present core
              [{ cls := .gleaner, bank := bankOf l.next, first := s.cycle + 1, act := .gleanerRead lid }]
          else s
        | some e =>
          let turn (s : State) : State := s.modGl core fun g => { g with turn := l.access }
          if e.op = 6 then
            (turn ((s.known core l.slot e.access).modList core lid fun l => { l with
              pending := none
              next := e.aux
              done := l.done + 1 })).kickGleaner core
          else if e.op = 7 then
            ((turn ((s.dropUnstarted core lid).modList core lid fun l => { l with ended := true })).checkList core lid).kickGleaner core
          else if 4 ≤ g.inFlight ∨ 16 < g.ranges + e.scoreboard.length then s
          else
            let s := s.modList core lid fun l => { l with
              pending := none
              inFlight := l.inFlight ++ [{ e with ranges := e.scoreboard }] }
            ((turn s).runEntry core lid e.index gleanFuel).kickGleaner core)

/-- GLEANER_TRANSLATE: the translation an entry waits for becomes available, or ends the list with FAULT or POISON (R331). One whose walk meets a
module that is not UP waits, or has lost a read there (R391, R405; log 67). -/
def execGleanerTranslate (core lid : Nat) (s : State) : Out :=
  ok (match s.glist core lid with
    | none => s
    | some l =>
      match l.inFlight.findSome? fun e => (e.wants.find? fun w => decide (w.due ≤ s.cycle)).map fun w => (e, w) with
      | none => s
      | some (e, w) =>
        let asid := field l.wasid 44 10
        let root := field l.wasid 0 44
        match s.tryWalk core w.page asid root w.cut with
        | (.spent, s) => s.failEntry core lid 4 e
        | (.wait cut cycle, s) =>
          (s.modEntry core lid e.index fun e => { e with
            wants := e.wants.map fun v => if v.page = w.page then { v with due := cycle, cut := some cut } else v }).at cycle (.gleanerTranslate core lid)
        | (.go, s) =>
          let (r, s) := s.serve (dieOf core) w.page asid root
          match r with
          | .entry t =>
            (s.modEntry core lid e.index fun e => { e with
              pages := e.pages ++ [t]
              wants := e.wants.filter fun v => v.page != w.page }).runEntry core lid e.index gleanFuel
          | .poisoned => s.failEntry core lid 4 e
          | _ => s.failEntry core lid 2 e)

/-- The bytes a CNTEN counter in bytes mode rises by (R286). -/
def Entry.amount (e : Entry) : Nat :=
  match e.op with
  | 2 => e.len * e.aux2
  | 3 => e.len + e.len / 32
  | 4 => e.len * e.es
  | _ => e.len

/-- GLEANER_ENTRY_COMPLETE: every access of an entry has been performed: its ranges retire and its counter rises; one that met an
uncorrectable error ends its list with POISON instead (R286, R333). -/
def execGleanerEntryComplete (core lid entry : Nat) (s : State) : Out :=
  ok (match (s.glist core lid).bind fun l => l.entry entry with
    | none => s
    | some e =>
      if e.finished = false ∨ e.left ≠ 0 then s
      else if e.bad then s.failEntry core lid 4 e
      else
        let s := (s.leaveEntry core lid e).modList core lid fun l => { l with done := l.done + 1 }
        let s := match e.cnt with
          | some n => s.raise core n e.amount true
          | none => s
        (s.checkList core lid).kickGleaner core)

/-- Whether the sheaf of a core is being killed. -/
def State.beingKilled (s : State) (c : Nat) : Bool := ((s.core c).ticket.bind s.sheaf).any fun h => h.st == .killing

/-- GLEANER_LIST_END: a list ends with its status, of which the Gleaner keeps the latest 16 (R288). Those of a halted core stay active, unless
its sheaf is killed (R220, R343). -/
def execGleanerListEnd (core lid : Nat) (s : State) : Out :=
  ok (match s.glist core lid with
    | none => s
    | some l =>
      if l.closing = false ∨ l.inFlight ≠ [] ∨ (s.halted core ∧ s.beingKilled core = false) then s
      else
        let w := match l.failed with
          | some (st, n) => statusWord lid st n
          | none => if l.aborted then statusWord lid 1 l.done else statusWord lid 0 (l.done + 1)
        ((s.dropUnstarted core lid).modGl core fun g =>
          let kept := (g.kept.filter fun k => k.1 != lid) ++ [(lid, w)]
          { g with
            lists := g.lists.filter fun x => x.lid != lid
            kept := kept.drop (kept.length - 16)
            lastBy := KMap.put g.lastBy l.slot w }).mayRetire core)

/-! ### Instructions -/

/-- The status of a list now (R288). -/
def Core.listStatus (k : Core) (lid : Nat) : Word :=
  match k.gl.lists.find? fun l => l.lid == lid with
  | some l => statusWord lid 14 l.done
  | none =>
    match k.gl.kept.find? fun e => e.1 == lid with
    | some (_, w) => w
    | none => statusWord lid 15 0

/-- The LID of the next list (R287): one that an active list holds, such as one the service slot started before the dispatch, is passed
over (log 71). -/
def Gleaner.freeLid (g : Gleaner) : Nat :=
  let used (n : Nat) : Bool := g.lists.any fun l => l.lid == n
  (((below 9).map fun i => (g.nextLid + i - 1) % 0xFFFF + 1).find? fun n => !used n).getD g.nextLid

/-- CE_GO (R287): every access of the list counts as issued here, on the ENG path (R59, R333). -/
def execCeGo (rd rs1 : BitVec 5) (s : State) : Out :=
  ok (readWrite [.x rs1] (.x rd) s fun s =>
    let a := s.x rs1
    if a.toNat % 64 ≠ 0 then s.trap 4 a
    else if localSize ≤ a.toNat then s.trap 5 a
    else
      match s.ownFault .read a.toNat 64 with
      | some f => s.trap 5 (BitVec.ofNat 64 f)
      | none =>
        gated .eng .core s fun s =>
          if 8 ≤ s.here.gl.lists.length then s.block (.ceGo rd)
          else
            let g := s.here.gl
            let lid := g.freeLid
            let t := s.me
            let (acc, s) := s.addAccess s.curCore s.curSlot .eng .core false
            let l : GList := { lid := lid, slot := s.curSlot, mode := t.mode, wasid := s.here.wasid, wlocwin := t.u.wlocwin,
                               access := acc, next := a.toNat, index := 0, reading := false, pending := none, inFlight := [],
                               done := 0, ended := false, aborted := false, failed := none }
            let s := s.modGl s.curCore fun g => { g with
              lists := g.lists ++ [l]
              nextLid := lid % 0xFFFF + 1 }
            ((s.finishX rd (BitVec.ofNat 64 lid)).at (s.cycle + 1) (.gleanerEntryStart s.curCore lid)))

/-- CE_WAIT (R289): on a LID until its list has ended, or with bit 63 set on every list of the slot, reporting the last to end. -/
def execCeWait (rd rs1 : BitVec 5) (s : State) : Out :=
  ok (readWrite [.x rs1] (.x rd) s fun s =>
    let w := s.x rs1
    let k := s.here
    if bitAt w 63 then
      if k.gl.lists.any fun l => l.slot == s.curSlot then s.block (.ceWait rd none)
      else if s.me.waitKind = some (.ceWait rd none) ∨ s.me.waitKind = some .resumed then s.finishX rd ((KMap.get k.gl.lastBy s.curSlot).getD 0)
      else s.finishX rd 0
    else
      let lid := field w 0 16
      if k.gl.lists.any fun l => l.lid == lid then s.block (.ceWait rd (some lid)) else s.finishX rd (k.listStatus lid))

/-- CE_STAT (R289). -/
def execCeStat (rd rs1 : BitVec 5) (s : State) : Out :=
  ok (readWrite [.x rs1] (.x rd) s fun s => s.finishX rd (s.here.listStatus (field (s.x rs1) 0 16)))

/-- CE_ABORT (R289): no further entry of the list starts; it ends once those in flight have completed. -/
def execCeAbort (rd rs1 : BitVec 5) (s : State) : Out :=
  ok (readWrite [.x rs1] (.x rd) s fun s =>
    let lid := field (s.x rs1) 0 16
    let w := s.here.listStatus lid
    let c := s.curCore
    match s.glist c lid with
    | none => s.finishX rd w
    | some _ => (((s.dropUnstarted c lid).modList c lid fun l => { l with aborted := true }).endTurn c lid).finishX rd w)

end Sys2Proof.Machine
end

