-- ==== Sys2Proof/Machine/Flags.lean ====
section
/-! DEFINITION. The floating-point formats (R310, R311), exact values, the one rounding of a result with its flags (R243, R249, R313), and
the quantisation of blocks (R317 to R322). -/

namespace Sys2Proof.Machine

/-! ### Formats -/

/-- The floating-point formats (R310). -/
inductive Fmt where
  | fp32 | bf16 | fp16 | e5m2 | e4m3 | e3m2 | e2m3 | e2m1
  deriving DecidableEq, Repr

/-- The exponent bits of a format. -/
def Fmt.ebits : Fmt → Nat
  | .fp32 => 8
  | .bf16 => 8
  | .fp16 => 5
  | .e5m2 => 5
  | .e4m3 => 4
  | .e3m2 => 3
  | .e2m3 => 2
  | .e2m1 => 2

/-- The fraction bits of a format: its precision less the hidden bit. -/
def Fmt.fbits : Fmt → Nat
  | .fp32 => 23
  | .bf16 => 7
  | .fp16 => 10
  | .e5m2 => 2
  | .e4m3 => 3
  | .e3m2 => 2
  | .e2m3 => 3
  | .e2m1 => 1

/-- The width of a format. -/
def Fmt.width (f : Fmt) : Nat := 1 + f.ebits + f.fbits

/-- The bias. -/
def Fmt.bias (f : Fmt) : Nat := 2 ^ (f.ebits - 1) - 1

/-- The least exponent of a normal value. -/
def Fmt.emin (f : Fmt) : Int := 1 - (f.bias : Int)

/-- Whether the exponent field of all ones is for infinities and NaNs, as in the IEEE formats. -/
def Fmt.ieee : Fmt → Bool
  | .fp32 => true
  | .bf16 => true
  | .fp16 => true
  | .e5m2 => true
  | _ => false

/-- The code of infinity, or of what would be it. -/
def Fmt.infCode (f : Fmt) : Nat := (2 ^ f.ebits - 1) * 2 ^ f.fbits

/-- The code of the largest finite value: 448 in E4M3, whose last code is a NaN. -/
def Fmt.maxCode (f : Fmt) : Nat :=
  if f.ieee then f.infCode - 1 else if f = .e4m3 then 0x7E else 2 ^ (f.width - 1) - 1

/-- The canonical NaN (R311). -/
def Fmt.nanCode (f : Fmt) : Nat := if f.ieee then f.infCode + 2 ^ (f.fbits - 1) else if f = .e4m3 then 0x7F else 0

/-- The greatest exponent of a normal value. -/
def Fmt.emax (f : Fmt) : Int := (f.maxCode / 2 ^ f.fbits : Nat) - (f.bias : Int)

/-! ### Exact values -/

/-- An exact number `n · 2^e`. -/
structure Dyad where
  n : Int
  e : Int
  deriving DecidableEq, Repr

/-- The number at a smaller exponent. -/
def Dyad.atExp (d : Dyad) (e : Int) : Int := d.n * (2 ^ (d.e - e).toNat : Nat)

/-- The exact sum. -/
def Dyad.add (a b : Dyad) : Dyad :=
  let e := min a.e b.e
  { n := a.atExp e + b.atExp e, e := e }

/-- The exact product. -/
def Dyad.mul (a b : Dyad) : Dyad := { n := a.n * b.n, e := a.e + b.e }

/-- The negated number. -/
def Dyad.neg (a : Dyad) : Dyad := { a with n := -a.n }

/-- Whether a number is less than another. -/
def Dyad.lt (a b : Dyad) : Bool :=
  let e := min a.e b.e
  decide (a.atExp e < b.atExp e)

/-- The floor of the binary logarithm of a magnitude. -/
def Dyad.log2 (a : Dyad) : Int := (Nat.log2 a.n.natAbs : Int) + a.e

/-- A value of a format: a NaN that may be signalling, an infinity, a signed zero, or another number. -/
inductive Num where
  | nan (signalling : Bool)
  | inf (neg : Bool)
  | zero (neg : Bool)
  | fin (d : Dyad)
  deriving DecidableEq, Repr

/-- An exact number as a value; an exact zero has the sign given. -/
def Num.of (d : Dyad) (zeroNeg : Bool) : Num := if d.n = 0 then .zero zeroNeg else .fin d

/-- Whether a value is a signalling NaN. -/
def Num.signalling : Num → Bool
  | .nan b => b
  | _ => false

/-- Whether a value is a NaN. -/
def Num.isNan : Num → Bool
  | .nan _ => true
  | _ => false

/-- Whether a value is finite. -/
def Num.finite : Num → Bool
  | .zero _ => true
  | .fin _ => true
  | _ => false

/-- The sign of a value. -/
def Num.negative : Num → Bool
  | .nan _ => false
  | .inf b => b
  | .zero b => b
  | .fin d => decide (d.n < 0)

/-- The value with its sign turned. -/
def Num.neg : Num → Num
  | .nan b => .nan b
  | .inf b => .inf !b
  | .zero b => .zero !b
  | .fin d => .fin d.neg

/-- The magnitude of a value. -/
def Num.abs (x : Num) : Num := if x.negative then x.neg else x

/-- The exact number of a finite value; zero for the others. -/
def Num.dyad : Num → Dyad
  | .fin d => d
  | _ => { n := 0, e := 0 }

/-- The value of a code (R311). -/
def Fmt.decode (f : Fmt) (code : Nat) : Num :=
  let c := code % 2 ^ f.width
  let neg := c / 2 ^ (f.width - 1) == 1
  let m := c % 2 ^ (f.width - 1)
  let frac := m % 2 ^ f.fbits
  let exp := m / 2 ^ f.fbits
  let sgn (n : Nat) : Int := if neg then -(n : Int) else (n : Int)
  if f.ieee ∧ f.infCode ≤ m then
    if frac = 0 then .inf neg else .nan (decide (frac < 2 ^ (f.fbits - 1)))
  else if f = .e4m3 ∧ m = 0x7F then .nan false
  else if m = 0 then .zero neg
  else if exp = 0 then .fin { n := sgn frac, e := f.emin - f.fbits }
  else .fin { n := sgn (2 ^ f.fbits + frac), e := (exp : Int) - f.bias - f.fbits }

/-! ### Flags -/

/-- The flags of `wvflags` (R243). -/
abbrev Flags := BitVec 6

def flagNX : Flags := 1#6
def flagUF : Flags := 2#6
def flagOF : Flags := 4#6
def flagDZ : Flags := 8#6
def flagNV : Flags := 16#6
def flagSAT : Flags := 32#6

/-- A flag when a condition holds. -/
def Flags.when (b : Bool) (f : Flags) : Flags := if b then f else 0

/-! ### Rounding -/

/-- Rounding modes: to nearest even, toward zero, and to nearest even with saturation (R249, R313). -/
inductive Rm where
  | rne | rtz | sat
  deriving DecidableEq, Repr

/-- A magnitude `m · 2^e` in units of `2^q`, rounded, and whether it was not a whole number of them. -/
def roundUnits (rm : Rm) (m : Nat) (e q : Int) : Nat × Bool :=
  if q ≤ e then (m * 2 ^ (e - q).toNat, false)
  else
    let d := (q - e).toNat
    let n := m / 2 ^ d
    let rem := m % 2 ^ d
    let up := rm != .rtz && (decide (2 ^ d < 2 * rem) || (decide (2 * rem = 2 ^ d) && n % 2 == 1))
    (if up then n + 1 else n, rem != 0)

/-- Rounds an exact nonzero number to a format: the code and the flags of R249. Tininess is judged on the value rounded with
an unbounded exponent range (log 13). -/
def Fmt.roundFin (f : Fmt) (rm : Rm) (d : Dyad) : Nat × Flags :=
  let m := d.n.natAbs
  let sign := if d.n < 0 then 2 ^ (f.width - 1) else 0
  let top := d.log2
  let q := max top f.emin - f.fbits
  let (n, inexact) := roundUnits rm m d.e q
  let largest := f.decode f.maxCode
  let tooBig := largest.dyad.lt { n := n, e := q }
  let beyond := largest.dyad.lt { n := m, e := d.e }
  let code :=
    if tooBig then (if f.ieee && rm == .rne then f.infCode else f.maxCode)
    else n + (q - (f.emin - f.fbits)).toNat * 2 ^ f.fbits
  let (u, _) := roundUnits rm m d.e (top - f.fbits)
  let tiny := Dyad.lt { n := u, e := top - f.fbits } { n := 1, e := f.emin }
  let nx := inexact || tooBig
  (sign + code, Flags.when beyond flagOF ||| Flags.when (nx || beyond) flagNX ||| Flags.when (tiny && nx) flagUF)

/-- Rounds a value to a format. A NaN gives the canonical one; an infinity overflows by the format's rule (R249, R259, R313). -/
def Fmt.round (f : Fmt) (rm : Rm) (x : Num) : Nat × Flags :=
  let sign (b : Bool) : Nat := if b then 2 ^ (f.width - 1) else 0
  match x with
  | .nan _ => (f.nanCode, 0)
  | .inf b => if f.ieee && rm != .sat then (sign b + f.infCode, 0) else (sign b + f.maxCode, flagOF ||| flagNX)
  | .zero b => (sign b, 0)
  | .fin d => f.roundFin rm d

/-- Rounds a value to an integer (R260). -/
def Dyad.toInt (d : Dyad) (rm : Rm) : Int × Bool :=
  let (n, inexact) := roundUnits rm d.n.natAbs d.e 0
  (if d.n < 0 then -(n : Int) else (n : Int), inexact)

/-! ### Exact arithmetic on values -/

/-- The exact sum of two values, with NV (R249). A zero sum of opposite signs is +0. -/
def Num.add (a b : Num) : Num × Flags :=
  let nv := Flags.when (a.signalling || b.signalling) flagNV
  match a, b with
  | .nan _, _ => (.nan false, nv)
  | _, .nan _ => (.nan false, nv)
  | .inf p, .inf q => if p = q then (.inf p, 0) else (.nan false, flagNV)
  | .inf p, _ => (.inf p, 0)
  | _, .inf q => (.inf q, 0)
  | x, y => (.of (x.dyad.add y.dyad) (x.negative && y.negative && x.dyad.n == 0 && y.dyad.n == 0), 0)

/-- The exact product of two values, with NV (R249). -/
def Num.mul (a b : Num) : Num × Flags :=
  let nv := Flags.when (a.signalling || b.signalling) flagNV
  let neg := a.negative != b.negative
  match a, b with
  | .nan _, _ => (.nan false, nv)
  | _, .nan _ => (.nan false, nv)
  | .inf _, .zero _ => (.nan false, flagNV)
  | .zero _, .inf _ => (.nan false, flagNV)
  | .inf _, _ => (.inf neg, 0)
  | _, .inf _ => (.inf neg, 0)
  | x, y => (.of (x.dyad.mul y.dyad) neg, 0)

/-- The exact `c + a × b`, with NV for 0 × ∞ even when the addend is a NaN (R249). -/
def Num.fma (c a b : Num) : Num × Flags :=
  let (p, f) := a.mul b
  let (r, g) := p.add c
  (r, f ||| g)

/-- Whether a value is less than another; neither is a NaN, and −0 equals +0. -/
def Num.lt (a b : Num) : Bool :=
  match a, b with
  | .inf p, .inf q => p && !q
  | .inf p, _ => p
  | _, .inf q => !q
  | x, y => x.dyad.lt y.dyad

/-- Whether two values are equal as numbers; neither is a NaN. -/
def Num.eqv (a b : Num) : Bool := !a.lt b && !b.lt a

/-- `vfmin` and `vfmax` on codes of a format (R250): −0 orders below +0. -/
def Fmt.minmax (f : Fmt) (wantMax : Bool) (p q : Nat) : Nat × Flags :=
  let a := f.decode p
  let b := f.decode q
  let nv := Flags.when (a.signalling || b.signalling) flagNV
  match a.isNan, b.isNan with
  | true, true => (f.nanCode, nv)
  | true, false => (q, nv)
  | false, true => (p, nv)
  | false, false =>
    let less := a.lt b || (a.eqv b && a.negative && !b.negative)
    (if less != wantMax then p else q, 0)

/-! ### Blocks -/

/-- The largest magnitude of some values, if one is not zero. -/
def largestOf (xs : List Num) : Option Dyad :=
  xs.foldl (fun best x =>
    let a := x.abs.dyad
    if a.n = 0 then best
    else match best with
      | none => some a
      | some b => if b.lt a then some a else some b) none

/-- The flags of a block that holds a NaN or an infinity: NV for a signalling NaN, and NX for an element whose code, 0, differs from its
value (R261). -/
def specialFlags (xs : List Num) : Flags :=
  Flags.when (xs.any Num.signalling) flagNV
    ||| Flags.when (xs.any fun x => match x with | .fin _ => true | .inf _ => true | _ => false) flagNX

/-- QuantMX (R319): the scale, the codes and the flags of R261. -/
def quantMx (f : Fmt) (xs : List Num) : Nat × List Nat × Flags :=
  if xs.any fun x => !x.finite then (0xFF, xs.map fun _ => 0, specialFlags xs)
  else
    let x := match largestOf xs with
      | none => 0
      | some a => (min (max (a.log2 - f.emax + 127) 0) 254).toNat
    let rs := xs.map fun v =>
      match v with
      | .fin d => f.round .sat (.fin { d with e := d.e - ((x : Int) - 127) })
      | v => f.round .sat v
    (x, rs.map (·.1), rs.foldl (fun g r => g ||| (r.2 &&& flagNX)) 0)

/-- The value of an MX element under its block's scale (R318): of a NaN code the canonical NaN, so that a signalling one of E5M2 raises no NV in
an `mma`: the model's choice (log 116). -/
def mxValue (f : Fmt) (scale code : Nat) : Num :=
  if scale = 0xFF then .nan false
  else match f.decode code with
    | .fin d => .fin { d with e := d.e + (scale : Int) - 127 }
    | .nan _ => .nan false
    | v => v

/-- The value of a DXB code with `w` magnitude bits under its block's exponents (R321). -/
def dxbValue (w ea eb code : Nat) : Num :=
  if ea = 0xFF ∨ eb = 0xFF then .nan false
  else
    let m := code % 2 ^ w
    let neg := code / 2 ^ w % 2 == 1
    let e := if code / 2 ^ (w + 1) % 2 = 0 then ea else eb
    Num.of { n := if neg then -(m : Int) else (m : Int), e := (e : Int) - 127 - ((w : Int) - 1) } neg

/-- QuantDXB (R322): the two exponents, the codes and the flags of R261. -/
def quantDxb (w spread : Nat) (xs : List Num) : Nat × Nat × List Nat × Flags :=
  if xs.any fun x => !x.finite then (0xFF, 0xFF, xs.map fun _ => 0, specialFlags xs)
  else
    let mx := 2 ^ w - 1
    let units (d : Dyad) (e : Int) : Nat × Bool := roundUnits .rne d.n.natAbs d.e (e - 127 - ((w : Int) - 1))
    let ea := match largestOf xs with
      | none => spread
      | some a =>
        let e := a.log2 + 127
        let e := if mx < (units a e).1 then e + 1 else e
        (min (max e spread) 254).toNat
    let eb := ea - spread
    let rs := xs.map fun v =>
      let s := if v.negative then 2 ^ w else 0
      let (mb, ib) := units v.dyad eb
      if mb ≤ mx then (2 ^ (w + 1) + s + mb, ib)
      else
        let (ma, ia) := units v.dyad ea
        (s + min ma mx, ia || decide (mx < ma))
    (ea, eb, rs.map (·.1), Flags.when (rs.any (·.2)) flagNX)

end Sys2Proof.Machine
end

