-- ==== Sys2Proof/Machine/Plane.lean ====
section
/-! DEFINITION. The numerics of plane collectives: descriptors (R290), block exponents, alignment, prefixes, reduction and
renormalisation (R373 to R380). -/

namespace Sys2Proof.Machine

/-- Reads a Thresher descriptor (R290). -/
def planeDesc (d : BitVec 512) : PlaneDesc :=
  let op := field d 0 4
  let emode := field d 16 2
  let elems := field d 192 24
  let chunk := field d 224 24
  let peer := field d 256 16
  let shared := decide (5 < op) || decide (4 < field d 8 4) || decide (4 < field d 12 3) || emode == 3
    || (emode == 0 && (op == 3 || op == 5)) || (emode != 2 && field d 24 8 != 0)
    || elems % 32 != 0 || decide (elems < 32) || decide (1048576 < elems)
    || chunk % 32 != 0 || (chunk != 0 && op != 3 && op != 4)
  { op := op, gh := field d 4 4, sfmt := field d 8 4, pout := field d 12 3, emode := emode, cnt := field d 18 6,
    exp := field d 24 8, tile := field d 32 16, dfmt := field d 48 2, src := field d 64 64, dst := field d 128 21,
    elems := elems, chunk := chunk, peer := peer,
    bad := shared || bitAt d 15 || field d 48 2 == 3 || field d 50 14 != 0 || field d 149 43 != 0 || field d 216 8 != 0
      || field d 248 8 != 0 || field d 272 48 != 0 || field d 320 192 != 0
      || (peer != 0 && op != 0 && op != 1 && op != 2),
    badShared := shared
    raw := d }

/-- Whether an operation reduces (R369). -/
def PlaneDesc.reduces (d : PlaneDesc) : Bool := d.op == 3 || d.op == 5

/-- P_out (R290). -/
def PlaneDesc.planes (d : PlaneDesc) : Nat := ([8, 12, 16, 24, 32][d.pout]?).getD 8

/-- The source format (R290). -/
def PlaneDesc.source (d : PlaneDesc) : Fmt := ([Fmt.fp32, Fmt.bf16, Fmt.fp16, Fmt.e4m3, Fmt.e5m2][d.sfmt]?).getD .fp32

/-- The destination format (R290). -/
def destFmt (dfmt : Nat) : Fmt := ([Fmt.fp32, Fmt.bf16, Fmt.fp16][dfmt]?).getD .fp32

/-- The bytes of a source element. -/
def PlaneDesc.sourceWidth (d : PlaneDesc) : Nat := d.source.width / 8

/-- The elements a sender reads: its chunk under AGATH, otherwise all (R369). -/
def PlaneDesc.sourceElems (d : PlaneDesc) : Nat := if d.op = 4 then d.chunk else d.elems

/-- The elements of a receiver's destination: its chunk under RSCAT, otherwise all, which under AGATH are n chunks (R369). -/
def PlaneDesc.destElems (d : PlaneDesc) : Nat := if d.op = 3 then d.chunk else d.elems

/-- The blocks of a source. -/
def PlaneDesc.sourceBlocks (d : PlaneDesc) : Nat := d.sourceElems / 32

/-- Whether a member sends and whether it receives (R369). -/
def PlaneDesc.roles (d : PlaneDesc) (m : Nat) : Bool × Bool :=
  match d.op with
  | 0 => (m != d.peer, m == d.peer)
  | 1 => (m != d.peer, m == d.peer)
  | 2 => (m == d.peer, m != d.peer)
  | _ => (true, true)

/-- The fields that every rank must share (R291). -/
def PlaneDesc.shared (d : PlaneDesc) : List Nat := [d.op, d.sfmt, d.pout, d.emode, d.exp, d.elems, d.chunk]

/-! ### Values -/

/-- A value times a power of two. -/
def Num.shift (x : Num) (k : Int) : Num :=
  match x with
  | .fin d => .fin { d with e := d.e + k }
  | x => x

/-- The values of a block's codes. -/
def blockValues (f : Fmt) (scale : Int) (codes : List Nat) : List Num := codes.map fun c => (f.decode c).shift scale

/-- A block's own exponent (R373). -/
def ownExp (xs : List Num) : Nat :=
  match largestOf (xs.filter Num.finite) with
  | none => 0
  | some a => min (a.log2 + 127).toNat 254

/-- The magnitude of a finite element aligned to an exponent, and whether it saturated (R374). -/
def alignMag (x : Num) (e planes : Nat) : Nat × Bool :=
  let d := x.dyad
  let q : Int := (e : Int) - 127 - (planes - 1 : Nat)
  let n := d.n.natAbs
  let m := if q ≤ d.e then n * 2 ^ (d.e - q).toNat else n / 2 ^ (q - d.e).toNat
  if 2 ^ planes ≤ m then (2 ^ planes - 1, true) else (m, false)

/-- The signs of some values, as a plane. -/
def signPlane (neg : List Bool) : BitVec 32 :=
  (neg.zip (below neg.length)).foldl (fun p b => if b.1 then setField p b.2 1 1 else p) 0

/-- The bits of plane `j`, from 1: bit P − j of each magnitude (R371). -/
def planeBits (mags : List Nat) (planes j : Nat) : BitVec 32 := signPlane (mags.map fun m => bitsOf m (planes - j) 1 == 1)

/-- The value of a prefix: a signed magnitude in units of 2^(E − 127 − (P − 1)) (R375). -/
def prefixValue (e planes : Nat) (neg : Bool) (m : Nat) : Num :=
  Num.of { n := if neg then -(m : Int) else m, e := (e : Int) - 127 - (planes - 1 : Nat) } neg

/-! ### Reduction (R377, R378) -/

/-- The integer that stands for an infinity under the signed maximum and minimum (R377). -/
def bigInt : Int := 2 ^ 62

/-- The UP message of a block (R377), and whether an element saturated. -/
def upOf (combine : AtomicOp) (e planes : Nat) (xs : List Num) : UpMsg × Bool :=
  let one (x : Num) : Int :=
    match x with
    | .nan _ => 0
    | .inf neg => if combine = .add then 0 else if neg then -bigInt else bigInt
    | x => let m := (alignMag x e planes).1
           if x.negative then -(m : Int) else m
  ({ ints := xs.map one,
     nan := signPlane (xs.map Num.isNan),
     pinf := signPlane (xs.map fun x => combine == .add && x == .inf false),
     minf := signPlane (xs.map fun x => combine == .add && x == .inf true),
     ovf := false },
   xs.any fun x => x.finite && (alignMag x e planes).2)

/-- The combine of two signed operands by the units of routers and relays (R388): their 64-bit operation, a sum modulo 2^64. -/
def combineInts (op : AtomicOp) (a b : Int) : Int :=
  signedOf 64 (op.apply 8 (a % 2 ^ 64).toNat (b % 2 ^ 64).toNat)

/-- Whether the exact sum of two operands leaves the signed range (R388). -/
def sumOverflows (a b : Int) : Bool := decide (a + b < -(2 ^ 63)) || decide (2 ^ 63 ≤ a + b)

/-- Combines two UP messages of a block (R371, R377, R388). -/
def UpMsg.combine (op : AtomicOp) (a b : UpMsg) : UpMsg :=
  { ints := List.zipWith (combineInts op) a.ints b.ints,
    nan := a.nan ||| b.nan, pinf := a.pinf ||| b.pinf, minf := a.minf ||| b.minf,
    ovf := a.ovf || b.ovf || (op == .add && (a.ints.zip b.ints).any fun p => sumOverflows p.1 p.2) }

/-- The unsigned maximum of the exponents of two EROUNDs, block by block (R376, R388). -/
def combineExps (a b : List Nat) : List Nat := List.zipWith (AtomicOp.maxu.apply 8) a b

/-- Whether an element of a combined block is finite. -/
def UpMsg.finiteAt (u : UpMsg) (combine : AtomicOp) (e : Nat) : Bool :=
  !bitAt (u.nan ||| u.pinf ||| u.minf) e && (combine == .add || ((u.ints[e]?).getD 0).natAbs != bigInt.natAbs)

/-- Renormalises a combined block at the root (R378). -/
def renormalise (combine : AtomicOp) (estar planes : Nat) (u : UpMsg) : OutBlock :=
  let special := !((below 32).all fun e => u.finiteAt combine e)
  let b := (below 32).foldl (fun k e =>
    let n := ((u.ints[e]?).getD 0).natAbs
    if u.finiteAt combine e ∧ n ≠ 0 then max k (Nat.log2 n + 1) else k) 0
  let er := if b = 0 then estar else estar + b - planes
  { exp := er, special := special || decide (254 < er), aovf := decide (254 < er) || u.ovf,
    mags := u.ints.map fun x => if estar ≤ er then x.natAbs / 2 ^ (er - estar) else x.natAbs * 2 ^ (estar - er),
    sum := u, estar := estar }

/-- The FP32 code of an element of a special block (R378). Each receiver rounds it toward zero to its own DFMT, which gives
RoundRTZ(S[e] · u, DFMT), since FP32 holds every number of the other destination formats (log 80). -/
def OutBlock.code (o : OutBlock) (combine : AtomicOp) (planes e : Nat) : Nat :=
  let f := Fmt.fp32
  let x := (o.sum.ints[e]?).getD 0
  let p := bitAt o.sum.pinf e
  let m := bitAt o.sum.minf e
  let v : Num :=
    if bitAt o.sum.nan e ∨ (p ∧ m) then .nan false
    else if p ∨ m then .inf m
    else if combine ≠ .add ∧ x.natAbs = bigInt.natAbs then .inf (decide (x < 0))
    else Num.of { n := x, e := (o.estar : Int) - 127 - (planes - 1 : Nat) } false
  (f.round .rtz v).1

/-- The signs of a delivered block: a zero sum is positive (R378). -/
def OutBlock.signs (o : OutBlock) : BitVec 32 := signPlane (o.sum.ints.map fun x => decide (x < 0))

end Sys2Proof.Machine
end

