-- ==== Sys2Proof/Machine/Channel.lean ====
section
/-! DEFINITION. Rendezvous channels (R108 to R116, R227 to R229) and what ends a slot's process (R60, R111, R296). -/

namespace Sys2Proof.Machine

/-! ### Status, nodes and messages -/

/-- The STATUS codes of `wchst` (R113). -/
def chOk : Nat := 0
def chTimeout : Nat := 1
def chMismatch : Nat := 2
def chBroken : Nat := 3
def chVictim : Nat := 4

/-- A message of the CHN network between endpoints or nodes: it leaves 4 cycles after the event that sends it and is counted as
sent (R215, R227). -/
def State.chSend (s : State) (c dst : Nat) (body : Body) (extra : Nat) : State :=
  (s.modCore c fun k => { k with sentTotal := k.sentTotal + 1 }).sendTo .chn c dst body 4 (4 + extra)

/-- A channel message lands: it leaves the network and is counted as received. -/
def State.chLand (s : State) (id : Nat) (m : Msg) : State :=
  (s.drop id).modCore m.dst fun k => { k with receivedTotal := k.receivedTotal + 1 }

/-- An instruction of a slot completes with a status, whether the slot is issuing or not (R113). -/
def Slot.chDone (t : Slot) (status ep : Nat) : Slot := (t.chStatus status ep).retire

/-! ### Receives (R110) -/

/-- A receive of a slot ends: its destination, if it still waits for the receive, gets the value or the state given, and `wchst`
records the outcome (R47, R110). -/
def Slot.endRecv (t : Slot) (r : Recv) (v : Option VWord) (fe : FE) (status : Nat) : Slot :=
  let t := { t with recvs := t.recvs.filter (·.serial != r.serial) }
  let left : RegSt := { fe := fe, prod := none }
  let t := match r.dst with
    | .x d =>
      if (t.xState d).prod = some (Producer.receive r.ch) then
        (match v with
          | some v => t.setX d (v.setWidth 64)
          | none => t.markX d left)
      else t
    | .v d =>
      if (t.vState d).prod = some (Producer.receive r.ch) then
        (match v with
          | some v => t.setV d v
          | none => t.markV d left)
      else t
    | .acc _ => t
  t.chStatus status r.ch

/-- Whether a slot's context may have been saved (R297). -/
def Slot.saveable (t : Slot) : Bool := t.hold || t.st == .faulted

/-- An offer is taken by the receive outstanding at its endpoint (R110, R227). If the slot's context may have been saved the endpoint keeps
the value too, for an `sload`. The answer is whether the widths differ. -/
def State.take (s : State) (c ep : Nat) (e : Endpoint) (o : Offer) : Bool × State :=
  let wrong := e.recvOut != some o.vec
  let s := s.modEndpoint c ep fun e => { e with
    recvOut := none
    offer := none }
  let t := s.slot c e.owner
  let r := t.recvs.find? fun r => r.ch == ep
  let s := if t.saveable ∨ r.isNone then s.modEndpoint c ep fun e => { e with kept := some (if wrong then none else some o.value) } else s
  match r with
  | some r =>
    (wrong, s.modNode c e.owner fun t =>
      if wrong then t.endRecv r none .poisoned chMismatch else t.endRecv r (some o.value) .full chOk)
  | none => (wrong, s)

/-- A send ends with a status: a withdrawn one whose slot is a deadlock victim traps with cause 26, and one at its limit with cause 32
under `wtmo`.TRAP (R109, R235). `e` is its endpoint. -/
def State.endSend (s : State) (c ep : Nat) (e : Endpoint) (status : Nat) : State :=
  let s := s.modEndpoint c ep fun e => { e with victim := none }
  if status ≠ chTimeout then s.modNode c e.owner fun t => t.chDone status ep
  else match e.victim with
    | some count =>
      (s.modSlot c e.owner fun t => t.chStatus chVictim ep).lateTrap c e.owner 26 (BitVec.ofNat 64 count) (BitVec.ofNat 64 ep)
    | none =>
      if (s.slot c e.owner).limitTraps then s.lateTrap c e.owner 32 0 0
      else s.modNode c e.owner fun t => t.chDone chTimeout ep

/-- The outcome of an offer reaches its sending end (R109, R227): it ends the blocked send, or is kept while the slot is held or saved. -/
def State.sendOutcome (s : State) (c ep status : Nat) : State :=
  match s.endpoint c ep with
  | none => s
  | some e =>
    let s := s.modEndpoint c ep fun e => { e with
      sendPending := false
      withdrawing := false
      recvRec := if status = chTimeout then e.recvRec else none }
    let t := s.slot c e.owner
    match t.waitKind with
    | some (.send n _) =>
      if n ≠ ep ∨ t.hold then s.modEndpoint c ep fun e => { e with ackKept := some status } else s.endSend c ep e status
    | _ => s.modEndpoint c ep fun e => { e with ackKept := some status }

/-- An ACK reaches a sending end (R109): a send that is withdrawing completes with OK, its value taken. -/
def State.ackAt (s : State) (c ep : Nat) (wrong : Bool) : State :=
  s.sendOutcome c ep (if wrong ∧ ¬ (s.endpoint c ep).any (·.withdrawing) then chMismatch else chOk)

/-- The ACK of a taken offer goes to the sending end: at once on one core, as a message otherwise (R112). -/
def State.acknowledge (s : State) (c : Nat) (e : Endpoint) (wrong : Bool) : State :=
  if e.peerCore = c then s.ackAt c e.peerEp wrong else s.chSend c e.peerCore (.chan e.peerEp (.ack wrong)) 0

/-- An offer reaches a receiving end: an outstanding receive takes it, or it is posted there (R227, R228). -/
def State.offerAt (s : State) (c ep : Nat) (o : Offer) : State :=
  match s.endpoint c ep with
  | none => s
  | some e =>
    if e.broken then s
    else if e.recvOut.isSome then
      let (wrong, s) := s.take c ep e o
      s.acknowledge c e wrong
    else s.modEndpoint c ep fun e => { e with offer := some o }

/-- A RECV reaches a sending end (R227). -/
def State.recvAt (s : State) (c ep pid : Nat) : State := s.modEndpoint c ep fun e => { e with recvRec := some pid }

/-- A WITHDRAWN reaches a sending end whose offer is being withdrawn (R109, R235): the send ends as a timeout or as the victim's. -/
def State.withdrawnAt (s : State) (c ep : Nat) : State :=
  if (s.endpoint c ep).any (·.withdrawing) then s.sendOutcome c ep chTimeout else s

/-- A WITHDRAW reaches an end (R227, R228): a posted offer is removed and WITHDRAWN returned; an offer already taken is not affected.
At a sending end it clears the RECV record. -/
def State.withdrawAt (s : State) (c ep : Nat) : State :=
  match s.endpoint c ep with
  | none => s
  | some e =>
    if e.sending then s.modEndpoint c ep fun e => { e with recvRec := none }
    else if e.offer.isNone then s
    else
      let s := s.modEndpoint c ep fun e => { e with offer := none }
      if e.peerCore = c then s.withdrawnAt c e.peerEp else s.chSend c e.peerCore (.chan e.peerEp .withdrawn) 0

/-- An end sends WITHDRAW to the other one. -/
def State.withdrawTo (s : State) (c : Nat) (e : Endpoint) : State :=
  if e.peerCore = c then s.withdrawAt c e.peerEp else s.chSend c e.peerCore (.chan e.peerEp .withdraw) 0

/-- A blocked send withdraws its offer (R109, R235). -/
def State.withdrawSend (s : State) (c i ch : Nat) (victim : Option Nat) : State :=
  let s := s.modNode c i fun t =>
    { t with wait := t.wait.map fun w => { w with kind := .send ch .withdrawing } }
  let s := s.modEndpoint c ch fun e => { e with
    withdrawing := true
    victim := victim }
  match s.endpoint c ch with
  | some e => s.withdrawTo c e
  | none => s

/-- An outstanding receive is withdrawn with a status: its destination is EMPTY, with no producer (R110, R235). -/
def State.withdrawRecv (s : State) (c i : Nat) (r : Recv) (status : Nat) : State :=
  let s := s.modNode c i fun t => t.endRecv r none .empty status
  let s := s.modEndpoint c r.ch fun e => { e with recvOut := none }
  match s.endpoint c r.ch with
  | some e => s.withdrawTo c e
  | none => s

/-! ### Broken channels (R111) -/

/-- A slot one of whose armed entries has broken: an `alt.wait` it is blocked in will complete at its next sample, so that it waits on no
one (R116, R230). -/
def Slot.altBroken (t : Slot) (ep : Nat) : Slot :=
  match t.waitKind with
  | some (.altWait _ _) =>
    if t.alt.toList.contains (some ep) then { t with wait := t.wait.map fun w => { w with kind := .resumed } } else t
  | _ => t

/-- A slot whose send has met a BROKEN endpoint: it completes, or, if it is held, will complete at its retest, so that it is no node after
its release (R111, R230). -/
def Slot.sendBroken (t : Slot) (ep : Nat) : Slot :=
  if t.hold then { t with wait := t.wait.map fun w => { w with kind := .resumed } } else t.chDone chBroken ep

/-- An end becomes BROKEN: a pending send of its owner completes with BROKEN and an outstanding receive ends with it. -/
def State.breakAt (s : State) (c ep : Nat) : State :=
  match s.endpoint c ep with
  | none => s
  | some e =>
    let s := s.modEndpoint c ep fun e => { e with
      broken := true
      offer := none
      recvOut := none
      sendPending := false
      withdrawing := false
      victim := none }
    let t := s.slot c e.owner
    let s := match t.waitKind with
      | some (.send n _) => if n = ep then s.modNode c e.owner fun t => t.sendBroken ep else s
      | _ => s
    let s := s.modNode c e.owner fun t => t.altBroken ep
    match (s.slot c e.owner).recvs.find? fun r => r.ch == ep with
    | some r => s.modNode c e.owner fun t => t.endRecv r none .empty chBroken
    | none => s

/-- An endpoint of a stopping process breaks, and the other end learns of it. -/
def State.breakChannel (s : State) (c ep : Nat) : State :=
  match s.endpoint c ep with
  | none => s
  | some e =>
    if e.broken then s
    else
      let s := s.breakAt c ep
      if e.peerCore = c then s.breakAt c e.peerEp else s.chSend c e.peerCore (.chan e.peerEp .broken) 0

/-- Releases the accumulators that a slot owns (R60, R279). -/
def Core.releaseAccs (k : Core) (i : Nat) : Core :=
  { k with acc := vecMap (fun a => if a.owner = some i then { a with owner := none } else a) k.acc }

/-- A register whose outstanding producer's result will be discarded (R49). -/
def RegSt.orphan (g : RegSt) : RegSt := { g with prod := none }

/-- The process of a slot ends (R49, R60, R296): its producers are discarded, its accumulators released, its token, `alt` entries,
reservation and pending fence cleared, its channels broken, and the slot is STOPPED without a process. A pending trap record is discarded
(R341), a fault record still waits for its place (R348). -/
def State.endProcess (s : State) (c i : Nat) : State :=
  let s := s.modCore c fun k => { k with faults := k.faults ++ (k.slot i).pendFault.toList.map fun r => (i, r) }
  let s := s.modSlot c i fun t =>
    let t := t.endWait
    { t with
        st := .stopped, hold := false, pid := none, token := false, resv := none, alt := Vector.replicate 8 none, fence := none,
        xs := vecMap RegSt.orphan t.xs, vs := vecMap RegSt.orphan t.vs, recvs := [], pendTrap := none, pendFault := none,
        recsHeld := false, leaving := false, stopped := [], marks := [] }
  let s := ((s.core c).aside.filter fun a => a.1 == i).foldl (fun s a => s.known c i a.2.2) s
  let s := s.modCore c fun k => { k with
    aside := k.aside.filter fun a => a.1 != i
    sows := k.sows.filter fun a => a.1 != i }
  let s := s.modCore c fun k => (k.releaseAccs i).discardSfu i
  ((((s.core c).eps.filter fun p => p.2.owner == i).map (·.1)).foldl (fun s ep => s.breakChannel c ep) s).mayRetire c

/-! ### The instructions -/

/-- The issuing slot's endpoint, if it is bound, its own, and the end the instruction needs (R108). -/
def State.ownEnd (s : State) (ch : Nat) (sending : Option Bool) : Option Endpoint :=
  match s.endpoint s.curCore ch with
  | some e => if e.owner = s.curSlot ∧ sending.all (· == e.sending) then some e else none
  | none => none

/-- Completes a channel instruction of the issuing slot with a status. -/
def State.chFinish (s : State) (status ch : Nat) : State := s.modNode s.curCore s.curSlot fun t => t.chDone status ch

/-- The offer of a blocked send leaves for the receiving end (R109). -/
def State.postOffer (s : State) (c ep : Nat) (e : Endpoint) (o : Offer) : State :=
  let s := s.modEndpoint c ep fun e => { e with sendPending := true }
  if e.peerCore = c then s.offerAt c e.peerEp o
  else s.chSend c e.peerCore (.chan e.peerEp (.offer o)) (if o.vec then 8 else 0)

/-- A send that waits, or was restored waiting (R109, R353): a kept ACK or a broken channel ends it, otherwise it stays blocked. -/
def State.sendWaits (s : State) (ch : Nat) (e : Endpoint) (k : WaitKind) : State :=
  match e.ackKept with
  | some st =>
    (s.modEndpoint s.curCore ch fun e => { e with ackKept := none }).endSend s.curCore ch e st
  | none => if e.broken then s.chFinish chBroken ch else s.block k

/-- `chs` and `chsv` (R109, R112). -/
def sendOp (ch : BitVec 8) (src : RegRef) (s : State) : State :=
  let n := ch.toNat
  match s.me.waitKind, s.ownEnd n (some true) with
  | some (.send m ph), some e => if m = n then s.sendWaits n e (.send n ph) else s.block (.send m ph)
  | _, own =>
    reading [src] s fun s =>
      match own with
      | none => s.trap 29 (ch.setWidth 64)
      | some e =>
        if e.sendPending ∨ e.ackKept.isSome then s.sendWaits n e (.send n (if e.withdrawing then .withdrawing else .offered))
        else if e.broken then s.chFinish chBroken n
        else
          let vec := match src with | .v _ => true | _ => false
          let value := match src with | .x r => (s.x r).setWidth 1024 | .v r => s.v r | .acc _ => 0
          let o : Offer := { vec := vec, value := value, pid := s.me.pidWord }
          if s.me.accsWithin allPaths e.scope ≠ [] then s.block (.send n (.release o))
          else
            match (if e.peerCore = s.curCore then s.endpoint s.curCore e.peerEp else none) with
            | some p =>
              if p.recvOut.isSome then
                let (wrong, s) := s.take s.curCore e.peerEp p o
                (s.modEndpoint s.curCore n fun e => { e with recvRec := none }).chFinish (if wrong then chMismatch else chOk) n
              else (s.block (.send n .offered)).postOffer s.curCore n e o
            | none => (s.block (.send n .offered)).postOffer s.curCore n e o

/-- `chr` and `chrv` (R110, R112). -/
def recvOp (ch : BitVec 8) (dst : RegRef) (s : State) : State :=
  let n := ch.toNat
  match s.ownEnd n (some false) with
  | none => s.trap 29 (ch.setWidth 64)
  | some e =>
    writing dst s (ch := some n) fun s =>
      match s.me.recvAhead n with
      | some r => s.block (.behind n r.dst)
      | none =>
        let empty := s.markReg s.curCore s.curSlot dst { fe := .empty, prod := none }
        if e.broken then empty.chFinish chBroken n
        else
          let vec := match dst with | .v _ => true | _ => false
          let (serial, s) := s.fresh
          let r : Recv := { ch := n, dst := dst, scope := e.scope, serial := serial, timed := true }
          let s := s.markReg s.curCore s.curSlot dst { fe := .empty, prod := some (.receive n) }
          let s := (s.modMe fun t => { t with recvs := t.recvs ++ [r] }).modEndpoint s.curCore n fun e =>
            { e with
              recvOut := some vec
              kept := none }
          match e.offer with
          | some o =>
            let (wrong, s) := s.take s.curCore n { e with recvOut := some vec } o
            (s.acknowledge s.curCore e wrong).retire
          | none =>
            let s := if s.me.limit = 0 then s
              else s.schedule (s.cycle + s.me.limit) 2 (.event (.receiveTimeout s.curCore s.curSlot serial))
            let s := if e.peerCore = s.curCore then s.recvAt s.curCore e.peerEp s.me.pidWord
              else s.chSend s.curCore e.peerCore (.chan e.peerEp (.recv s.me.pidWord)) 0
            s.retire

/-- CHS (R109). -/
def execChs (ch : BitVec 8) (rs1 : BitVec 5) (s : State) : Out := ok (sendOp ch (.x rs1) s)

/-- CHSV (R109). -/
def execChsv (ch : BitVec 8) (vs1 : BitVec 4) (s : State) : Out := ok (sendOp ch (.v vs1) s)

/-- CHR (R110). -/
def execChr (rd : BitVec 5) (ch : BitVec 8) (s : State) : Out := ok (recvOp ch (.x rd) s)

/-- CHRV (R110). -/
def execChrv (vd : BitVec 4) (ch : BitVec 8) (s : State) : Out := ok (recvOp ch (.v vd) s)

/-- The bits of `chprobe` (R114). -/
def Endpoint.probeBits (e : Endpoint) : Nat :=
  bit e.offer.isSome + bit e.recvOut.isSome * 2 + bit (e.sending && e.sendPending) * 4 + bit e.broken * 8
    + bit (e.offer.any (·.vec)) * 16

/-- CHPROBE (R114). -/
def execChprobe (rd : BitVec 5) (ch : BitVec 8) (s : State) : Out :=
  ok (match s.ownEnd ch.toNat none with
    | none => s.trap 29 (ch.setWidth 64)
    | some e => writing (.x rd) s fun s => s.finishX rd (BitVec.ofNat 64 e.probeBits))

/-- ALT_ON (R115). -/
def execAltOn (n : BitVec 3) (ch : BitVec 8) (s : State) : Out :=
  ok (match s.ownEnd ch.toNat (some false) with
    | none => s.trap 29 (ch.setWidth 64)
    | some _ => (s.modMe fun t => { t with alt := vecSet t.alt n.toNat (some ch.toNat) }).retire)

/-- ALT_OFF (R115). -/
def execAltOff (n : BitVec 3) (s : State) : Out := ok (s.modMe fun t => { t with alt := vecSet t.alt n.toNat none }).retire

/-- ALT_CLR (R115). -/
def execAltClr (s : State) : Out := ok (s.modMe fun t => { t with alt := Vector.replicate 8 none }).retire

/-- ANEXT of `wchst` (R113). -/
def Slot.anext (t : Slot) : Nat := field t.u.wchst 16 3

/-- The armed `alt` entries, from ANEXT on, with the endpoints they arm (R116). -/
def Slot.armed (t : Slot) : List (Nat × Nat) :=
  (rangeFrom 8 t.anext).filterMap fun n => (vecGet t.alt (n % 8) none).map fun ch => (n % 8, ch)

/-- ALT_WAIT (R116), at each sample. -/
def execAltWait (rd : BitVec 5) (tmo skip : Bool) (s : State) : Out :=
  ok (writing (.x rd) s fun s =>
    let armed := s.me.armed
    if armed.isEmpty then s.finishX rd 10
    else
      match armed.find? fun p => (s.endpoint s.curCore p.2).any fun e => e.offer.isSome || e.broken with
      | some (e, _) =>
        (s.modU fun u => { u with wchst := setField u.wchst 16 3 (e + 1) }).finishX rd (BitVec.ofNat 64 e)
      | none => if skip then s.finishX rd 9 else s.block (.altWait rd tmo))

/-! ### The events -/

/-- SEND_RELEASE: the earlier accesses of a blocked send are performed and its offer leaves (R109). -/
def execSendRelease (core slot serial : Nat) (s : State) : Out :=
  ok (match (s.slot core slot).wait with
    | some w =>
      match w.kind, w.serial == serial with
      | .send ch (.release o), true =>
        match s.endpoint core ch with
        | some e =>
          if e.broken then s.modNode core slot fun t => t.chDone chBroken ch
          else
            let s := s.modNode core slot fun t => { t with wait := some { w with kind := .send ch .offered } }
            s.postOffer core ch e o
        | none => s
      | _, _ => s
    | none => s)

/-- What a channel message does where it lands. -/
def State.chEvent (s : State) (id : Nat) (f : State → Nat → Nat → ChMsg → State) : State :=
  match s.msg id with
  | some m =>
    match m.body with
    | .chan ep x => f (s.chLand id m) m.dst ep x
    | _ => s
  | none => s

/-- OFFER (R227). -/
def execOffer (msg : Nat) (s : State) : Out :=
  ok (s.chEvent msg fun s c ep x => match x with | .offer o => s.offerAt c ep o | _ => s)

/-- ACK (R227). -/
def execAck (msg : Nat) (s : State) : Out :=
  ok (s.chEvent msg fun s c ep x => match x with | .ack wrong => s.ackAt c ep wrong | _ => s)

/-- RECV (R227). -/
def execRecv (msg : Nat) (s : State) : Out :=
  ok (s.chEvent msg fun s c ep x => match x with | .recv pid => s.recvAt c ep pid | _ => s)

/-- WITHDRAW (R227). -/
def execWithdraw (msg : Nat) (s : State) : Out :=
  ok (s.chEvent msg fun s c ep x => match x with | .withdraw => s.withdrawAt c ep | _ => s)

/-- WITHDRAWN (R227). -/
def execWithdrawn (msg : Nat) (s : State) : Out :=
  ok (s.chEvent msg fun s c ep x => match x with | .withdrawn => s.withdrawnAt c ep | _ => s)

/-- BROKEN (R111). -/
def execBroken (msg : Nat) (s : State) : Out :=
  ok (s.chEvent msg fun s c ep x => match x with | .broken => s.breakAt c ep | _ => s)

/-- RECEIVE_TIMEOUT: a receive's own limit expires with no offer taken (R110). -/
def execReceiveTimeout (core slot serial : Nat) (s : State) : Out :=
  ok (match (s.slot core slot).recvs.find? fun r => r.serial == serial with
    | some r => s.withdrawRecv core slot r chTimeout
    | none => s)

end Sys2Proof.Machine
end

