-- ==== Sys2Proof/Machine/Csr.lean ====
section
/-! DEFINITION. The CSRs: which exist, who may reach them, what they read and what a write stores (R26 to R28, R46, R52 to R55, R80,
R94, R113, R144, R145, R196, R197, R242, R243, R270 to R272, R315, R341, R409). -/

namespace Sys2Proof.Machine

/-! ### Reads -/

/-- `wslot` (R54). -/
def State.wslot (s : State) : Word :=
  BitVec.ofNat 64 (s.me.pidWord * 2 ^ 32 + s.wslotLow s.curCore s.curSlot)

/-- A trap record as its four dwords, with the depth of the queue (R339). -/
def TrapRec.dwords (r : TrapRec) (depth : Nat) : List Word :=
  [BitVec.ofNat 64 (r.slot + 16 + modeCode r.mode * 2 ^ 5 + bit r.tgt * 2 ^ 7 + r.cause * 2 ^ 8 + depth * 2 ^ 16 + r.word.toNat * 2 ^ 32),
   r.pc, r.tval, r.extra]

/-- `wtrapq` (R341): dword WSEL of the record at the head; 0 when the queue is empty. -/
def Core.readTrapq (k : Core) : Word :=
  match k.trapq with
  | [] => 0
  | r :: _ => ((r.dwords k.trapq.length)[k.trapqSel.toNat]?).getD 0

/-- `wdmap` (R94): SEL and the entry it selects. -/
def Core.readDmap (k : Core) : Word :=
  BitVec.ofNat 64 (k.dmapSel.toNat * 2 ^ 48 + ((KMap.get k.dmap k.dmapSel.toNat).getD 0).toNat)

/-- The bits of mstatus that `sstatus` shows, UXL among them (R46). -/
def sstatusMask : Word := 0x3000C0122#64

/-- What a CSR of the issuing slot reads; none where no table lists the number (R26, R27, R46). `wgdata` reads over the sideband
(R409). -/
def State.csrRead (s : State) (n : Nat) : Option Word :=
  let u := s.me.u
  let c := s.me.c
  if n = 0x800 then some u.wtmo
  else if n = 0x801 then some u.wfetrap
  else if n = 0x802 then some u.wvtype
  else if n = 0x803 then some u.wvflags
  else if n = 0x804 then some u.wfmt
  else if n = 0x805 then some u.wscl
  else if n = 0x806 then some u.wamax
  else if n = 0x807 then some u.wmstr
  else if n = 0x808 then some u.wchst
  else if n = 0xC80 then some s.wslot
  else if n = 0xC81 then some s.here.wsheaf
  else if n = 0xC82 then some (s.clock (dieOf s.curCore))
  else if n = 0x5C0 then some s.here.readTrapq
  else if n = 0x5C1 then some u.wwinsel
  else if n = 0x5C2 then some (vecGet s.here.win u.wwinsel.toNat 0)
  else if n = 0x5C3 then some s.here.wasid
  else if n = 0x5C4 then some s.here.readDmap
  else if n = 0x5C5 then some u.wlocwin
  else if n = 0x7C0 then some u.wgsel
  else if 0x7C1 ≤ n ∧ n < 0x800 then some 0
  else if n = 0xF11 then some 0
  else if n = 0xF12 then some 0x8000000000000057
  else if n = 0xF13 then some 0x10000
  else if n = 0xF14 then some (BitVec.ofNat 64 (s.wslotLow s.curCore s.curSlot))
  else if n = 0x300 then some c.mstatus
  else if n = 0x301 then some 0x8000000000941101
  else if n = 0x302 then some c.medeleg
  else if n = 0x303 ∨ n = 0x304 ∨ n = 0x344 ∨ n = 0x104 ∨ n = 0x144 then some 0
  else if n = 0x305 then some c.mtvec
  else if n = 0x340 then some c.mscratch
  else if n = 0x341 then some c.mepc
  else if n = 0x342 then some c.mcause
  else if n = 0x343 then some c.mtval
  else if n = 0x100 then some (c.mstatus &&& sstatusMask)
  else if n = 0x105 then some c.stvec
  else if n = 0x140 then some c.sscratch
  else if n = 0x141 then some c.sepc
  else if n = 0x142 then some c.scause
  else if n = 0x143 then some c.stval
  else if n = 0x180 then some c.satp
  else none

/-! ### Writes -/

/-- What a write stores: the old value outside the writable bits. -/
def keep (mask old new : Word) : Word := (old &&& ~~~mask) ||| (new &&& mask)

/-- The writable bits of `mstatus`: SIE, MIE, SPIE, MPIE, SPP, MPP, MPRV, SUM, MXR, TVM, TSR (R46). -/
def mstatusMask : Word := 0x5E19AA#64

/-- A write of mstatus under a mask; MPP keeps its value when 10 is written (log 18). -/
def writeMstatus (mask old new : Word) : Word :=
  let w := keep mask old new
  if field w 11 2 = 2 then setField w 11 2 (field old 11 2) else w

/-- The writable bits of `medeleg`: the causes of R338. -/
def medelegMask : Word := 0x1FF00ABFE#64

/-- A write of `wvtype`: a reserved FK or SEW leaves its field unchanged (R242). -/
def writeVtype (old new : Word) : Word :=
  BitVec.ofNat 64 (bit (bitAt new 7) * 128 + (if field new 3 2 = 3 then field old 3 2 else field new 3 2) * 8
    + (if field new 0 2 = 3 then field old 0 2 else field new 0 2))

/-- A write of `wfmt`: SPREAD 0 leaves SPREAD unchanged (R315). -/
def writeFmt (old new : Word) : Word :=
  BitVec.ofNat 64 ((if field new 8 4 = 0 then field old 8 4 else field new 8 4) * 256 + field new 0 4)

/-- A write of `wchst`: a STATUS of 5 to 15 leaves STATUS unchanged (R113). -/
def writeChst (old new : Word) : Word :=
  BitVec.ofNat 64 (field new 8 11 * 256 + (if field new 0 4 < 5 then field new 0 4 else field old 0 4))

/-- A write of a register with MODE [63:60], ASID [53:44] and PPN [43:0]: a MODE other than 0 and 9 is ignored entirely (R46, R197). -/
def writeSatp (old new : Word) : Word :=
  if field new 60 4 = 0 ∨ field new 60 4 = 9 then new &&& 0xF03FFFFFFFFFFFFF#64 else old

/-- A custom CSR of the slot after a write. -/
def UCsrs.write (u : UCsrs) (n : Nat) (v : Word) : UCsrs :=
  if n = 0x800 then { u with wtmo := v &&& 0x800000FFFFFFFFFF#64 }
  else if n = 0x801 then { u with wfetrap := v &&& 0x00FFFFFFFFFFFFFE#64 }
  else if n = 0x802 then { u with wvtype := writeVtype u.wvtype v }
  else if n = 0x803 then { u with wvflags := v &&& 0x3F#64 }
  else if n = 0x804 then { u with wfmt := writeFmt u.wfmt v }
  else if n = 0x805 then { u with wscl := v &&& 0xFFFFFF#64 }
  else if n = 0x806 then { u with wamax := v }
  else if n = 0x807 then { u with wmstr := v &&& 0x0000FFF0FFC0FFC0#64 }
  else if n = 0x808 then { u with wchst := writeChst u.wchst v }
  else if n = 0x5C1 then { u with wwinsel := v &&& 7#64 }
  else if n = 0x5C5 then { u with wlocwin := v &&& 0xE1FF01FFE1FF01FF#64 }
  else if n = 0x7C0 then { u with wgsel := v &&& 0x3FFFFF8#64 }
  else u

/-- A standard CSR of the slot after a write (R46). The trap vectors accept Direct mode only and a saved pc is a multiple of 4. -/
def Csrs.write (c : Csrs) (n : Nat) (v : Word) : Csrs :=
  if n = 0x300 then { c with mstatus := writeMstatus mstatusMask c.mstatus v }
  else if n = 0x100 then { c with mstatus := writeMstatus 0xC0122#64 c.mstatus v }
  else if n = 0x302 then { c with medeleg := v &&& medelegMask }
  else if n = 0x305 then { c with mtvec := v &&& ~~~3#64 }
  else if n = 0x340 then { c with mscratch := v }
  else if n = 0x341 then { c with mepc := v &&& ~~~3#64 }
  else if n = 0x342 then { c with mcause := v }
  else if n = 0x343 then { c with mtval := v }
  else if n = 0x105 then { c with stvec := v &&& ~~~3#64 }
  else if n = 0x140 then { c with sscratch := v }
  else if n = 0x141 then { c with sepc := v &&& ~~~3#64 }
  else if n = 0x142 then { c with scause := v }
  else if n = 0x143 then { c with stval := v }
  else if n = 0x180 then { c with satp := writeSatp c.satp v }
  else c

/-- A write of a CSR of the issuing slot or its core. Pops of the trap queue, die-map entries and inbound windows are events of their
own, the last at the end of the cycle (R147). -/
def State.csrWrite (s : State) (n : Nat) (v : Word) : State :=
  let c := s.curCore
  if n = 0x5C0 then
    let s := s.modHere fun k => { k with trapqSel := v.setWidth 2 }
    if bitAt v 2 then s.now (.wtrapqPop c) else s
  else if n = 0x5C2 then s.atEnd (.wwindata c s.me.u.wwinsel.toNat v)
  else if n = 0x5C3 then s.modHere fun k => { k with wasid := writeSatp k.wasid v }
  else if n = 0x5C4 then
    if bitAt v 63 then s.now (.wdmapWrite c v) else s.modHere fun k => { k with dmapSel := BitVec.ofNat 8 (field v 48 8) }
  else s.modMe fun t => { t with
    u := t.u.write n v
    c := t.c.write n v }

/-! ### The instructions -/

/-- Whether a CSR is read-only (R27): the numbers of the read-only space, and misa, which R46 lists as RO. -/
def csrReadOnly (n : Nat) : Bool := n / 1024 == 3 || n == 0x301

/-- Whether an access to a CSR is legal for the issuing slot (R26, R27): the number is listed, the mode reaches it, a read-only CSR is
not written, and satp is not touched from S-mode under TVM. -/
def State.csrLegal (s : State) (n : Nat) (writes : Bool) : Bool :=
  (s.csrRead n).isSome && decide (n / 256 % 4 ≤ modeCode s.me.mode) && !(writes && csrReadOnly n)
    && !(n == 0x180 && s.me.mode == .s && bitAt s.me.c.mstatus 20)

/-- What a CSR operation writes: 1 write, 2 set, 3 clear. -/
def csrNew (op : Nat) (old src : Word) : Word := if op = 1 then src else if op = 2 then old ||| src else old &&& ~~~src

/-- A CSR instruction (R27, R341): the read comes before the write. -/
def csrOp (op : Nat) (writes : Bool) (rd : BitVec 5) (src : State → Word) (csr : BitVec 12) (s : State) : State :=
  let n := csr.toNat
  if s.csrLegal n writes = false then s.illegal
  else writing (.x rd) s fun s =>
    if n = 0x7C1 then
      match s.me.waitKind with
      | some (.wgdata d o x) => s.block (.wgdata d o x)
      | _ =>
        let s := s.block (.wgdata rd (if writes then op else 0) (src s))
        let s' := (s.draw).2
        match s.me.wait with
        | some w => s'.at (s.cycle + Config.serviceTime s.free % 3500) (.wgdata s.curCore s.curSlot w.serial)
        | none => s
    else
      let old := (s.csrRead n).getD 0
      let new := csrNew op old (src s)
      ((if writes then s.csrWrite n new else s).setX rd old).retire

/-- A CSR instruction whose operand is a register. -/
def csrReg (op : Nat) (rd rs1 : BitVec 5) (csr : BitVec 12) (s : State) : State :=
  let writes := op == 1 || rs1 != 0
  if s.csrLegal csr.toNat writes = false then s.illegal
  else reading [.x rs1] s (fun s => csrOp op writes rd (fun s => s.x rs1) csr s) (some (.x rd))

/-- A CSR instruction whose operand is a 5-bit immediate. -/
def csrImm (op : Nat) (rd uimm : BitVec 5) (csr : BitVec 12) (s : State) : State :=
  csrOp op (op == 1 || uimm != 0) rd (fun _ => uimm.setWidth 64) csr s

/-- CSRRW (R27). -/
def execCsrrw (rd rs1 : BitVec 5) (csr : BitVec 12) (s : State) : Out := ok (csrReg 1 rd rs1 csr s)

/-- CSRRS (R27). -/
def execCsrrs (rd rs1 : BitVec 5) (csr : BitVec 12) (s : State) : Out := ok (csrReg 2 rd rs1 csr s)

/-- CSRRC (R27). -/
def execCsrrc (rd rs1 : BitVec 5) (csr : BitVec 12) (s : State) : Out := ok (csrReg 3 rd rs1 csr s)

/-- CSRRWI (R27). -/
def execCsrrwi (rd uimm : BitVec 5) (csr : BitVec 12) (s : State) : Out := ok (csrImm 1 rd uimm csr s)

/-- CSRRSI (R27). -/
def execCsrrsi (rd uimm : BitVec 5) (csr : BitVec 12) (s : State) : Out := ok (csrImm 2 rd uimm csr s)

/-- CSRRCI (R27). -/
def execCsrrci (rd uimm : BitVec 5) (csr : BitVec 12) (s : State) : Out := ok (csrImm 3 rd uimm csr s)

/-! ### The events -/

/-- The pending trap record of a slot that is to be posted: one that came with a restored context waits for the release of its slot
(R353). -/
def Slot.toPost (t : Slot) : Option TrapRec := if t.recsHeld then none else t.pendTrap

/-- TRAP_RECORD_PENDING_POST: the first pending record of a core, by slot, is posted in a place that has come free, and wakes
slot 15; the next one follows in the next cycle (R341). -/
def State.postPending (s : State) (core : Nat) : State :=
  match (below 16).findSome? fun i => (s.slot core i).toPost with
  | none => s
  | some r =>
    if 16 ≤ (s.core core).trapq.length then s
    else (s.postTrap core r).at (s.cycle + 1) (.trapRecordPendingPost core)

/-- See `State.postPending`. -/
def execTrapRecordPendingPost (core : Nat) (s : State) : Out := ok (s.postPending core)

/-- The trap-queue records that are due at the end of this cycle are posted before what the service slot then does (R73 step 3). -/
def State.recordsFirst (s : State) (core : Nat) : State :=
  let due (d : Due) : Bool := d.act == .event (.trapRecordPendingPost core) && d.cycle == s.cycle
  if s.agenda.any due then { s with agenda := s.agenda.filter fun d => !due d }.postPending core else s

/-- WTRAPQ_POP: the head record is removed; a pending record takes its place (R341). -/
def execWtrapqPop (core : Nat) (s : State) : Out :=
  ok (let s := s.modCore core fun k => { k with trapq := k.trapq.drop 1 }
      if (below 16).any fun i => (s.slot core i).toPost.isSome then s.at (s.cycle + 1) (.trapRecordPendingPost core) else s)

/-- WDMAP_WRITE: a write with WE sets entry SEL and SEL, unless the rectangle would pass the die's edge (R94). -/
def execWdmapWrite (core : Nat) (value : BitVec 64) (s : State) : Out :=
  ok (s.modCore core fun k =>
    let (_, rows, cols) := k.shape
    if 32 < field value 15 5 + rows ∨ 16 < field value 11 4 + cols then k
    else
      let sel := field value 48 8
      { k with
        dmapSel := BitVec.ofNat 8 sel
        dmap := KMap.put k.dmap sel (value.setWidth 32 &&& 0xFFFFF800#32) })

/-- A window value as `wwindata` stores it, or none where it is ignored entirely (R145). -/
def windowValue (v : Word) : Option Word :=
  let v := v &&& 0x8FFFFFDFFFFFFFC0#64
  if 0x1E0000 < field v 6 15 * 64 + field v 21 16 * 64 ∨ field v 44 6 < field v 38 6 then none else some v

/-- WWINDATA: an inbound window is set (R145, R147). -/
def execWwindata (core win : Nat) (value : BitVec 64) (s : State) : Out :=
  ok (match windowValue value with
    | none => s
    | some v => s.modCore core fun k => { k with win := vecSet k.win win v })

/-- WGDATA: an access to `wgdata` reaches the register of a neighbour stack, and its instruction completes (R409). -/
def execWgdata (core slot serial : Nat) (s : State) : Out :=
  ok (match (s.slot core slot).wait with
    | none => s
    | some w =>
      match w.kind, w.serial == serial with
      | .wgdata rd op src, true =>
        let sel := (s.slot core slot).u.wgsel
        let edge := field sel 24 2
        let off := field sel 3 21 * 8
        let d := dieOf core
        let (r, c) := beyond (dieSite d).1 (dieSite d).2 edge
        let addr := mmioAddr s 1 (siteIndex r c) off
        let reach := !edgeFacesOut d edge
        let old := if reach then (mmioRead s addr).getD 0 else 0
        let s := if op ≠ 0 ∧ reach ∧ mmioWritable addr then s.now (writeEvent addr (csrNew op old src)) else s
        s.modSlot core slot fun t => (t.setX rd old).retire
      | _, _ => s)

end Sys2Proof.Machine
end

