-- ==== Sys2Proof/Machine/Context.lean ====
section
/-! DEFINITION. The slot context that `ssave` writes and `sload` checks and restores (R297, R352, R353). -/

namespace Sys2Proof.Machine

/-- A field of the context: its first bit, its length and its value. -/
abbrev CtxField := Nat × Nat × Nat

/-- A field at a byte offset. -/
def at8 (byte lo len value : Nat) : CtxField := (8 * byte + lo, len, value)

/-- The number the fields make. -/
def ctxSum (fs : List CtxField) : Nat := fs.foldl (fun k f => k + f.2.2 % 2 ^ f.2.1 * 2 ^ f.1) 0

/-- The bits that the fields occupy. -/
def ctxMask (fs : List CtxField) : Nat := fs.foldl (fun k f => k + (2 ^ f.2.1 - 1) * 2 ^ f.1) 0

/-- STATE (R352). -/
def SlotSt.code : SlotSt → Nat
  | .ready => 0
  | .blocked => 1
  | .parked => 2
  | .walk => 3
  | .page => 4
  | .faulted => 5
  | .stopped => 0

/-- A state from its code. -/
def slotStOf (n : Nat) : SlotSt :=
  if n = 1 then .blocked else if n = 2 then .parked else if n = 3 then .walk else if n = 4 then .page
  else if n = 5 then .faulted else .ready

/-- The full/empty code of a register: 11 for EMPTY with a receive outstanding (R352). -/
def RegSt.code (g : RegSt) : Nat :=
  match g.fe, g.prod with
  | .full, _ => 0
  | .poisoned, _ => 2
  | .empty, some (.receive _) => 3
  | .empty, _ => 1

/-- The 23 CSRs of the context, in order (R352): those of `UCsrs.write` and `Csrs.write` by number. -/
def ctxCsrs : List Nat :=
  [0x800, 0x801, 0x802, 0x803, 0x804, 0x805, 0x806, 0x807, 0x808, 0x180, 0x5C5, 0x300, 0x341, 0x342, 0x343, 0x340, 0x305, 0x302,
   0x141, 0x142, 0x143, 0x140, 0x105]

/-- The CSRs of a slot, in the order of `ctxCsrs`. -/
def Slot.csrList (t : Slot) : List Word :=
  [t.u.wtmo, t.u.wfetrap, t.u.wvtype, t.u.wvflags, t.u.wfmt, t.u.wscl, t.u.wamax, t.u.wmstr, t.u.wchst, t.c.satp, t.u.wlocwin,
   t.c.mstatus, t.c.mepc, t.c.mcause, t.c.mtval, t.c.mscratch, t.c.mtvec, t.c.medeleg, t.c.sepc, t.c.scause, t.c.stval, t.c.sscratch,
   t.c.stvec]

/-- A tensor record (R352): 64 bytes from an offset. -/
def tensorFields (at_ : Nat) (r : Option TensorOp) : List CtxField :=
  match r with
  | some o => [at8 at_ 0 1 1, at8 at_ 1 3 o.acc, at8 at_ 4 4 o.fmt.toNat, at8 at_ 8 1 (bit o.z), at8 at_ 9 3 o.next,
      at8 at_ 12 1 (bit o.poison), at8 (at_ + 8) 0 64 o.a.toNat, at8 (at_ + 16) 0 64 o.b.toNat, at8 (at_ + 24) 0 64 o.wfmt.toNat,
      at8 (at_ + 32) 0 64 o.wscl.toNat, at8 (at_ + 40) 0 64 o.wmstr.toNat]
  | none => [at8 at_ 0 13 0, at8 (at_ + 8) 0 64 0, at8 (at_ + 16) 0 64 0, at8 (at_ + 24) 0 64 0, at8 (at_ + 32) 0 64 0,
      at8 (at_ + 40) 0 64 0]

/-- An outstanding receive of the context (R352). -/
def recvField (n : Nat) (r : Option Recv) : List CtxField :=
  match r with
  | some r =>
    let (vec, num) := match r.dst with | .x d => (0, d.toNat) | .v d => (1, d.toNat) | .acc d => (0, d.toNat)
    [at8 (0x1C0 + 8 * n) 0 1 1, at8 (0x1C0 + 8 * n) 1 1 vec, at8 (0x1C0 + 8 * n) 8 8 r.ch, at8 (0x1C0 + 8 * n) 16 5 num]
  | none => [at8 (0x1C0 + 8 * n) 0 2 0, at8 (0x1C0 + 8 * n) 8 8 0, at8 (0x1C0 + 8 * n) 16 5 0]

/-- The four dwords of a pending trap record; VALID 0 when none. It is in no queue, so that R339 gives its DEPTH no value: 0 is the model's
choice (log 94). -/
def trapFields (r : Option TrapRec) : List CtxField :=
  let d := match r with | some r => r.dwords 0 | none => [0, 0, 0, 0]
  let w (i : Nat) : Nat := ((d[i]?).getD 0).toNat
  [at8 0x180 0 21 (w 0), at8 0x184 0 32 (w 0 / 2 ^ 32), at8 0x188 0 64 (w 1), at8 0x190 0 64 (w 2), at8 0x198 0 64 (w 3)]

/-- The fields of a pending fault record; CAUSE 0 when none. -/
def faultFields (r : Option FaultRec) : List CtxField :=
  let w := match r with | some r => r.word | none => 0
  [at8 0x1A0 0 53 w, at8 0x1A8 0 22 (w / 2 ^ 64), at8 0x1AC 0 2 (w / 2 ^ 96), at8 0x1B0 0 64 (w / 2 ^ 128), at8 0x1B8 0 64 0]

/-- Every field of a slot's context (R352). A slot whose PAGE or FAULTED has been ended under HOLD or while its record pends is saved as READY
(log 64). -/
def Slot.ctxFields (t : Slot) (sid slot : Nat) : List CtxField :=
  [at8 0 0 64 t.pc.toNat, at8 8 0 2 (modeCode t.mode), at8 8 2 4 (if t.leaving then SlotSt.ready else t.st).code, at8 8 6 1 (bit t.hold),
   at8 8 7 1 (bit t.token),
   at8 12 0 12 sid, at8 14 0 4 slot]
    ++ ((below 32).map fun n => at8 0x10 (2 * n) 2 (if n = 0 then 0 else (vecGet t.xs n RegSt.full).code))
    ++ ((below 16).map fun n => at8 0x18 (2 * n) 2 (vecGet t.vs n RegSt.full).code)
    ++ ((t.csrList.zip (below 23)).map fun p => at8 (0x20 + 8 * p.2) 0 64 p.1.toNat)
    ++ ((below 8).flatMap fun n =>
          let e := vecGet t.alt n none
          [at8 (0xD8 + 2 * n) 0 8 (e.getD 0), at8 (0xD8 + 2 * n) 8 1 (bit e.isSome)])
    ++ [at8 0xE8 0 4 t.recvs.length]
    ++ tensorFields 0x100 (t.stopped[0]?) ++ tensorFields 0x140 (t.stopped[1]?) ++ trapFields t.pendTrap ++ faultFields t.pendFault
    ++ ((below 8).flatMap fun n => recvField n (t.recvs[n]?))
    ++ ((rangeFrom 31 1).map fun n => at8 (0x200 + 8 * n) 0 64 (vecGet t.x n 0).toNat)
    ++ ((rangeFrom 7 1).map fun n => at8 (0x300 + 16 * n) 0 128 (vecGet t.m n 0).toNat)
    ++ ((below 16).map fun n => at8 (0x400 + 128 * n) 0 1024 (vecGet t.v n 0).toNat)

/-- The context of a slot. -/
def Slot.context (t : Slot) (sid slot : Nat) : BitVec 32768 := BitVec.ofNat 32768 (ctxSum (t.ctxFields sid slot))

/-- The dword of a context at a byte offset. -/
def ctxWord (x : BitVec 32768) (byte : Nat) : Word := BitVec.ofNat 64 (field x (8 * byte) 64)

/-- The CSR of a context by number. -/
def ctxCsr (x : BitVec 32768) (n : Nat) : Word :=
  match (ctxCsrs.zip (below 23)).find? fun p => p.1 == n with
  | some p => ctxWord x (0x20 + 8 * p.2)
  | none => 0

/-- What a CSR of the context reads after a write of a value to it as it is after reset (R353). -/
def csrStored (n : Nat) (v : Word) : Word :=
  let t := { Slot.reset with
    u := UCsrs.reset.write n v
    c := Csrs.reset.write n v }
  match (t.csrList.zip ctxCsrs).find? fun p => p.2 == n with
  | some p => p.1
  | none => 0

/-- Whether a CSR would read back the value just written (R353). -/
def csrStores (n : Nat) (v : Word) : Bool := csrStored n v == v

/-- The K-slices of a tensor format (R274). -/
def slicesOf (fmt : Nat) : Nat := ([4, 2, 2, 4, 8, 4, 8, 4][fmt]?).getD 4

/-- A tensor record of a context, if it is valid. -/
def tensorOf (x : BitVec 32768) (at_ slot : Nat) : Option TensorOp :=
  let w := (ctxWord x at_).toNat
  if w % 2 = 0 then none
  else some {
    slot := slot, acc := bitsOf w 1 3, a := ctxWord x (at_ + 8), b := ctxWord x (at_ + 16), fmt := BitVec.ofNat 4 (bitsOf w 4 4),
    z := bitsOf w 8 1 == 1, next := bitsOf w 9 3, poison := bitsOf w 12 1 == 1, wfmt := ctxWord x (at_ + 24),
    wscl := ctxWord x (at_ + 32), wmstr := ctxWord x (at_ + 40), access := 0 }

/-- Whether a tensor record's format and next slice are legal (R353). -/
def tensorLegal (r : Option TensorOp) : Bool := r.all fun o => decide (o.fmt.toNat ≤ 7) && decide (o.next < slicesOf o.fmt.toNat)

/-- Whether `sload` accepts a context for a slot of a sheaf (R353). -/
def contextLegal (x : BitVec 32768) (sid slot : Nat) : Bool :=
  let fs := ({ Slot.reset with pc := 0 }).ctxFields 0 0
  let state := (ctxWord x 8).toNat
  (x.toNat &&& ctxMask fs) == x.toNat
    && decide (bitsOf state 2 4 ≤ 5) && bitsOf state 0 2 != 2 && bitsOf state 32 12 == sid && bitsOf state 48 4 == slot
    && tensorLegal (tensorOf x 0x100 slot) && tensorLegal (tensorOf x 0x140 slot)
    && ctxCsrs.all fun n => csrStores n (ctxCsr x n)

/-- The full/empty state a code stands for; a receive's producer is restored with the receive. -/
def regStOf (n : Nat) : RegSt :=
  { fe := if n = 0 then .full else if n = 2 then .poisoned else .empty, prod := none }

/-- The pending trap record of a context, as the one of its target slot. -/
def pendTrapOf (x : BitVec 32768) (slot : Nat) : Option TrapRec :=
  let w := (ctxWord x 0x180).toNat
  if bitsOf w 4 1 = 0 then none
  else some {
    slot := slot, mode := modeOf (bitsOf w 5 2), tgt := bitsOf w 7 1 == 1, cause := bitsOf w 8 8,
    word := BitVec.ofNat 32 (bitsOf w 32 32), pc := ctxWord x 0x188, tval := ctxWord x 0x190, extra := ctxWord x 0x198 }

/-- The pending fault record of a context. -/
def pendFaultOf (x : BitVec 32768) : Option FaultRec :=
  let w := (ctxWord x 0x1A0).toNat
  if bitsOf w 24 8 = 0 then none
  else some {
    source := bitsOf w 0 24, cause := bitsOf w 24 8, pid := bitsOf w 32 21, sid := field x (8 * 0x1A8) 12,
    asid := field x (8 * 0x1A8 + 12) 10, kind := field x (8 * 0x1AC) 2, va := ctxWord x 0x1B0 }

/-- The slot that a context describes, but for its receives: what a context does not hold keeps the value of `t` or is empty. -/
def Slot.restored (t : Slot) (x : BitVec 32768) (slot cycle serial : Nat) : Slot :=
  let state := (ctxWord x 8).toNat
  let held := bitsOf state 6 1 == 1
  let st := match slotStOf (bitsOf state 2 4), held with | .walk, false => .ready | st, _ => st
  let u := ctxCsr x
  { t with
      st := st
      hold := held
      token := bitsOf state 7 1 == 1
      pc := ctxWord x 0
      mode := modeOf (bitsOf state 0 2)
      x := Vector.ofFn fun i => if i.val = 0 then 0 else ctxWord x (0x200 + 8 * i.val)
      m := Vector.ofFn fun i => if i.val = 0 then 0 else BitVec.ofNat 128 (field x (8 * (0x300 + 16 * i.val)) 128)
      v := Vector.ofFn fun i => BitVec.ofNat 1024 (field x (8 * (0x400 + 128 * i.val)) 1024)
      xs := Vector.ofFn fun i => if i.val = 0 then RegSt.full else regStOf (field x (8 * 0x10 + 2 * i.val) 2)
      vs := Vector.ofFn fun i => regStOf (field x (8 * 0x18 + 2 * i.val) 2)
      u := { t.u with
              wtmo := u 0x800, wfetrap := u 0x801, wvtype := u 0x802, wvflags := u 0x803, wfmt := u 0x804, wscl := u 0x805,
              wamax := u 0x806, wmstr := u 0x807, wchst := u 0x808, wlocwin := u 0x5C5 }
      c := { satp := u 0x180, mstatus := u 0x300, medeleg := u 0x302, mtvec := u 0x305, mscratch := u 0x340, mepc := u 0x341,
             mcause := u 0x342, mtval := u 0x343, stvec := u 0x105, sscratch := u 0x140, sepc := u 0x141, scause := u 0x142,
             stval := u 0x143 }
      alt := Vector.ofFn fun i =>
        if field x (8 * (0xD8 + 2 * i.val) + 8) 1 = 1 then some (field x (8 * (0xD8 + 2 * i.val)) 8) else none
      resv := none
      fence := none
      fetch := none
      issued := none
      wait := match st with
        | .parked => some { kind := .park, since := cycle, serial := serial }
        | .blocked => some { kind := .resumed, since := cycle, serial := serial }
        | _ => none
      recvs := []
      stopped := (tensorOf x 0x100 slot).toList ++ (tensorOf x 0x140 slot).toList
      pendTrap := pendTrapOf x slot
      pendFault := pendFaultOf x
      recsHeld := true
      leaving := false }

/-- Restores an outstanding receive of a context: a value kept at its endpoint is written to its destination; one that has ended
leaves it EMPTY, BROKEN if its channel is broken and otherwise at its limit; one still outstanding is the slot's again (R110, R353). -/
def State.restoreRecv (s : State) (c i : Nat) (x : BitVec 32768) (k : Nat) : State :=
  let w := (ctxWord x (0x1C0 + 8 * k)).toNat
  if w % 2 = 0 then s
  else
    let ch := bitsOf w 8 8
    let vec := bitsOf w 1 1 == 1
    let dst : RegRef := if vec then .v (BitVec.ofNat 4 (bitsOf w 16 5)) else .x (BitVec.ofNat 5 (bitsOf w 16 5))
    match s.endpoint c ch with
    | none => s
    | some e =>
      let (serial, s) := s.fresh
      let r : Recv := { ch := ch, dst := dst, scope := e.scope, serial := serial, timed := false }
      let s := (s.markReg c i dst { fe := .empty, prod := some (.receive ch) }).modSlot c i fun t => { t with recvs := t.recvs ++ [r] }
      match e.kept with
      | some v =>
        (s.modEndpoint c ch fun e => { e with kept := none }).modSlot c i fun t =>
          if v.isSome then t.endRecv r v .full chOk else t.endRecv r none .poisoned chMismatch
      | none =>
        if e.recvOut.isSome then s
        else s.modSlot c i fun t => t.endRecv r none .empty (if e.broken then chBroken else chTimeout)

/-- A restored tensor record: its `mma` is the producer of its accumulator (R278), and its access is the one that was set aside when an
`sload` replaced its context, or a new one (log 69). -/
def State.restoreTensor (s : State) (c i : Nat) (o : TensorOp) : State :=
  let s := s.modCore c fun k => k.modAcc (BitVec.ofNat 3 o.acc) fun a => { a with reg := { fe := .empty, prod := some .tensor } }
  match (s.core c).aside.find? fun a => a.1 == i && a.2.1 == o.acc with
  | some a =>
    (s.modCore c fun k => { k with aside := k.aside.erase a }).modSlot c i fun t =>
      { t with stopped := t.stopped ++ [{ o with access := a.2.2 }] }
  | none =>
    let (n, s) := s.addAccess c i .mx .core false
    s.modSlot c i fun t => { t with stopped := t.stopped ++ [{ o with access := n }] }

/-- A slot that is released to a restored wait names it at once, before its next issue cycle: it may be a node of the wait-for graph (R230,
R353). -/
def State.nameWait (s : State) (c i : Nat) : State :=
  if (s.slot c i).waitKind = some .resumed then { s with agenda := { cycle := s.cycle, phase := 0, act := .retest c i } :: s.agenda } else s

/-- A slot's return to a wait counts in its block sequence number (R231). -/
def Slot.counted (t : Slot) : Slot :=
  { t with
    bseq := t.bseq + 1
    marks := [] }

/-- A slot as it leaves HOLD (R72, R296, R353): a FAULTED one is to go on, one in WALK that no refill serves reissues, and the token of a
wake that came under HOLD ends a `park` now (R56; log 64). -/
def Slot.released (t : Slot) (walking : Bool) (cycle : Nat) : Slot :=
  let u : Slot := { t with
    hold := false
    wait := t.wait.map fun w => { w with since := cycle }
    stopped := []
    recsHeld := false }
  match t.st, t.token with
  | .faulted, _ => { u with leaving := true }
  | .walk, _ => if walking then u else { u with st := .ready }
  | .parked, true => { u.unparked with token := false }
  | _, _ => u

/-- A released slot goes on, unless its record pends on a full queue: it is then FAULTED, or in PAGE, until the record is posted (R341, R348;
log 90). -/
def Slot.goesOn (t : Slot) (cycle : Nat) : Slot :=
  if t.pendTrap.isSome then
    { t.endWait with
      st := .faulted
      leaving := true }
  else if t.pendFault.isSome ∧ t.st ≠ .page then
    { t.endWait with
      st := .page
      leaving := true }
  else t.settled cycle

/-- Starts the timer of a restored receive (R353). -/
def State.timeRecv (s : State) (c i : Nat) (r : Recv) : State :=
  if r.timed then s
  else
    let limit := (s.slot c i).limit
    let s := s.modSlot c i fun t => { t with
      recvs := t.recvs.map fun q => if q.serial = r.serial then { q with timed := true } else q }
    if limit = 0 then s else s.schedule (s.cycle + limit) 2 (.event (.receiveTimeout c i r.serial))

/-- `sresume` of a slot (R72, R278, R296, R353): HOLD clears, its timers restart, its pending records are posted again and its
tensor records go to the tail of the queue, from which the first may start from a cycle on. The block sequence number counts the return to a wait, once if that also makes the slot a node:
the model's choice (R231; log 91). -/
def State.releaseSlot (s : State) (c i frm : Nat) : State :=
  let old := s.slot c i
  let walking := (s.core c).walks.any fun w => w.slots.any fun x => x.1 == i
  let s := s.modNode c i fun t => t.released walking s.cycle
  let s := if (s.slot c i).wait.isSome ∧ (s.slot c i).bseq = old.bseq then s.modSlot c i Slot.counted else s
  let s := (s.modCore c fun k => { k with tq := k.tq ++ old.stopped }).kickTensor c frm
  let s := old.recvs.foldl (fun s r => s.timeRecv c i r) s
  let s := match old.pendTrap with
    | some r => s.postTrap c r
    | none => s
  let s := match old.pendFault with
    | some r => s.postFault c i r
    | none => s
  (s.modSlot c i fun t => t.goesOn s.cycle).nameWait c i

/-- Restores a slot from a legal context (R353). The accesses of the stopped `mma`s that its old context held are set aside: they are not
performed (R153). A slot restored in WALK reissues, so that it leaves any refill its old context waited for. The result of an SFU request
of the old context is discarded, as when a process stops (R85; log 70), and its pending records are replaced by those of the area: the model's
choice (log 108). With HOLD 0, and not FAULTED, the slot is released at once; the last grant of the `sload` is past the step in which an `mma` may start in
its cycle (R327). -/
def State.restoreSlot (s : State) (c i : Nat) (x : BitVec 32768) : State :=
  let (serial, s) := s.fresh
  let old := s.slot c i
  let new := old.restored x i s.cycle serial
  let s := s.modCore c fun k => { k.discardSfu i with
    aside := k.aside ++ old.stopped.map fun o => (i, o.acc, o.access)
    sows := k.sows ++ old.issued.toList.map fun n => (i, n)
    walks := k.walks.map fun w => { w with slots := w.slots.filter fun p => p.1 != i } }
  let s := s.modSlot c i fun _ => { new with stopped := [] }
  let s := new.stopped.foldl (fun s o => s.restoreTensor c i o) s
  let s := ((below 8).foldl (fun s k => s.restoreRecv c i x k) s).ensureIssue c i s.cycle
  if new.hold ∨ new.st = .faulted then s else s.releaseSlot c i (s.cycle + 1)

end Sys2Proof.Machine
end

