-- ==== Sys2Proof/Machine/Sfu.lean ====
section
/-! DEFINITION. The functions of the SFU (R262), each rounded once: the exact value where it is a number of finite length, otherwise
an approximation from below that is closer to it than any tie of the format (log 12). -/

namespace Sys2Proof.Machine

/-- The bits of the fixed-point numbers below. -/
def sfuBits : Nat := 320

/-- One in fixed point. -/
def sfuOne : Nat := 2 ^ sfuBits

/-- ln 2 in fixed point. -/
def ln2Fixed : Nat :=
  1480553391661173448385607439722553250922680800745876974795605978609098082859138712941075737848984

/-- The exponential series of a fixed-point `y` below 1, from a term on. -/
def expSeries (y : Nat) : Nat → Nat → Nat → Nat
  | 0, _, _ => 0
  | fuel + 1, k, term => term + expSeries y fuel (k + 1) (term * y / sfuOne / (k + 1))

/-- `2^f` of a fixed-point `f` below 1. -/
def exp2Frac (f : Nat) : Nat := expSeries (f * ln2Fixed / sfuOne) 90 0 sfuOne

/-- The series of the inverse hyperbolic tangent from a term on: `z2` is the square of its argument, `p` the power so far. -/
def atanhSeries (z2 : Nat) : Nat → Nat → Nat → Nat
  | 0, _, _ => 0
  | fuel + 1, k, p => p / (2 * k + 1) + atanhSeries z2 fuel (k + 1) (p * z2 / sfuOne)

/-- `log2` of a fixed-point number from 1 to 2. -/
def log2Frac (m : Nat) : Nat :=
  let z := (m - sfuOne) * sfuOne / (m + sfuOne)
  2 * atanhSeries (z * z / sfuOne) 110 0 z * sfuOne / ln2Fixed

/-- The whole square root, bit by bit from a bit down. -/
def sqrtFrom (x : Nat) : Nat → Nat → Nat
  | 0, r => r
  | b + 1, r => let c := r + 2 ^ b; sqrtFrom x b (if c * c ≤ x then c else r)

/-- A value known to lie just above `n · 2^e`, as a number with one more bit that makes it inexact. -/
def above (n : Int) (e : Int) : Dyad := { n := 2 * n + 1, e := e - 1 }

/-- A positive real just above `n · 2^e`, with a sign. -/
def aboveMag (neg : Bool) (n : Nat) (e : Int) : Dyad :=
  let d := above n e
  if neg then d.neg else d

/-- `2^x`. -/
def exp2Num (d : Dyad) : Num :=
  if d.lt { n := -3000, e := 0 } then .fin (above 0 (-3000))
  else if (Dyad.mk 3000 0).lt d then .fin { n := 1, e := 3000 }
  else
    let sh := (-d.e).toNat
    let v := d.n * (2 ^ d.e.toNat : Nat)
    let k := v / (2 ^ sh : Nat)
    let f := (v % (2 ^ sh : Nat)).toNat
    if f = 0 then .fin { n := 1, e := k } else .fin (above (exp2Frac (f * sfuOne / 2 ^ sh)) (k - sfuBits))

/-- `log2 x` of a positive number. -/
def log2Num (d : Dyad) : Num :=
  let m := d.n.natAbs
  let l := Nat.log2 m
  let k := d.log2
  if m = 2 ^ l then Num.of { n := k, e := 0 } false
  else .fin (above (k * (sfuOne : Nat) + (log2Frac (m * sfuOne / 2 ^ l) : Nat)) (-(sfuBits : Int)))

/-- `1 / x`. -/
def rcpNum (d : Dyad) : Num :=
  let m := d.n.natAbs
  let q := sfuOne / m
  let e := -d.e - sfuBits
  let neg := decide (d.n < 0)
  if q * m = sfuOne then .fin { n := if neg then -(q : Int) else (q : Int), e := e } else .fin (aboveMag neg q e)

/-- `1 / √x` of a positive number. -/
def rsqrtNum (d : Dyad) : Num :=
  let odd := d.e % 2 != 0
  let m := if odd then 2 * d.n.natAbs else d.n.natAbs
  let e := if odd then d.e - 1 else d.e
  let q := sqrtFrom (sfuOne / m) (sfuBits / 2 + 1) 0
  let out := -(e / 2) - (sfuBits / 2 : Nat)
  if q * q * m = sfuOne then .fin { n := q, e := out } else .fin (aboveMag false q out)

/-- `tanh x`: below 2^−40 just under x, from 64 up just under 1, between them from `e^2x`. -/
def tanhNum (d : Dyad) : Num :=
  let neg := decide (d.n < 0)
  let a : Dyad := { d with n := d.n.natAbs }
  if a.log2 < -40 then .fin (aboveMag neg (a.n.natAbs * 2 ^ 80 - 1) (a.e - 80))
  else if 6 ≤ a.log2 then .fin (aboveMag neg (sfuOne - 1) (-(sfuBits : Int)))
  else
    let x := a.atExp (min a.e (-(sfuBits : Int)))
    let y := (x.toNat / 2 ^ ((-(sfuBits : Int)) - min a.e (-(sfuBits : Int))).toNat) * 2 * sfuOne / ln2Fixed
    let big := exp2Frac (y % sfuOne) * 2 ^ (y / sfuOne)
    .fin (aboveMag neg ((big - sfuOne) * sfuOne / (big + sfuOne)) (-(sfuBits : Int)))

/-- The operations of the SFU. -/
inductive SfuOp where
  | exp2 | log2 | rcp | rsqrt | tanh
  deriving DecidableEq, Repr

/-- The function of a value, with the flags of its special operands (R262). -/
def SfuOp.apply (op : SfuOp) (x : Num) : Num × Flags :=
  match op, x with
  | _, .nan b => (.nan false, Flags.when b flagNV)
  | .exp2, .inf neg => (if neg then .zero false else .inf false, 0)
  | .exp2, .zero _ => (.fin { n := 1, e := 0 }, 0)
  | .exp2, .fin d => (exp2Num d, 0)
  | .log2, .inf neg => if neg then (.nan false, flagNV) else (.inf false, 0)
  | .log2, .zero _ => (.inf true, flagDZ)
  | .log2, .fin d => if d.n < 0 then (.nan false, flagNV) else (log2Num d, 0)
  | .rcp, .inf neg => (.zero neg, 0)
  | .rcp, .zero neg => (.inf neg, flagDZ)
  | .rcp, .fin d => (rcpNum d, 0)
  | .rsqrt, .inf neg => if neg then (.nan false, flagNV) else (.zero false, 0)
  | .rsqrt, .zero neg => (.inf neg, flagDZ)
  | .rsqrt, .fin d => if d.n < 0 then (.nan false, flagNV) else (rsqrtNum d, 0)
  | .tanh, .inf neg => (.fin { n := if neg then -1 else 1, e := 0 }, 0)
  | .tanh, .zero neg => (.zero neg, 0)
  | .tanh, .fin d => (tanhNum d, 0)

/-- An SFU operation on a code of a format, rounded to nearest even. -/
def SfuOp.code (op : SfuOp) (f : Fmt) (c : Nat) : Nat × Flags :=
  let (r, g) := op.apply (f.decode c)
  let (code, h) := f.round .rne r
  (code, g ||| h)

end Sys2Proof.Machine
end

