-- ==== Sys2Proof/Machine/Vector.lean ====
section
/-! DEFINITION. The vector instructions on registers (R242 to R254, R264 to R267): elements, masks, integer and floating-point
arithmetic, compares, reductions, permutes, mask operations, `vcfg`. -/

namespace Sys2Proof.Machine

/-! ### The vector type, elements and masks (R242, R245 to R248) -/

/-- SEW in bits. -/
def Slot.sew (t : Slot) : Nat := 8 * 2 ^ field t.u.wvtype 0 2

/-- FK. -/
def Slot.fk (t : Slot) : Fmt :=
  match field t.u.wvtype 3 2 with
  | 0 => .fp32
  | 1 => .bf16
  | _ => .fp16

/-- The rounding mode of vector floating-point results. -/
def Slot.rm (t : Slot) : Rm := if bitAt t.u.wvtype 7 then .rtz else .rne

/-- The `n` low elements of `w` bits of a vector value. -/
def elems (v : VWord) (w n : Nat) : List Nat := (below n).map fun i => field v (w * i) w

/-- The number that elements of `w` bits make, the first one lowest. -/
def packNat (w : Nat) : List Nat → Nat
  | [] => 0
  | x :: t => x % 2 ^ w + 2 ^ w * packNat w t

/-- The vector value of elements of `w` bits. -/
def pack (w : Nat) (l : List Nat) : VWord := BitVec.ofNat 1024 (packNat w l)

/-- Whether a mask field makes element `i` active (R246). -/
def Slot.active (t : Slot) (m : BitVec 3) (i : Nat) : Bool := bitAt (t.getM m) i

/-- The elements of a source; every element of an x register is its low bits (R248). -/
def State.operand (s : State) (r : RegRef) (w n : Nat) : List Nat :=
  match r with
  | .v r => elems (s.v r) w n
  | .x r => List.replicate n (field (s.x r) 0 w)
  | .acc _ => List.replicate n 0

/-- Raises flags in `wvflags` (R243). -/
def State.raiseFlags (s : State) (f : Flags) : State := s.modU fun u => { u with wvflags := u.wvflags ||| f.setWidth 64 }

/-- The flags of some results. -/
def flagsOf (rs : List (Nat × Flags)) : Flags := rs.foldl (fun g r => g ||| r.2) 0

/-- The active elements of a result over what the destination holds, with the flags of the active ones (R246). -/
def Slot.merge (t : Slot) (m : BitVec 3) (old : List Nat) (rs : List (Nat × Flags)) : List (Nat × Flags) :=
  ((below old.length).zip (old.zip rs)).map fun p => if t.active m p.1 then p.2.2 else (p.2.1, 0)

/-- Writes the merged elements of `w` bits of a result and its flags, and completes. -/
def State.finishElems (s : State) (vd : BitVec 4) (m : BitVec 3) (w : Nat) (rs : List (Nat × Flags)) : State :=
  let merged := s.me.merge m (elems (s.v vd) w rs.length) rs
  (s.raiseFlags (flagsOf merged)).finishV vd (pack w (merged.map (·.1)))

/-- An instruction that computes each active element of vd from the two sources' and, if it reads it, its own (R247). -/
def elementwise (w : Slot → Nat) (reads : Bool) (f : Slot → Nat → Nat → Nat → Nat × Flags) (vd vs1 : BitVec 4) (src : RegRef)
    (m : BitVec 3) (s : State) : State :=
  readWrite ([.v vs1, src] ++ if reads then [.v vd] else []) (.v vd) s fun s =>
    let w := w s.me
    let n := 1024 / w
    let rs := ((elems (s.v vs1) w n).zip ((s.operand src w n).zip (elems (s.v vd) w n))).map fun p => f s.me p.1 p.2.1 p.2.2
    s.finishElems vd m w rs

/-- The element width of the floating-point kind. -/
def Slot.fw (t : Slot) : Nat := t.fk.width

/-! ### Integer operations (R251, R252) -/

/-- An integer instruction without flags: the function takes the width and two elements. -/
def intOp (f : Nat → Nat → Nat → Nat) : BitVec 4 → BitVec 4 → RegRef → BitVec 3 → State → State :=
  elementwise Slot.sew false fun t a b _ => (f t.sew a b, 0)

/-- A two's complement number of `w` bits. -/
def wrapInt (w : Nat) (i : Int) : Nat := (i % (2 ^ w : Nat)).toNat

/-- A sum or difference clamped to the signed range, with SAT. -/
def clampInt (w : Nat) (i : Int) : Nat × Flags :=
  let hi : Int := (2 ^ (w - 1) : Nat) - 1
  let lo : Int := -(2 ^ (w - 1) : Nat)
  if hi < i then (wrapInt w hi, flagSAT) else if i < lo then (wrapInt w lo, flagSAT) else (wrapInt w i, 0)

def intAdd (w a b : Nat) : Nat := (a + b) % 2 ^ w
def intSub (w a b : Nat) : Nat := wrapInt w ((a : Int) - b)
def intMul (w a b : Nat) : Nat := a * b % 2 ^ w
def intMulh (w a b : Nat) : Nat := wrapInt w (signedOf w a * signedOf w b / (2 ^ w : Nat))
def intMin (w a b : Nat) : Nat := if signedOf w a < signedOf w b then a else b
def intMax (w a b : Nat) : Nat := if signedOf w a < signedOf w b then b else a
def intMinu (_ a b : Nat) : Nat := min a b
def intMaxu (_ a b : Nat) : Nat := max a b
def intAnd (_ a b : Nat) : Nat := a &&& b
def intOr (_ a b : Nat) : Nat := a ||| b
def intXor (_ a b : Nat) : Nat := a ^^^ b
def intSll (w a b : Nat) : Nat := a * 2 ^ (b % w) % 2 ^ w
def intSrl (w a b : Nat) : Nat := a / 2 ^ (b % w)
def intSra (w a b : Nat) : Nat := wrapInt w (signedOf w a / (2 ^ (b % w) : Nat))

/-- A saturating instruction. -/
def satOp (f : Int → Int → Int) : BitVec 4 → BitVec 4 → RegRef → BitVec 3 → State → State :=
  elementwise Slot.sew false fun t a b _ => clampInt t.sew (f (signedOf t.sew a) (signedOf t.sew b))

/-- `vmacc`. -/
def maccOp : BitVec 4 → BitVec 4 → RegRef → BitVec 3 → State → State :=
  elementwise Slot.sew true fun t a b d => ((d + a * b) % 2 ^ t.sew, 0)

/-! ### Floating-point operations (R249, R250, R253) -/

/-- A floating-point instruction: the exact result and its NV, rounded once to FK. -/
def fpOp (reads : Bool) (f : Num → Num → Num → Num × Flags) : BitVec 4 → BitVec 4 → RegRef → BitVec 3 → State → State :=
  elementwise Slot.fw reads fun t a b d =>
    let k := t.fk
    let (x, nv) := f (k.decode a) (k.decode b) (k.decode d)
    let (c, g) := k.round t.rm x
    (c, nv ||| g)

/-- `vfmin` and `vfmax`. -/
def fpMinmax (wantMax : Bool) : BitVec 4 → BitVec 4 → RegRef → BitVec 3 → State → State :=
  elementwise Slot.fw false fun t a b _ => t.fk.minmax wantMax a b

/-! ### Compares (R254) -/

/-- Writes a mask register and completes. -/
def State.finishM (s : State) (md : BitVec 3) (w : MWord) : State := (s.modMe fun t => t.setM md w).retire

/-- A mask from bits, the first one lowest. -/
def maskOf (l : List Bool) : MWord := BitVec.ofNat 128 (packNat 1 (l.map bit))

/-- A compare: inactive bits below N keep their values, the bits from N up are cleared. -/
def compareOp (w : Slot → Nat) (f : Slot → Nat → Nat → Bool × Flags) (md : BitVec 3) (vs1 : BitVec 4) (src : RegRef) (m : BitVec 3)
    (s : State) : State :=
  reading [.v vs1, src] s fun s =>
    let w := w s.me
    let n := 1024 / w
    let rs := ((elems (s.v vs1) w n).zip (s.operand src w n)).map fun p => ((f s.me p.1 p.2).map bit id)
    let old := (below n).map fun i => bit (bitAt (s.me.getM md) i)
    let merged := s.me.merge m old rs
    (s.raiseFlags (flagsOf merged)).finishM md (maskOf (merged.map fun r => r.1 == 1))

/-- An integer compare. -/
def intCmp (f : Nat → Nat → Nat → Bool) : BitVec 3 → BitVec 4 → RegRef → BitVec 3 → State → State :=
  compareOp Slot.sew fun t a b => (f t.sew a b, 0)

/-- A floating-point compare: any NaN gives 0, with NV for a signalling one, or for any under `quiet`. -/
def fpCmp (anyNan : Bool) (f : Num → Num → Bool) : BitVec 3 → BitVec 4 → RegRef → BitVec 3 → State → State :=
  compareOp Slot.fw fun t a b =>
    let x := t.fk.decode a
    let y := t.fk.decode b
    if x.isNan || y.isNan then (false, Flags.when (anyNan || x.signalling || y.signalling) flagNV) else (f x y, 0)

/-! ### Reductions (R264, R265) -/

/-- The active elements of a source. -/
def State.activeElems (s : State) (vs1 : BitVec 4) (m : BitVec 3) (w : Nat) : List (Option Nat) :=
  ((below (1024 / w)).zip (elems (s.v vs1) w (1024 / w))).map fun p => if s.me.active m p.1 then some p.2 else none

/-- An integer reduction. -/
def intReduce (f : Nat → List Nat → Int) (rd : BitVec 5) (vs1 : BitVec 4) (m : BitVec 3) (s : State) : State :=
  readWrite [.v vs1] (.x rd) s fun s =>
    s.finishX rd (BitVec.ofInt 64 (f s.me.sew ((s.activeElems vs1 m s.me.sew).filterMap id)))

/-- The sum of signed elements. -/
def sumSigned (w : Nat) (l : List Nat) : Int := l.foldl (fun k a => k + signedOf w a) 0

/-- The maximum of signed elements; the least value when there are none. -/
def maxSigned (w : Nat) (l : List Nat) : Int := l.foldl (fun k a => max k (signedOf w a)) (-(2 ^ (w - 1) : Nat))

/-- Combines two entries of the tree. -/
def combine (op : Nat → Nat → Nat × Flags) (p q : Option (Nat × Flags)) : Option (Nat × Flags) :=
  match p, q with
  | none, q => q
  | p, none => p
  | some (a, f), some (b, g) =>
    let (c, h) := op a b
    some (c, f ||| g ||| h)

/-- The pairwise tree of R265: each pass combines entry i with entry i + n. -/
def tree (op : Nat → Nat → Nat × Flags) : Nat → List (Option (Nat × Flags)) → Option (Nat × Flags)
  | 0, l => l.head?.join
  | fuel + 1, l =>
    let n := l.length / 2
    if n = 0 then l.head?.join else tree op fuel (((l.take n).zip (l.drop n)).map fun p => combine op p.1 p.2)

/-- A result with its NaN made the canonical one; a signalling one raises NV (R249). -/
def Fmt.quiet (f : Fmt) (c : Nat) : Nat × Flags :=
  match f.decode c with
  | .nan sig => (f.nanCode, Flags.when sig flagNV)
  | _ => (c, 0)

/-- A floating-point reduction; `pre` is applied to each element's code first. The result of a single active element is that element, a NaN
made canonical (R249, R265). -/
def fpReduce (pre : Fmt → Nat → Nat) (op : Slot → Nat → Nat → Nat × Flags) (empty : Fmt → Nat) (rd : BitVec 5) (vs1 : BitVec 4)
    (m : BitVec 3) (s : State) : State :=
  readWrite [.v vs1] (.x rd) s fun s =>
    let k := s.me.fk
    let l := (s.activeElems vs1 m k.width).map fun e => e.map fun c => (pre k c, (0 : Flags))
    match tree (op s.me) 7 l with
    | none => s.finishX rd (BitVec.ofNat 64 (empty k))
    | some (c, g) =>
      let (c, nv) := k.quiet c
      (s.raiseFlags (g ||| nv)).finishX rd (BitVec.ofNat 64 c)

/-! ### Permutes (R266) -/

/-- A permute: each active element is computed from its index and the elements of vs1. -/
def permute (srcs : List RegRef) (f : State → List Nat → Nat → Option Nat) (vd vs1 : BitVec 4) (m : BitVec 3) (s : State) : State :=
  readWrite srcs (.v vd) s fun s =>
    let w := s.me.sew
    let n := 1024 / w
    let a := elems (s.v vs1) w n
    let rs := ((below n).zip (elems (s.v vd) w n)).map fun p => ((f s a p.1).getD p.2, (0 : Flags))
    s.finishElems vd m w rs

/-- The element at an index, 0 past the end. -/
def pick (a : List Nat) (i : Nat) : Nat := (a[i]?).getD 0

/-! ### The instructions -/

/-- VSLIDEUP (R266). -/
def execVslideup (vd vs1 : BitVec 4) (rs2 : BitVec 5) (m : BitVec 3) (s : State) : Out :=
  ok (permute [.v vs1, .x rs2]
    (fun s a i => if (s.x rs2).toNat ≤ i then some (pick a (i - (s.x rs2).toNat)) else none) vd vs1 m s)

/-- VSLIDEDOWN (R266). -/
def execVslidedown (vd vs1 : BitVec 4) (rs2 : BitVec 5) (m : BitVec 3) (s : State) : Out :=
  ok (permute [.v vs1, .x rs2] (fun s a i => some (pick a (i + (s.x rs2).toNat))) vd vs1 m s)

/-- VGATHER (R266). -/
def execVgather (vd vs1 vs2 : BitVec 4) (m : BitVec 3) (s : State) : Out :=
  ok (permute [.v vs1, .v vs2] (fun s a i => some (pick a (field (s.v vs2) (s.me.sew * i) s.me.sew))) vd vs1 m s)

/-- VBCAST (R266). -/
def execVbcast (vd : BitVec 4) (rs1 : BitVec 5) (m : BitVec 3) (s : State) : Out :=
  ok (permute [.x rs1] (fun s _ _ => some (field (s.x rs1) 0 s.me.sew)) vd vd m s)

/-- VEXT (R266). -/
def execVext (rd : BitVec 5) (vs1 : BitVec 4) (rs2 : BitVec 5) (s : State) : Out :=
  ok (readWrite [.v vs1, .x rs2] (.x rd) s fun s =>
    let w := s.me.sew
    let i := (s.x rs2).toNat
    s.finishX rd (if i < 1024 / w then BitVec.ofInt 64 (signedOf w (field (s.v vs1) (w * i) w)) else 0))

/-- VCOMPRESS (R266). -/
def execVcompress (vd vs1 : BitVec 4) (ms2 : BitVec 3) (s : State) : Out :=
  ok (readWrite [.v vs1] (.v vd) s fun s =>
    s.finishV vd (pack s.me.sew ((s.activeElems vs1 ms2 s.me.sew).filterMap id)))

/-- VMAND (R267). -/
def execVmand (md ms1 ms2 : BitVec 3) (s : State) : Out := ok (s.finishM md (s.me.getM ms1 &&& s.me.getM ms2))

/-- VMOR (R267). -/
def execVmor (md ms1 ms2 : BitVec 3) (s : State) : Out := ok (s.finishM md (s.me.getM ms1 ||| s.me.getM ms2))

/-- VMNOT (R267). -/
def execVmnot (md ms1 : BitVec 3) (s : State) : Out := ok (s.finishM md (~~~s.me.getM ms1))

/-- VMPOP (R267). -/
def execVmpop (rd : BitVec 5) (ms1 : BitVec 3) (s : State) : Out :=
  ok (writing (.x rd) s fun s =>
    s.finishX rd (BitVec.ofNat 64 (((below 128).filter fun i => bitAt (s.me.getM ms1) i).length)))

/-- VMFIRST (R267). -/
def execVmfirst (rd : BitVec 5) (ms1 : BitVec 3) (s : State) : Out :=
  ok (writing (.x rd) s fun s =>
    s.finishX rd (match (below 128).find? fun i => bitAt (s.me.getM ms1) i with
      | some i => BitVec.ofNat 64 i
      | none => BitVec.allOnes 64))

/-- VMERGE (R267). -/
def execVmerge (vd vs1 vs2 : BitVec 4) (m : BitVec 3) (s : State) : Out :=
  ok (readWrite [.v vs1, .v vs2] (.v vd) s fun s =>
    let w := s.me.sew
    let n := 1024 / w
    s.finishV vd (pack w (((below n).zip ((elems (s.v vs1) w n).zip (elems (s.v vs2) w n))).map fun p =>
      if s.me.active m p.1 then p.2.2 else p.2.1)))

/-- VCFG (R244). -/
def execVcfg (rd rs1 : BitVec 5) (s : State) : Out :=
  ok (readWrite [.x rs1] (.x rd) s fun s =>
    let v := s.x rs1
    let rej := field v 8 56 ≠ 0 ∨ field v 5 2 ≠ 0 ∨ bitAt v 2 ∨ field v 3 2 = 3 ∨ field v 0 2 = 3
    let s := if rej then s else s.modU fun u => { u with wvtype := v }
    s.finishX rd (BitVec.ofNat 64 ((if rej then 2 ^ 63 else 0) + 1024 / s.me.sew * 2 ^ 16 + 1024 / s.me.fw * 2 ^ 8
      + field s.me.u.wvtype 0 8)))


/-- VADD_VV (R251). -/
def execVaddVv (vd vs1 vs2 : BitVec 4) (m : BitVec 3) (s : State) : Out := ok (intOp intAdd vd vs1 (.v vs2) m s)

/-- VADD_VX (R251). -/
def execVaddVx (vd vs1 : BitVec 4) (rs2 : BitVec 5) (m : BitVec 3) (s : State) : Out := ok (intOp intAdd vd vs1 (.x rs2) m s)

/-- VSUB_VV (R251). -/
def execVsubVv (vd vs1 vs2 : BitVec 4) (m : BitVec 3) (s : State) : Out := ok (intOp intSub vd vs1 (.v vs2) m s)

/-- VSUB_VX (R251). -/
def execVsubVx (vd vs1 : BitVec 4) (rs2 : BitVec 5) (m : BitVec 3) (s : State) : Out := ok (intOp intSub vd vs1 (.x rs2) m s)

/-- VMUL_VV (R251). -/
def execVmulVv (vd vs1 vs2 : BitVec 4) (m : BitVec 3) (s : State) : Out := ok (intOp intMul vd vs1 (.v vs2) m s)

/-- VMUL_VX (R251). -/
def execVmulVx (vd vs1 : BitVec 4) (rs2 : BitVec 5) (m : BitVec 3) (s : State) : Out := ok (intOp intMul vd vs1 (.x rs2) m s)

/-- VMULH_VV (R251). -/
def execVmulhVv (vd vs1 vs2 : BitVec 4) (m : BitVec 3) (s : State) : Out := ok (intOp intMulh vd vs1 (.v vs2) m s)

/-- VMULH_VX (R251). -/
def execVmulhVx (vd vs1 : BitVec 4) (rs2 : BitVec 5) (m : BitVec 3) (s : State) : Out := ok (intOp intMulh vd vs1 (.x rs2) m s)

/-- VMIN_VV (R251). -/
def execVminVv (vd vs1 vs2 : BitVec 4) (m : BitVec 3) (s : State) : Out := ok (intOp intMin vd vs1 (.v vs2) m s)

/-- VMIN_VX (R251). -/
def execVminVx (vd vs1 : BitVec 4) (rs2 : BitVec 5) (m : BitVec 3) (s : State) : Out := ok (intOp intMin vd vs1 (.x rs2) m s)

/-- VMAX_VV (R251). -/
def execVmaxVv (vd vs1 vs2 : BitVec 4) (m : BitVec 3) (s : State) : Out := ok (intOp intMax vd vs1 (.v vs2) m s)

/-- VMAX_VX (R251). -/
def execVmaxVx (vd vs1 : BitVec 4) (rs2 : BitVec 5) (m : BitVec 3) (s : State) : Out := ok (intOp intMax vd vs1 (.x rs2) m s)

/-- VMINU_VV (R251). -/
def execVminuVv (vd vs1 vs2 : BitVec 4) (m : BitVec 3) (s : State) : Out := ok (intOp intMinu vd vs1 (.v vs2) m s)

/-- VMINU_VX (R251). -/
def execVminuVx (vd vs1 : BitVec 4) (rs2 : BitVec 5) (m : BitVec 3) (s : State) : Out := ok (intOp intMinu vd vs1 (.x rs2) m s)

/-- VMAXU_VV (R251). -/
def execVmaxuVv (vd vs1 vs2 : BitVec 4) (m : BitVec 3) (s : State) : Out := ok (intOp intMaxu vd vs1 (.v vs2) m s)

/-- VMAXU_VX (R251). -/
def execVmaxuVx (vd vs1 : BitVec 4) (rs2 : BitVec 5) (m : BitVec 3) (s : State) : Out := ok (intOp intMaxu vd vs1 (.x rs2) m s)

/-- VSADD_VV (R251). -/
def execVsaddVv (vd vs1 vs2 : BitVec 4) (m : BitVec 3) (s : State) : Out := ok (satOp (· + ·) vd vs1 (.v vs2) m s)

/-- VSADD_VX (R251). -/
def execVsaddVx (vd vs1 : BitVec 4) (rs2 : BitVec 5) (m : BitVec 3) (s : State) : Out := ok (satOp (· + ·) vd vs1 (.x rs2) m s)

/-- VSSUB_VV (R251). -/
def execVssubVv (vd vs1 vs2 : BitVec 4) (m : BitVec 3) (s : State) : Out := ok (satOp (· - ·) vd vs1 (.v vs2) m s)

/-- VSSUB_VX (R251). -/
def execVssubVx (vd vs1 : BitVec 4) (rs2 : BitVec 5) (m : BitVec 3) (s : State) : Out := ok (satOp (· - ·) vd vs1 (.x rs2) m s)

/-- VMACC_VV (R251). -/
def execVmaccVv (vd vs1 vs2 : BitVec 4) (m : BitVec 3) (s : State) : Out := ok (maccOp vd vs1 (.v vs2) m s)

/-- VMACC_VX (R251). -/
def execVmaccVx (vd vs1 : BitVec 4) (rs2 : BitVec 5) (m : BitVec 3) (s : State) : Out := ok (maccOp vd vs1 (.x rs2) m s)

/-- VFADD_VV (R253). -/
def execVfaddVv (vd vs1 vs2 : BitVec 4) (m : BitVec 3) (s : State) : Out := ok (fpOp false (fun a b _ => a.add b) vd vs1 (.v vs2) m s)

/-- VFADD_VX (R253). -/
def execVfaddVx (vd vs1 : BitVec 4) (rs2 : BitVec 5) (m : BitVec 3) (s : State) : Out := ok (fpOp false (fun a b _ => a.add b) vd vs1 (.x rs2) m s)

/-- VFSUB_VV (R253). -/
def execVfsubVv (vd vs1 vs2 : BitVec 4) (m : BitVec 3) (s : State) : Out := ok (fpOp false (fun a b _ => a.add b.neg) vd vs1 (.v vs2) m s)

/-- VFSUB_VX (R253). -/
def execVfsubVx (vd vs1 : BitVec 4) (rs2 : BitVec 5) (m : BitVec 3) (s : State) : Out := ok (fpOp false (fun a b _ => a.add b.neg) vd vs1 (.x rs2) m s)

/-- VFMUL_VV (R253). -/
def execVfmulVv (vd vs1 vs2 : BitVec 4) (m : BitVec 3) (s : State) : Out := ok (fpOp false (fun a b _ => a.mul b) vd vs1 (.v vs2) m s)

/-- VFMUL_VX (R253). -/
def execVfmulVx (vd vs1 : BitVec 4) (rs2 : BitVec 5) (m : BitVec 3) (s : State) : Out := ok (fpOp false (fun a b _ => a.mul b) vd vs1 (.x rs2) m s)

/-- VFMIN_VV (R250). -/
def execVfminVv (vd vs1 vs2 : BitVec 4) (m : BitVec 3) (s : State) : Out := ok (fpMinmax false vd vs1 (.v vs2) m s)

/-- VFMIN_VX (R250). -/
def execVfminVx (vd vs1 : BitVec 4) (rs2 : BitVec 5) (m : BitVec 3) (s : State) : Out := ok (fpMinmax false vd vs1 (.x rs2) m s)

/-- VFMAX_VV (R250). -/
def execVfmaxVv (vd vs1 vs2 : BitVec 4) (m : BitVec 3) (s : State) : Out := ok (fpMinmax true vd vs1 (.v vs2) m s)

/-- VFMAX_VX (R250). -/
def execVfmaxVx (vd vs1 : BitVec 4) (rs2 : BitVec 5) (m : BitVec 3) (s : State) : Out := ok (fpMinmax true vd vs1 (.x rs2) m s)

/-- VFMACC_VV (R253). -/
def execVfmaccVv (vd vs1 vs2 : BitVec 4) (m : BitVec 3) (s : State) : Out := ok (fpOp true (fun a b d => d.fma a b) vd vs1 (.v vs2) m s)

/-- VFMACC_VX (R253). -/
def execVfmaccVx (vd vs1 : BitVec 4) (rs2 : BitVec 5) (m : BitVec 3) (s : State) : Out := ok (fpOp true (fun a b d => d.fma a b) vd vs1 (.x rs2) m s)

/-- VFNMSAC_VV (R253). -/
def execVfnmsacVv (vd vs1 vs2 : BitVec 4) (m : BitVec 3) (s : State) : Out := ok (fpOp true (fun a b d => d.fma a.neg b) vd vs1 (.v vs2) m s)

/-- VFNMSAC_VX (R253). -/
def execVfnmsacVx (vd vs1 : BitVec 4) (rs2 : BitVec 5) (m : BitVec 3) (s : State) : Out := ok (fpOp true (fun a b d => d.fma a.neg b) vd vs1 (.x rs2) m s)

/-- VMSEQ_VV (R254). -/
def execVmseqVv (md : BitVec 3) (vs1 vs2 : BitVec 4) (m : BitVec 3) (s : State) : Out := ok (intCmp (fun _ a b => a == b) md vs1 (.v vs2) m s)

/-- VMSEQ_VX (R254). -/
def execVmseqVx (md : BitVec 3) (vs1 : BitVec 4) (rs2 : BitVec 5) (m : BitVec 3) (s : State) : Out := ok (intCmp (fun _ a b => a == b) md vs1 (.x rs2) m s)

/-- VMSNE_VV (R254). -/
def execVmsneVv (md : BitVec 3) (vs1 vs2 : BitVec 4) (m : BitVec 3) (s : State) : Out := ok (intCmp (fun _ a b => a != b) md vs1 (.v vs2) m s)

/-- VMSNE_VX (R254). -/
def execVmsneVx (md : BitVec 3) (vs1 : BitVec 4) (rs2 : BitVec 5) (m : BitVec 3) (s : State) : Out := ok (intCmp (fun _ a b => a != b) md vs1 (.x rs2) m s)

/-- VMSLT_VV (R254). -/
def execVmsltVv (md : BitVec 3) (vs1 vs2 : BitVec 4) (m : BitVec 3) (s : State) : Out := ok (intCmp (fun w a b => decide (signedOf w a < signedOf w b)) md vs1 (.v vs2) m s)

/-- VMSLT_VX (R254). -/
def execVmsltVx (md : BitVec 3) (vs1 : BitVec 4) (rs2 : BitVec 5) (m : BitVec 3) (s : State) : Out := ok (intCmp (fun w a b => decide (signedOf w a < signedOf w b)) md vs1 (.x rs2) m s)

/-- VMSLTU_VV (R254). -/
def execVmsltuVv (md : BitVec 3) (vs1 vs2 : BitVec 4) (m : BitVec 3) (s : State) : Out := ok (intCmp (fun _ a b => decide (a < b)) md vs1 (.v vs2) m s)

/-- VMSLTU_VX (R254). -/
def execVmsltuVx (md : BitVec 3) (vs1 : BitVec 4) (rs2 : BitVec 5) (m : BitVec 3) (s : State) : Out := ok (intCmp (fun _ a b => decide (a < b)) md vs1 (.x rs2) m s)

/-- VMFEQ_VV (R254). -/
def execVmfeqVv (md : BitVec 3) (vs1 vs2 : BitVec 4) (m : BitVec 3) (s : State) : Out := ok (fpCmp false Num.eqv md vs1 (.v vs2) m s)

/-- VMFEQ_VX (R254). -/
def execVmfeqVx (md : BitVec 3) (vs1 : BitVec 4) (rs2 : BitVec 5) (m : BitVec 3) (s : State) : Out := ok (fpCmp false Num.eqv md vs1 (.x rs2) m s)

/-- VMFLT_VV (R254). -/
def execVmfltVv (md : BitVec 3) (vs1 vs2 : BitVec 4) (m : BitVec 3) (s : State) : Out := ok (fpCmp true Num.lt md vs1 (.v vs2) m s)

/-- VMFLT_VX (R254). -/
def execVmfltVx (md : BitVec 3) (vs1 : BitVec 4) (rs2 : BitVec 5) (m : BitVec 3) (s : State) : Out := ok (fpCmp true Num.lt md vs1 (.x rs2) m s)

/-- VMFLE_VV (R254). -/
def execVmfleVv (md : BitVec 3) (vs1 vs2 : BitVec 4) (m : BitVec 3) (s : State) : Out := ok (fpCmp true (fun a b => !b.lt a) md vs1 (.v vs2) m s)

/-- VMFLE_VX (R254). -/
def execVmfleVx (md : BitVec 3) (vs1 : BitVec 4) (rs2 : BitVec 5) (m : BitVec 3) (s : State) : Out := ok (fpCmp true (fun a b => !b.lt a) md vs1 (.x rs2) m s)

/-- VAND_VV (R252). -/
def execVandVv (vd vs1 vs2 : BitVec 4) (m : BitVec 3) (s : State) : Out := ok (intOp intAnd vd vs1 (.v vs2) m s)

/-- VAND_VX (R252). -/
def execVandVx (vd vs1 : BitVec 4) (rs2 : BitVec 5) (m : BitVec 3) (s : State) : Out := ok (intOp intAnd vd vs1 (.x rs2) m s)

/-- VOR_VV (R252). -/
def execVorVv (vd vs1 vs2 : BitVec 4) (m : BitVec 3) (s : State) : Out := ok (intOp intOr vd vs1 (.v vs2) m s)

/-- VOR_VX (R252). -/
def execVorVx (vd vs1 : BitVec 4) (rs2 : BitVec 5) (m : BitVec 3) (s : State) : Out := ok (intOp intOr vd vs1 (.x rs2) m s)

/-- VXOR_VV (R252). -/
def execVxorVv (vd vs1 vs2 : BitVec 4) (m : BitVec 3) (s : State) : Out := ok (intOp intXor vd vs1 (.v vs2) m s)

/-- VXOR_VX (R252). -/
def execVxorVx (vd vs1 : BitVec 4) (rs2 : BitVec 5) (m : BitVec 3) (s : State) : Out := ok (intOp intXor vd vs1 (.x rs2) m s)

/-- VSLL_VV (R252). -/
def execVsllVv (vd vs1 vs2 : BitVec 4) (m : BitVec 3) (s : State) : Out := ok (intOp intSll vd vs1 (.v vs2) m s)

/-- VSLL_VX (R252). -/
def execVsllVx (vd vs1 : BitVec 4) (rs2 : BitVec 5) (m : BitVec 3) (s : State) : Out := ok (intOp intSll vd vs1 (.x rs2) m s)

/-- VSRL_VV (R252). -/
def execVsrlVv (vd vs1 vs2 : BitVec 4) (m : BitVec 3) (s : State) : Out := ok (intOp intSrl vd vs1 (.v vs2) m s)

/-- VSRL_VX (R252). -/
def execVsrlVx (vd vs1 : BitVec 4) (rs2 : BitVec 5) (m : BitVec 3) (s : State) : Out := ok (intOp intSrl vd vs1 (.x rs2) m s)

/-- VSRA_VV (R252). -/
def execVsraVv (vd vs1 vs2 : BitVec 4) (m : BitVec 3) (s : State) : Out := ok (intOp intSra vd vs1 (.v vs2) m s)

/-- VSRA_VX (R252). -/
def execVsraVx (vd vs1 : BitVec 4) (rs2 : BitVec 5) (m : BitVec 3) (s : State) : Out := ok (intOp intSra vd vs1 (.x rs2) m s)

/-- VREDSUM (R264). -/
def execVredsum (rd : BitVec 5) (vs1 : BitVec 4) (m : BitVec 3) (s : State) : Out :=
  ok (intReduce sumSigned rd vs1 m s)

/-- VREDMAX (R264). -/
def execVredmax (rd : BitVec 5) (vs1 : BitVec 4) (m : BitVec 3) (s : State) : Out :=
  ok (intReduce maxSigned rd vs1 m s)

/-- VFREDSUM (R265). -/
def execVfredsum (rd : BitVec 5) (vs1 : BitVec 4) (m : BitVec 3) (s : State) : Out :=
  ok (fpReduce (fun _ c => c) (fun t a b =>
    let (x, nv) := (t.fk.decode a).add (t.fk.decode b)
    let (c, g) := t.fk.round t.rm x
    (c, nv ||| g)) (fun _ => 0) rd vs1 m s)

/-- VFREDMAX (R265). -/
def execVfredmax (rd : BitVec 5) (vs1 : BitVec 4) (m : BitVec 3) (s : State) : Out :=
  ok (fpReduce (fun _ c => c) (fun t a b => t.fk.minmax true a b) Fmt.nanCode rd vs1 m s)

/-- VFREDAMAX (R265). -/
def execVfredamax (rd : BitVec 5) (vs1 : BitVec 4) (m : BitVec 3) (s : State) : Out :=
  ok (fpReduce (fun k c => c % 2 ^ (k.width - 1)) (fun t a b => t.fk.minmax true a b) Fmt.nanCode rd vs1 m s)

end Sys2Proof.Machine
end

