-- ==== Sys2Proof/Machine/Convert.lean ====
section
/-! DEFINITION. Conversions (R258 to R261) and the SFU's instructions and events (R85, R262, R263). -/

namespace Sys2Proof.Machine

/-- The scalar format of a fmt-code (R258). -/
def codeFmt (code : BitVec 5) : Fmt :=
  match field code 0 4 with
  | 0 => .fp32
  | 1 => .bf16
  | 2 => .fp16
  | 3 => .e4m3
  | _ => .e5m2

/-- Converts a code from a format to another, with the flags of R259. -/
def convertCode (frm res : Fmt) (rm : Rm) (c : Nat) : Nat × Flags :=
  let x := frm.decode c
  let (r, g) := res.round rm x
  (r, g ||| Flags.when x.signalling flagNV)

/-- VCVT (R259): the bits of vd above the result elements are cleared. -/
def execVcvt (vd vs1 : BitVec 4) (code : BitVec 5) (m : BitVec 3) (s : State) : Out :=
  ok (readWrite [.v vs1] (.v vd) s fun s =>
    let k := s.me.fk
    let (frm, res) := if bitAt code 4 then (codeFmt code, k) else (k, codeFmt code)
    let n := 1024 / max frm.width res.width
    s.finishElems vd m res.width ((elems (s.v vs1) frm.width n).map fun c => convertCode frm res s.me.rm c))

/-- VFCVTI (R260). -/
def execVfcvti (vd vs1 : BitVec 4) (m : BitVec 3) (s : State) : Out :=
  ok (readWrite [.v vs1] (.v vd) s fun s =>
    let k := s.me.fk
    let w := k.width
    let hi : Int := (2 ^ (w - 1) : Nat) - 1
    let lo : Int := -(2 ^ (w - 1) : Nat)
    let cvt (c : Nat) : Nat × Flags :=
      match k.decode c with
      | .nan _ => (wrapInt w hi, flagNV)
      | .inf neg => (wrapInt w (if neg then lo else hi), flagNV)
      | .zero _ => (0, 0)
      | .fin d =>
        let (i, inexact) := d.toInt s.me.rm
        if hi < i then (wrapInt w hi, flagNV) else if i < lo then (wrapInt w lo, flagNV)
        else (wrapInt w i, Flags.when inexact flagNX)
    s.finishElems vd m w ((elems (s.v vs1) w (1024 / w)).map cvt))

/-- VICVTF (R260). -/
def execVicvtf (vd vs1 : BitVec 4) (m : BitVec 3) (s : State) : Out :=
  ok (readWrite [.v vs1] (.v vd) s fun s =>
    let k := s.me.fk
    let w := k.width
    s.finishElems vd m w ((elems (s.v vs1) w (1024 / w)).map fun c =>
      k.round s.me.rm (Num.of { n := signedOf w c, e := 0 } false)))

/-- The block formats (R258): MX with its element format, DXB with its magnitude bits. -/
inductive BlockFmt where
  | mx (f : Fmt)
  | dxb (w : Nat)
  deriving DecidableEq, Repr

/-- The block format of a fmt-code. -/
def codeBlock (code : BitVec 5) : BlockFmt :=
  match field code 0 5 with
  | 8 => .mx .e4m3
  | 9 => .mx .e5m2
  | 10 => .mx .e2m1
  | 11 => .dxb 6
  | _ => .dxb 2

/-- The bits of an element code of a block format. -/
def BlockFmt.bits : BlockFmt → Nat
  | .mx f => f.width
  | .dxb w => w + 2

/-- Quantises a block: the codes, the two exponent bytes, the flags (R319, R322). -/
def BlockFmt.quantise (b : BlockFmt) (spread : Nat) (xs : List Num) : List Nat × Nat × Nat × Flags :=
  match b with
  | .mx f => let (x, codes, g) := quantMx f xs; (codes, x, 0, g)
  | .dxb w => let (ea, eb, codes, g) := quantDxb w spread xs; (codes, ea, eb, g)

/-- The value of an element of a block (R318, R321). -/
def BlockFmt.value (b : BlockFmt) (e0 e1 code : Nat) : Num :=
  match b with
  | .mx f => mxValue f e0 code
  | .dxb w => dxbValue w e0 e1 code

/-- SPREAD of `wfmt` (R315). -/
def spreadOf (wfmt : Word) : Nat := field wfmt 8 4

/-- VQNT (R261). -/
def execVqnt (vd vs1 : BitVec 4) (code : BitVec 5) (s : State) : Out :=
  ok (readWrite [.v vs1] (.v vd) s fun s =>
    let k := s.me.fk
    let b := codeBlock code
    let blocks := (below (1024 / k.width / 32)).map fun i =>
      (i, b.quantise (spreadOf s.me.u.wfmt) ((rangeFrom 32 (32 * i)).map fun j => k.decode (field (s.v vs1) (k.width * j) k.width)))
    let v := blocks.foldl (fun acc p =>
      let (codes, e0, e1, _) := p.2
      acc + packNat b.bits codes * 2 ^ (32 * b.bits * p.1) + (e0 + e1 * 256) * 2 ^ (8 * (96 + 2 * p.1))) 0
    (s.raiseFlags (blocks.foldl (fun g p => g ||| p.2.2.2.2) 0)).finishV vd (BitVec.ofNat 1024 v))

/-- VDEQ (R261). -/
def execVdeq (vd vs1 : BitVec 4) (code : BitVec 5) (s : State) : Out :=
  ok (readWrite [.v vs1] (.v vd) s fun s =>
    let k := s.me.fk
    let b := codeBlock code
    let v := s.v vs1
    let rs := (below (1024 / k.width)).map fun i =>
      let blk := i / 32
      let e0 := field v (8 * (96 + 2 * blk)) 8
      let e1 := field v (8 * (97 + 2 * blk)) 8
      k.round s.me.rm (b.value e0 e1 (field v (b.bits * i) b.bits))
    (s.raiseFlags (flagsOf rs)).finishV vd (pack k.width (rs.map (·.1))))

/-! ### The SFU -/

/-- An SFU instruction (R85, R263): it waits for the slot's previous request; then it samples its operands, vd is EMPTY until its result is written, and its request enters the queue;
service starts in the next cycle if no request is before it. -/
def sfuInstr (op : SfuOp) (vd vs1 : BitVec 4) (m : BitVec 3) (s : State) : State :=
  readWrite [.v vs1] (.v vd) s fun s =>
    if s.here.sfuq.any fun q => q.slot == s.curSlot then s.block .unlimited
    else
    let k := s.me.fk
    let rs := (elems (s.v vs1) k.width (1024 / k.width)).map fun c => op.code k c
    let merged := s.me.merge m (elems (s.v vd) k.width rs.length) rs
    let q : SfuReq := { slot := s.curSlot, vd := vd, value := pack k.width (merged.map (·.1)), flags := flagsOf merged,
                        discarded := false }
    let first := s.here.sfuq.isEmpty
    let s := s.modHere fun h => { h with sfuq := h.sfuq ++ [q] }
    let s := (s.modMe fun t => t.markV vd { fe := .empty, prod := some .sfu }).retire
    if first then s.at (s.cycle + 1) (.sfuServiceStart s.curCore) else s

/-- VEXP2 (R262). -/
def execVexp2 (vd vs1 : BitVec 4) (m : BitVec 3) (s : State) : Out := ok (sfuInstr .exp2 vd vs1 m s)

/-- VLOG2 (R262). -/
def execVlog2 (vd vs1 : BitVec 4) (m : BitVec 3) (s : State) : Out := ok (sfuInstr .log2 vd vs1 m s)

/-- VRCP (R262). -/
def execVrcp (vd vs1 : BitVec 4) (m : BitVec 3) (s : State) : Out := ok (sfuInstr .rcp vd vs1 m s)

/-- VRSQRT (R262). -/
def execVrsqrt (vd vs1 : BitVec 4) (m : BitVec 3) (s : State) : Out := ok (sfuInstr .rsqrt vd vs1 m s)

/-- VTANH (R262). -/
def execVtanh (vd vs1 : BitVec 4) (m : BitVec 3) (s : State) : Out := ok (sfuInstr .tanh vd vs1 m s)

/-- SFU_SERVICE_START: the first of the four service cycles of the oldest request (R85, R263). -/
def execSfuServiceStart (core : Nat) (s : State) : Out :=
  ok (if (s.core core).sfuq.isEmpty ∨ (s.core core).sfuBusy then s
    else (s.modCore core fun k => { k with sfuBusy := true }).at (s.cycle + 4) (.sfuResult core))

/-- SFU_RESULT: the result becomes visible and its flags are raised; the next request's service starts in this cycle (R243, R263). -/
def execSfuResult (core : Nat) (s : State) : Out :=
  ok (match (s.core core).sfuq with
    | [] => s
    | q :: rest =>
      let s := s.modCore core fun k => { k with
        sfuq := rest
        sfuBusy := false }
      let s := if q.discarded then s else s.modNode core q.slot fun t =>
        { t.setV q.vd q.value with u := { t.u with wvflags := t.u.wvflags ||| q.flags.setWidth 64 } }
      if rest.isEmpty then s else s.at s.cycle (.sfuServiceStart core))

end Sys2Proof.Machine
end

