-- ==== Sys2Proof/Machine/Global.lean ====
section
/-! DEFINITION. Global requests at their homes and their completions (R40, R41, R148, R153, R405, R411, R415), and the host's own
accesses (R165). -/

namespace Sys2Proof.Machine

/-- Whether the home of a request that has reached it performs it (R405): a home discards a write or a read-and-write that is past its deadline,
and a second-tier port forwards any access only while 2 µs of it remain. -/
def Req.serves (r : Req) : Bool :=
  if bitsOf r.addr 48 8 = 2 then !r.late expanderTime else !(r.op.writes && r.late 0)

/-- What a global load returns at its home: its value, or poison; a read of the host window returns what the host holds, and an
expander or the host may return poison (R344, R345, R411, R415). -/
def State.readHome (s : State) (a n : Nat) (signed : Bool) : (Option Word) × State :=
  match bitsOf a 48 8 with
  | 1 => (if s.memPoisoned a n then none else some (extend n signed (s.mem.load n a)), s)
  | 2 =>
    let (f, s) := s.draw
    (if tierPoisons f a then none else some (extend n signed (s.mem.load n a)), s)
  | _ =>
    let (f, s) := s.draw
    (if Config.hostPoison f then none else some (extend n signed (Config.freeWord f).toNat), s)

/-- What a read of the Gleaner returns at its home: its bytes, or poison (R286, R331). -/
def State.readRow (s : State) (a n : Nat) : Option (List Byte) × State :=
  match bitsOf a 48 8 with
  | 1 => (if s.memPoisoned a n then none else some (s.mem.bytes n a), s)
  | 2 =>
    let (f, s) := s.draw
    (if tierPoisons f a then none else some (s.mem.bytes n a), s)
  | _ =>
    let (f, s) := s.draw
    (if Config.hostPoison f then none else some (leBytes n (Config.freeVec f).toNat), s)

/-- Writes bytes at their home; those of the host window leave for the host address HWBASE + offset, in words of 8 bytes (R411). -/
def State.writeHome (s : State) (c a : Nat) (bs : List Byte) : State :=
  if bitsOf a 48 8 = 3 then
    (below ((bs.length + 7) / 8)).foldl (fun s i =>
      let part := (bs.drop (8 * i)).take 8
      s.depart { net := .req, src := c, dst := relayBase,
                 body := .hostWrite (s.host.hwbase.toNat + bitsOf a 0 48 + 8 * i) part.length (BitVec.ofNat 64 (leNat part)),
                 generation := 0, crossed := 0, due := s.cycle, eject := 0, route := [] }) s
  else s.writeMem a bs

/-- Performs a request at its home: what it returns, if it is not poisoned, and the state after it. -/
def State.performHome (s : State) (r : Req) : (Option Word) × State :=
  match r.op with
  | .load n signed => s.readHome r.addr n signed
  | .store n v => (some 0, s.writeHome r.core r.addr (leBytes n v.toNat))
  | .amo n op v =>
    if s.memPoisoned r.addr n then (none, s)
    else
      let old := s.mem.load n r.addr
      (some (extend n true old), s.writeMem r.addr (leBytes n (op.apply n old v.toNat)))
  | .mmioLoad => (some ((mmioRead s r.addr).getD 0), s)
  | .mmioStore v => (some 0, s.now (writeEvent r.addr v))
  | .gleanRead _ _ _ _ _ => (some 0, s)
  | .gleanWrite _ _ bs => (some 0, s.writeHome r.core r.addr bs)

/-- Whether a slot's request or posted atomic must be performed before another of the same slot that is later in program order: both
accesses of MMIO, or to overlapping bytes (R40, R142, R156). The Gleaner's requests are no accesses of the slot. -/
def ReqOp.orders (a : ReqOp) (at_ : Nat) (b : ReqOp) (bt : Nat) : Bool :=
  let ofSlot (o : ReqOp) : Bool := match o with | .gleanRead _ _ _ _ _ => false | .gleanWrite _ _ _ => false | _ => true
  ofSlot a && ofSlot b && ((a.mmio && b.mmio) || (decide (at_ < bt + b.size) && decide (bt < at_ + a.size)))

/-- Whether a request that has reached its home must wait there: an earlier access of its slot that orders it is not performed, or still
held in the outbound queue (R40, R142). -/
def State.mustWait (s : State) (r : Req) : Bool :=
  (s.reqs.any fun q => q.2.core == r.core && q.2.slot == r.slot && decide (q.2.acc < r.acc) && !q.2.performed
      && q.2.op.orders q.2.addr r.op r.addr)
    || (s.core r.core).outq.any fun q => q.2.slot == r.slot && q.2.global && decide (q.2.acc < r.acc)
        && (ReqOp.amo q.2.size .swap 0).orders q.2.off r.op r.addr

/-- A request stands at its home. -/
def State.standAt (s : State) (id : Nat) (r : Req) : State :=
  { s with reqs := KMap.put s.reqs id { r with arrived := true } }

/-- The requests of a slot that stand at their homes are tried again. -/
def State.retryHomes (s : State) (c i : Nat) : State :=
  (s.reqs.filter fun q => q.2.core == c && q.2.slot == i && q.2.arrived && !q.2.performed).foldl (fun s q =>
    if q.2.posted.isNone then s.at s.cycle (.homeAccess q.1)
    else match s.net.find? fun m => (match m.2.body with | .dep d => d.global && d.core == c && d.acc == q.2.acc | _ => false) with
      | some m => s.at s.cycle (.globalPostedAtomic m.1)
      | none => s) s

/-- A request is performed, or will never be (R405). -/
def State.performed (s : State) (id : Nat) (r : Req) : State :=
  { s with reqs := KMap.put s.reqs id { r with performed := true } }.retryHomes r.core r.slot

/-- Takes the messages of a kind out of the networks. -/
def State.dropBody (s : State) (p : Body → Bool) : State := { s with net := s.net.filter fun m => !p m.2.body }

/-- A request's message. -/
def Body.isReq (id : Nat) : Body → Bool
  | .req i => i == id
  | _ => false

/-- A request's response. -/
def Body.isRsp (id : Nat) : Body → Bool
  | .rsp i _ => i == id
  | _ => false

/-- HOME_ACCESS: a request that has reached its home is performed there, and its response leaves (R148); behind an earlier access of its
slot it waits (R40, R142), and once it is performed nothing is done again. One that its home does not serve any more gets no response
(R405). -/
def execHomeAccess (req : Nat) (s : State) : Out :=
  ok (
    let s := s.dropBody (Body.isReq req)
    match KMap.get s.reqs req with
    | none => s
    | some r =>
      if r.performed then s
      else if s.mustWait r then s.standAt req r
      else if r.serves = false then s.performed req r
      else
        let (v, s) := s.performHome r
        let (bs, s) := match r.op with
          | .gleanRead _ _ _ _ n => s.readRow r.addr n
          | _ => (some [], s)
        let s := s.performed req { r with
          poison := v.isNone || bs.isNone
          value := v.getD 0
          bytes := bs.getD [] }
        let ack := match r.op with
          | .store _ _ => true
          | .mmioStore _ => true
          | .gleanWrite _ _ _ => true
          | _ => false
        if r.op.mmio ∧ mmioKind r.addr = 0 ∧ mmioIndex r.addr = dieOf r.core then
          s.at (s.cycle + 4) (if ack then .storeAck req else .globalLoadData req)
        else if r.op.ofGleaner then s.sendOpen .rsp (s.homeOf r.addr) r.core (.rsp req ack)
        else s.sendTo .rsp (s.homeOf r.addr) r.core (.rsp req ack) 0 8)

/-- A request's access ends at its core (a posted atomic's rise of the landed total included, R98): its destination, if it still waits for
it, gets the value or becomes POISONED, and the slot knows the access to be performed (R40, R47, R153). -/
def State.endRequest (s : State) (id : Nat) (r : Req) (poison : Bool) : State :=
  let s := { s with reqs := KMap.del s.reqs id }.retryHomes r.core r.slot
  let s := if r.posted = some true then s.modCore r.core fun k => { k with landedTotal := k.landedTotal + 1 } else s
  let waits (g : RegSt) : Bool := g.prod == some (.request id)
  let s := match r.dst with
    | some (.x d) => s.modNode r.core r.slot fun t =>
        if waits (t.xState d) then (if poison then t.markX d { fe := .poisoned, prod := none } else t.setX d r.value) else t
    | _ => s
  match r.op with
  | .gleanRead _ _ _ _ _ => s.gleanDone r.core r.op (if poison then none else some r.bytes)
  | .gleanWrite _ _ _ => s.gleanDone r.core r.op none
  | _ => s.known r.core r.slot r.acc

/-- GLOBAL_LOAD_DATA: the data of a global load or AMO, or its poisoned completion, returns (R40); a response after the access's
timer has expired is discarded (R405). -/
def execGlobalLoadData (req : Nat) (s : State) : Out :=
  ok (
    let s := s.dropBody (Body.isRsp req)
    match KMap.get s.reqs req with
    | none => s
    | some r => s.endRequest req r r.poison)

/-- STORE_ACK: the acknowledgement of a global store arrives (R153). -/
def execStoreAck (req : Nat) (s : State) : Out :=
  ok (
    let s := s.dropBody (Body.isRsp req)
    match KMap.get s.reqs req with
    | none => s
    | some r => s.endRequest req r false)

/-- ACCESS_TIMEOUT: an access not complete after 70,000 cycles ends: a load or AMO POISONED, a store as performed (R405). -/
def execAccessTimeout (req : Nat) (s : State) : Out :=
  ok (match KMap.get s.reqs req with
    | none => s
    | some r => s.endRequest req r true)

/-- The registers of the security processor that take a host's write: ATTADDR and ATTGO (R420). -/
def hostSecurity (off : Nat) : Bool := off == 0x600 || off == 0x608

/-- A write of a register by the host through BAR0 (R411): one of the security processor only where R420 permits it; HWBASE and HWLEN, which
ignore a device's store, take it (R423, R424). -/
def State.hostRegister (s : State) (a : Nat) (v : Word) : State :=
  if bitsOf a 42 6 ≠ s.panel ∨ (mmioRead s a).isNone ∨ mmioWritable a = false then s
  else
    match mmioKind a, mmioOff a with
    | 2, off => if hostSecurity off then s.now (writeEvent a v) else s
    | 1, 0x121000 => s.now (.hostWindowWrite 0 v)
    | 1, 0x121008 => s.now (.hostWindowWrite 1 v)
    | _, _ => s.now (writeEvent a v)

/-- HOST_MEM_ACCESS: a host access over CXL.mem is performed at its home as one event (R165): this panel's HBM and second tier (R411), a
scratchpad through the prefix 0x0E map (R78, R138), or a register through BAR0 (R411); a read changes nothing of the panel. -/
def execHostMemAccess (write : Bool) (addr size : Nat) (value : BitVec 512) (s : State) : Out :=
  ok (match s.scratchAt addr with
    | some (c, off) =>
      if write ∧ size ≤ 64 ∧ off + size ≤ localSize then s.writeSpad c off (leBytes size value.toNat) else s
    | none =>
      if write = false ∨ 64 < size then s
      else if bitsOf addr 48 8 = 15 then (if size = 8 then s.hostRegister addr (value.setWidth 64) else s)
      else if s.physOk addr .write .m size false ∧ bitsOf addr 48 8 ≠ 3 ∧ bitsOf addr 42 6 = s.panel then s.writeMem addr (leBytes size value.toNat)
      else s)

end Sys2Proof.Machine
end

