-- ==== Sys2Proof/Machine/Deposit.lean ====
section
/-! DEFINITION. Deposit stores and posted atomics (R92 to R103), `wake.r` (R58) and their landings (R97, R100, R154). -/

namespace Sys2Proof.Machine

/-! ### Issue -/

/-- The accesses a release waits for (R96). -/
def State.awaitedBy (s : State) (rel : Option Scope) : List Nat :=
  match rel with
  | none => []
  | some sc => s.me.accsWithin allPaths sc

/-- Puts a deposit of the issuing slot, which no fence or receive holds, into the outbound queue, once it has a place (R96). -/
def issueDep (sc : Scope) (rel : Option Scope) (s : State) (d : Dep) : State :=
  gated .dep sc s fun s =>
    if outboundSize ≤ s.here.outbound then s.block .unlimited
    else
      let awaited := s.awaitedBy rel
      let (acc, s) := s.addAccess s.curCore s.curSlot .dep sc d.global
      (s.enqueue { d with
        acc := acc
        rel := rel
        awaited := awaited
        ready := s.cycle + 4 }).retire

/-- The DA of a deposit, posted atomic or `wake.r`, checked and relocated (R92, R93, R96). -/
def withDa (da : Word) (align : Nat) (s : State) (k : Nat → Nat → State → State) : State :=
  match s.here.checkDa s.panel s.me.mode da align with
  | .error cause => s.trap cause da
  | .ok (panel, core) => k panel core s

/-- A deposit of the issuing slot to a core. -/
def State.depTo (s : State) (kind : DepKind) (da : Word) (panel core size : Nat) (data : VWord) : Dep :=
  { kind := kind, core := s.curCore, slot := s.curSlot, counted := s.curSlot != 15, addr := da,
    target := foreignTarget panel s.panel core, targetSlot := field da 33 4, off := field da 0 21, size := size, data := data,
    cnt := daCounter da, asid := field s.me.c.satp 44 10, global := false, acc := 0, rel := none, awaited := [], ready := 0, deadline := 0, written := [] }

/-- A deposit store (R96). -/
def depositOp (size align : Nat) (rs1 : BitVec 5) (src : RegRef) (rel : Option Scope) (s : State) : State :=
  reading [.x rs1, src] s fun s =>
    let da := s.x rs1
    let data := match src with | .x r => (s.x r).setWidth 1024 | .v r => s.v r | .acc _ => 0
    withDa da align s fun panel core s =>
      issueDep (s.targetScope s.curCore panel core) rel s (s.depTo .store da panel core size data)

/-- The target of a posted atomic (R99, R100): a DA, or a global address of HBM; the local alias and every other address raise
cause 7. -/
def withPosted (op : AtomicOp) (n : Nat) (ea : Word) (data : VWord) (s : State) (k : Dep → Scope → State → State) : State :=
  if isDa ea then
    withDa ea n s fun panel core s =>
      k (s.depTo (.atomic op) ea panel core n data) (s.targetScope s.curCore panel core) s
  else if ea.toNat % n ≠ 0 then s.trap 6 ea
  else withAddress ea .write n 2 false s
    (fun _ s => s.trap 7 ea)
    (fun a s =>
      if bitsOf a 48 8 ≠ 1 then s.trap 7 ea
      else
        k { s.depTo (.atomic op) ea s.panel 0 n data with
          target := if bitsOf a 42 6 = s.panel then s.homeOf a else foreignTarget (bitsOf a 42 6) s.panel 0
          off := a
          cnt := none
          global := true } (s.physScope a) s)

/-- A posted atomic (R99, R100). -/
def postedOp (op : AtomicOp) (n : Nat) (rs1 rs2 : BitVec 5) (rel : Option Scope) (s : State) : State :=
  reading [.x rs1, .x rs2] s fun s =>
    withPosted op n (s.x rs1) ((s.x rs2).setWidth 1024) s fun d sc s => issueDep sc rel s d

/-- WAKE_R (R58): only the marker, die, row, column and slot fields are used. -/
def execWakeR (rs1 : BitVec 5) (s : State) : Out :=
  ok (reading [.x rs1] s fun s =>
    let da := s.x rs1
    if field da 60 4 ≠ 0xD ∨ field da 54 6 ≠ 0 ∨ field da 0 33 ≠ 0 then s.trap 7 da
    else
      match s.here.daTarget s.panel s.me.mode da with
      | .error cause => s.trap cause da
      | .ok (panel, core) =>
        if s.me.mode = .u ∧ field da 33 4 = 15 then s.trap 30 da
        else issueDep (s.targetScope s.curCore panel core) none s (s.depTo .wake da panel core 0 0))

/-- The operation of a posted atomic. -/
def DepKind.op : DepKind → AtomicOp
  | .atomic op => op
  | _ => .swap

/-! ### Departure -/

/-- The rows of drains whose cycle has come enter the outbound queue of their core, 4 cycles before they leave (R96, R282). -/
def State.enqueueRows (s : State) (c : Nat) : State :=
  let entering (d : Dep) : Bool := decide (d.ready ≤ s.cycle + 4)
  let rows := (s.core c).drains.flatMap fun d => d.rows.filter entering
  if rows.isEmpty then s
  else rows.foldl (fun s d => s.enqueue d)
    (s.modCore c fun k => { k with drains := k.drains.map fun d => { d with rows := d.rows.filter fun r => !entering r } })

/-- DEPOSIT_DEPART: a deposit whose release condition holds leaves the outbound queue (R96, R159). A global posted atomic goes to the
home of its address, and its timer starts (R148, R405). Rows of a drain that are due enter the queue first (R282). -/
def execDepositDepart (core oid : Nat) (s : State) : Out :=
  let s := s.enqueueRows core
  ok (match (s.core core).outq.find? fun q => q.1 == oid with
    | none => s
    | some (_, d) =>
      if !d.awaited.isEmpty then s
      else
        let s := s.modCore core fun k => { k with outq := k.outq.filter fun q => q.1 != oid }
        let d := if d.global then { d with deadline := s.deadline (dieOf core) s.cycle } else d
        let s := if d.global then
            let (id, s) := s.fresh
            let r : Req := { core := d.core, slot := d.slot, acc := d.acc, op := .amo d.size d.kind.op (d.data.setWidth 64), addr := d.off,
                             dst := none, posted := some d.counted, issued := s.cycle - 4, deadline := d.deadline,
                             reached := none, performed := false, poison := false, value := 0, bytes := [], arrived := false }
            { s with reqs := KMap.put s.reqs id r }.at (s.cycle + accessLimit) (.accessTimeout id)
          else s
        if d.global then s.sendTo .req core d.target (.dep d) 0 0 else s.sendTo .dep core d.target (.dep d) 0 4)

/-! ### Landing (R97) -/

/-- The fields of an inbound window (R145): base, length, ASID, counter range, OPEN. -/
def winCovers (w : Word) (off size : Nat) : Bool :=
  decide (field w 21 16 ≠ 0) && decide (field w 6 15 * 64 ≤ off) && decide (off + size ≤ field w 6 15 * 64 + field w 21 16 * 64)

/-- What the windows of a core say to a deposit: the reason of a refusal, or none (R97, R103, R146). -/
def Core.refusal (k : Core) (d : Dep) : Option Nat :=
  let covering := k.win.toList.filter fun w => winCovers w d.off d.size
  match covering.find? fun w => bitAt w 63 && field w 50 10 == d.asid with
  | none => if covering.isEmpty then some 1 else if covering.any fun w => field w 50 10 == d.asid then some 2 else some 3
  | some w =>
    match d.cnt with
    | none => none
    | some n =>
      if n < field w 38 6 ∨ field w 44 6 < n then some 4
      else if (vecGet k.cnt n Counter.reset).mode = 2 then some 5
      else none

/-- Sends the landing receipt of a deposit to the issuing core, of this panel or another one; it leaves its target 4 cycles after its Lands
(R97, R154, R407). -/
def State.receipt (s : State) (target : Nat) (d : Dep) (after : Nat) : State :=
  s.sendTo .chn target d.core (.receipt d.slot d.acc d.counted d.kind) (4 + after) 4

/-- Refuses a deposit at a core (R97, R101). -/
def State.refuse (s : State) (target : Nat) (d : Dep) (reason : Nat) : State :=
  let s := s.modCore target fun k => { k with refuse := if k.refuse = BitVec.allOnes 32 then k.refuse else k.refuse + 1 }
  (s.chaff d reason (dieOf target)).receipt target d 0

/-- What follows the last write of a deposit that was admitted: its counter's raise in 2 cycles, and its receipt (R97, R154). -/
def State.sunk (s : State) (target : Nat) (d : Dep) : State :=
  match d.cnt with
  | none => s.receipt target d 0
  | some n =>
    let (id, s) := (s.receipt target d 2).fresh
    let m : Msg := { net := .dep, src := target, dst := target, body := .raise n d.size true, generation := 0, crossed := 0, due := s.cycle + 2,
                     eject := 0, route := [] }
    { s with net := KMap.put s.net id m }.at (s.cycle + 2) (.counterRaise id)

/-- A deposit that is admitted and written whole (R97, R154). -/
def State.landAt (s : State) (target : Nat) (d : Dep) (bytes : List Byte) : State :=
  (s.writeSpad target d.off bytes).sunk target d

/-- The part of some bytes from an offset on that lies in a 64-byte row: where it begins, and its bytes. -/
def rowPart (off : Nat) (bs : List Byte) (row : Nat) : Nat × List Byte :=
  let lo := max off (64 * row)
  (lo, (bs.drop (lo - off)).take (64 * row + 64 - lo))

/-- The rows of a landing message that still wait for their banks. -/
def Core.waitingRows (k : Core) (id : Nat) : List Nat :=
  k.bank.filterMap fun r => match r.act with | .landing n row => if n = id then some row else none | _ => none

/-- Withdraws the bank requests of a landing message. -/
def Core.withdrawRows (k : Core) (id : Nat) : Core :=
  { k with bank := k.bank.filter fun r => match r.act with | .landing n _ => n != id | _ => true }

/-- The deposit that a landing message carries. -/
def State.landed (s : State) (id : Nat) (k : State → Nat → Dep → State) : State :=
  match s.msg id with
  | some m =>
    match m.body with
    | .dep d => k (s.drop id) m.dst d
    | _ => s
  | none => s

/-- DEPOSIT_LANDING: a deposit is refused, or the rows of it whose banks have granted it are written; the last of them is its landing (R97,
R161). The windows are asked at its first grant (log 66). -/
def execDepositLanding (msg : Nat) (s : State) : Out :=
  ok (match s.msg msg with
    | none => s
    | some m =>
      match m.body with
      | .dep d =>
        let c := m.dst
        match if d.written = [] then (s.core c).refusal d else none with
        | some reason => ((s.drop msg).modCore c fun k => k.withdrawRows msg).refuse c d reason
        | none =>
          let later := (s.core c).waitingRows msg
          let now := (rowsOf d.off d.size).filter fun r => !(d.written.contains r || later.contains r)
          let bytes := leBytes d.size d.data.toNat
          let s := now.foldl (fun s r => s.writeSpad c (rowPart d.off bytes r).1 (rowPart d.off bytes r).2) s
          if later.isEmpty then (s.drop msg).sunk c d
          else { s with net := KMap.put s.net msg { m with body := .dep { d with written := d.written ++ now } } }
      | _ => s)

/-- POSTED_ATOMIC_LANDING: a posted atomic reads, combines and writes in one bank grant; an uncorrectable error in its read posts
chaff reason 7 and writes nothing (R100). -/
def execPostedAtomicLanding (msg : Nat) (s : State) : Out :=
  ok (s.landed msg fun s c d =>
    match (s.core c).refusal d with
    | some reason => s.refuse c d reason
    | none =>
      if (s.core c).poisoned d.off d.size then (s.chaff d 7 (dieOf c)).receipt c d 0
      else
        s.landAt c d (leBytes d.size (d.kind.op.apply d.size ((s.core c).spad.load d.size d.off) d.data.toNat)))

/-- The near-memory unit at `home` executes a posted atomic, and its receipt leaves on RSP (R100): a read error posts its chaff record at the
issuing core's die, where that is a die of this panel (log 1). -/
def State.nearMemory (s : State) (home : Nat) (d : Dep) : State :=
  let s :=
    if s.memPoisoned d.off d.size then (if isForeign d.core then s else s.chaff d 7 (dieOf d.core))
    else s.writeMem d.off (leBytes d.size (d.kind.op.apply d.size (s.mem.load d.size d.off) d.data.toNat))
  s.sendTo .rsp home d.core (.receipt d.slot d.acc false d.kind) 0 8

/-- The reference time at which a posted atomic that is performed now reached its home (R148, R405). -/
def State.reachedAt (s : State) (d : Dep) : Int :=
  ({ s with cycle := s.cycle - serviceCycles false d.off 0 } : State).reference (homeDie d.off)

/-- GLOBAL_POSTED_ATOMIC: the near-memory unit executes a posted atomic and returns a receipt on RSP (R100); one whose timer has
expired, or that is past its deadline, is discarded (R405); one behind an earlier access of its slot to the same bytes waits (R40). The timer
of another panel's core runs there, so that here its deadline alone counts. -/
def execGlobalPostedAtomic (msg : Nat) (s : State) : Out :=
  ok (match s.msg msg with
    | none => s
    | some m =>
      match m.body with
      | .dep d =>
        match s.reqs.find? fun r => r.2.core == d.core && r.2.slot == d.slot && r.2.acc == d.acc && r.2.posted.isSome with
        | none => if isForeign d.core ∧ s.reachedAt d ≤ d.deadline then (s.drop msg).nearMemory m.dst d else s.drop msg
        | some (id, r) =>
          if s.mustWait r then s.standAt id r
          else if r.late 0 then (s.drop msg).performed id r
          else ((s.drop msg).performed id r).nearMemory m.dst d
      | _ => s)

/-- WAKE_R_LANDING: the wake reaches its slot; a slot without a process drops it with a refusal (R58). -/
def execWakeRLanding (msg : Nat) (s : State) : Out :=
  ok (s.landed msg fun s c d =>
    if d.targetSlot = 15 ∨ (s.slot c d.targetSlot).pid.isSome then (s.wake c d.targetSlot).receipt c d 0
    else s.refuse c d 6)

/-- What the arrival of a receipt means to its issuing core (R98, R153). -/
def State.receiptAt (s : State) (c slot acc : Nat) (counted : Bool) (kind : DepKind) : State :=
  let s := if counted then s.modCore c fun k => { k with landedTotal := k.landedTotal + 1 } else s
  match kind with
  | .gleaner lid entry => s.gleanerLanded c lid entry
  | _ =>
    match s.reqs.find? fun r => r.2.core == c && r.2.slot == slot && r.2.acc == acc && r.2.posted.isSome with
    | some (id, r) => s.endRequest id r false
    | none => s.known c slot acc

/-- LANDING_RECEIPT (R98, R100, R154). -/
def execLandingReceipt (msg : Nat) (s : State) : Out :=
  ok (match s.msg msg with
    | some m =>
      match m.body with
      | .receipt slot acc counted kind => (s.drop msg).receiptAt m.dst slot acc counted kind
      | _ => s
    | none => s)

/-! ### The instructions -/

/-- DSB (R95). -/
def execDsb (rs1 rs2 : BitVec 5) (rel : Option Scope) (s : State) : Out := ok (depositOp 1 1 rs1 (.x rs2) rel s)

/-- DSH (R95). -/
def execDsh (rs1 rs2 : BitVec 5) (rel : Option Scope) (s : State) : Out := ok (depositOp 2 2 rs1 (.x rs2) rel s)

/-- DSW (R95). -/
def execDsw (rs1 rs2 : BitVec 5) (rel : Option Scope) (s : State) : Out := ok (depositOp 4 4 rs1 (.x rs2) rel s)

/-- DSD (R95). -/
def execDsd (rs1 rs2 : BitVec 5) (rel : Option Scope) (s : State) : Out := ok (depositOp 8 8 rs1 (.x rs2) rel s)

/-- DSV (R95). -/
def execDsv (rs1 : BitVec 5) (vs2 : BitVec 4) (rel : Option Scope) (s : State) : Out := ok (depositOp 128 64 rs1 (.v vs2) rel s)

/-- DADD_W (R99). -/
def execDaddW (rs1 rs2 : BitVec 5) (rel : Option Scope) (s : State) : Out := ok (postedOp .add 4 rs1 rs2 rel s)

/-- DADD_D (R99). -/
def execDaddD (rs1 rs2 : BitVec 5) (rel : Option Scope) (s : State) : Out := ok (postedOp .add 8 rs1 rs2 rel s)

/-- DMAX_W (R99). -/
def execDmaxW (rs1 rs2 : BitVec 5) (rel : Option Scope) (s : State) : Out := ok (postedOp .max 4 rs1 rs2 rel s)

/-- DMAX_D (R99). -/
def execDmaxD (rs1 rs2 : BitVec 5) (rel : Option Scope) (s : State) : Out := ok (postedOp .max 8 rs1 rs2 rel s)

/-- DMIN_W (R99). -/
def execDminW (rs1 rs2 : BitVec 5) (rel : Option Scope) (s : State) : Out := ok (postedOp .min 4 rs1 rs2 rel s)

/-- DMIN_D (R99). -/
def execDminD (rs1 rs2 : BitVec 5) (rel : Option Scope) (s : State) : Out := ok (postedOp .min 8 rs1 rs2 rel s)

/-- DMAXU_W (R99). -/
def execDmaxuW (rs1 rs2 : BitVec 5) (rel : Option Scope) (s : State) : Out := ok (postedOp .maxu 4 rs1 rs2 rel s)

/-- DMAXU_D (R99). -/
def execDmaxuD (rs1 rs2 : BitVec 5) (rel : Option Scope) (s : State) : Out := ok (postedOp .maxu 8 rs1 rs2 rel s)

/-- DAND_W (R99). -/
def execDandW (rs1 rs2 : BitVec 5) (rel : Option Scope) (s : State) : Out := ok (postedOp .and 4 rs1 rs2 rel s)

/-- DAND_D (R99). -/
def execDandD (rs1 rs2 : BitVec 5) (rel : Option Scope) (s : State) : Out := ok (postedOp .and 8 rs1 rs2 rel s)

/-- DOR_W (R99). -/
def execDorW (rs1 rs2 : BitVec 5) (rel : Option Scope) (s : State) : Out := ok (postedOp .or 4 rs1 rs2 rel s)

/-- DOR_D (R99). -/
def execDorD (rs1 rs2 : BitVec 5) (rel : Option Scope) (s : State) : Out := ok (postedOp .or 8 rs1 rs2 rel s)

/-- DXOR_W (R99). -/
def execDxorW (rs1 rs2 : BitVec 5) (rel : Option Scope) (s : State) : Out := ok (postedOp .xor 4 rs1 rs2 rel s)

/-- DXOR_D (R99). -/
def execDxorD (rs1 rs2 : BitVec 5) (rel : Option Scope) (s : State) : Out := ok (postedOp .xor 8 rs1 rs2 rel s)

end Sys2Proof.Machine
end

