-- ==== Sys2Proof/Machine/Tensor.lean ====
section
/-! DEFINITION. The tensor unit: `mma` with its slices (R273 to R278, R325, R327), accumulators (R279, R328) and drains (R280 to R282,
R284, R326). -/

namespace Sys2Proof.Machine

/-! ### Operands -/

/-- A row stride of `wmstr` from a bit up, in bytes (R270). -/
def rowStride (wmstr : Word) (lo : Nat) : Nat := if field wmstr lo 10 = 0 then 128 else field wmstr lo 10 * 64

/-- The bits of an element of a tensor format (R274). -/
def tensorBits (fmt : Nat) : Nat := ([8, 16, 16, 8, 4, 8, 4, 8][fmt]?).getD 8

/-- The exponent bytes of each row of a tensor format, and how far apart the rows' lie (R273, R274). -/
def tensorExps (fmt : Nat) : Nat × Nat :=
  if fmt = 3 ∨ fmt = 4 then (slicesOf fmt, 8) else if fmt = 5 ∨ fmt = 6 then (2 * slicesOf fmt, 16) else (0, 0)

/-- The byte ranges of an operand: its 16 rows and its exponent bytes (R273). -/
def operandRanges (fmt x stride : Nat) : List (Nat × Nat) :=
  let (n, step) := tensorExps fmt
  (below 16).map (fun i => (x + i * stride, 128))
    ++ (if n = 0 then [] else (below 16).map fun i => (x + 2048 + i * step, n))

/-- The lowest address of some ranges that fails the issuing slot's local check (R273). -/
def State.lowestFault (s : State) (p : Perm) (ranges : List (Nat × Nat)) : Option Nat :=
  ranges.foldl (fun k r =>
    match s.ownFault p r.1 r.2 with
    | none => k
    | some a => some (match k with | none => a | some b => min a b)) none

/-- The 64-byte rows of an operand that are requested from the start of an `mma`, and those from its eighth cycle on (R327). -/
def operandRows (fmt x stride : Nat) : List Nat × List Nat :=
  let exps := ((operandRanges fmt x stride).drop 16).flatMap fun r => rowsOf r.1 r.2
  ((below 16).map (fun i => (x + i * stride) / 64) ++ exps, (below 16).map fun i => (x + i * stride) / 64 + 1)

/-- The rows of both operands of an `mma`, each once. -/
def TensorOp.rows (o : TensorOp) : List Nat × List Nat :=
  let (e1, l1) := operandRows o.fmt.toNat o.a.toNat (rowStride o.wmstr 6)
  let (e2, l2) := operandRows o.fmt.toNat o.b.toNat (rowStride o.wmstr 22)
  let early := (e1 ++ e2).eraseDups
  (early, ((l1 ++ l2).eraseDups).filter fun r => !early.contains r)

/-! ### Slices (R276, R325) -/

/-- A byte of the rows read. -/
def rowByte (d : KMap (BitVec 512 × BitVec 8)) (a : Nat) : Nat :=
  match KMap.get d (a / 64) with
  | some (w, _) => field w (8 * (a % 64)) 8
  | none => 0

/-- Whether a byte range of the rows read holds a poisoned word. -/
def rowPoison (d : KMap (BitVec 512 × BitVec 8)) (a n : Nat) : Bool :=
  (rangeFrom ((a + n - 1) / 8 - a / 8 + 1) (a / 8)).any fun w =>
    match KMap.get d (w / 8) with
    | some (_, p) => bitAt p (w % 8)
    | none => false

/-- The code of element `n` of `bits` bits of a row at an address; in 4-bit formats the even element is low. -/
def rowCode (d : KMap (BitVec 512 × BitVec 8)) (base bits n : Nat) : Nat :=
  if bits = 16 then rowByte d (base + 2 * n) + 256 * rowByte d (base + 2 * n + 1)
  else if bits = 8 then rowByte d (base + n)
  else rowByte d (base + n / 2) / 16 ^ (n % 2) % 16

/-- A value times a power of two. -/
def Num.scale (x : Num) (k : Int) : Num :=
  match x with
  | .fin d => .fin { d with e := d.e + k }
  | x => x

/-- The element kind of an operand of `mma.fp8` and `mma.mxf8` (R315). -/
def fp8Kind (wfmt : Word) (isB : Bool) : Fmt := if field wfmt (if isB then 2 else 0) 2 = 1 then .e5m2 else .e4m3

/-- Element `n` of row `i` of an operand (R325). -/
def TensorOp.elem (o : TensorOp) (d : KMap (BitVec 512 × BitVec 8)) (isB : Bool) (i n : Nat) : Num :=
  let fmt := o.fmt.toNat
  let x := if isB then o.b.toNat else o.a.toNat
  let base := x + i * rowStride o.wmstr (if isB then 22 else 6)
  let code := rowCode d base (tensorBits fmt) n
  let k := n / 32
  let scale := rowByte d (x + 2048 + 8 * i + k)
  let ea := rowByte d (x + 2048 + 16 * i + 2 * k)
  let eb := rowByte d (x + 2048 + 16 * i + 2 * k + 1)
  match fmt with
  | 0 => ((fp8Kind o.wfmt isB).decode code).scale (signedOf 8 (field o.wscl (if isB then 8 else 0) 8))
  | 1 => Fmt.bf16.decode code
  | 2 => Fmt.fp16.decode code
  | 3 => mxValue (fp8Kind o.wfmt isB) scale code
  | 4 => mxValue .e2m1 scale code
  | 5 => dxbValue 6 ea eb code
  | 6 => dxbValue 2 ea eb code
  | _ => .of { n := signedOf 8 code, e := 0 } false

/-- The exact sum of some products: a NaN input, an undefined sum, an infinity, or a number, whose zero is +0 (R325). NV is that of a
signalling input or an undefined sum (R276). -/
def sliceSum (a b : List Num) : Num × Flags :=
  if a.any Num.isNan ∨ b.any Num.isNan then
    (.nan false, Flags.when (a.any Num.signalling || b.any Num.signalling) flagNV)
  else
    let products := (a.zip b).map fun p => p.1.mul p.2
    let (r, f) := products.foldl (fun k p => let (x, g) := k.1.add p.1; (x, k.2 ||| p.2 ||| g)) ((.zero false : Num), (0 : Flags))
    (match r with | .zero _ => .zero false | r => r, f)

/-- Accum for the FP32 formats (R276): the slice sum is rounded, then its sum with the word. -/
def accumFp (c : Nat) (sum : Num × Flags) : Nat × Flags :=
  let w := Fmt.fp32.decode c
  match sum.1, w with
  | .nan _, _ => (Fmt.fp32.nanCode, sum.2)
  | _, .nan _ => (Fmt.fp32.nanCode, sum.2)
  | x, w =>
    let (r, f) := Fmt.fp32.round .rne x
    let (y, g) := (Fmt.fp32.decode r).add w
    let (code, h) := Fmt.fp32.round .rne y
    (code, sum.2 ||| f ||| g ||| h)

/-- Accum for `mma.i8` (R276). -/
def accumInt (c : Nat) (sum : Int) : Nat × Flags := clampInt 32 (signedOf 32 c + sum)

/-- The flags of an accumulator from those of results: NV, OF, UF, NX, SAT, the first highest (R276, R355). -/
def aflOf (f : Flags) : BitVec 5 :=
  BitVec.ofNat 5 (field f 4 1 * 16 + field f 2 1 * 8 + field f 1 1 * 4 + field f 0 1 * 2 + field f 5 1)

/-- The `wvflags` bits that an accumulator's flags raise (R281). -/
def flagsOfAfl (a : BitVec 5) : Flags :=
  BitVec.ofNat 6 (field a 4 1 * 16 + field a 3 1 * 4 + field a 2 1 * 2 + field a 1 1 + field a 0 1 * 32)

/-- Word `n` of an accumulator. -/
def accWord (a : AccWord) (n : Nat) : Nat := field a (32 * n) 32

/-- An accumulator from its words. -/
def accOf (l : List Nat) : AccWord := BitVec.ofNat 8192 (packNat 32 l)

/-- The accumulator's words after slice `k` of an `mma`, with the flags raised. -/
def TensorOp.slice (o : TensorOp) (d : KMap (BitVec 512 × BitVec 8)) (k : Nat) (old : AccWord) : AccWord × Flags :=
  let row (isB : Bool) (i : Nat) : List Num := (rangeFrom 32 (32 * k)).map fun n => o.elem d isB i n
  let bs := (below 16).map (row true)
  let rs := (below 16).flatMap fun i =>
    let a := row false i
    (bs.zip (below 16)).map fun p =>
      let c := accWord old (16 * i + p.2)
      if o.fmt = 7 then
        accumInt c ((a.zip p.1).foldl (fun t q => t + q.1.dyad.atExp 0 * q.2.dyad.atExp 0) 0)
      else accumFp c (sliceSum a p.1)
  (accOf (rs.map (·.1)), flagsOf rs)

/-- Whether slice `k` of an `mma` reads a poisoned word (R344). -/
def TensorOp.slicePoison (o : TensorOp) (d : KMap (BitVec 512 × BitVec 8)) (k : Nat) : Bool :=
  let fmt := o.fmt.toNat
  let bytes := 4 * tensorBits fmt
  let (n, step) := tensorExps fmt
  let each := n / slicesOf fmt
  [(o.a.toNat, rowStride o.wmstr 6), (o.b.toNat, rowStride o.wmstr 22)].any fun x => (below 16).any fun i =>
    rowPoison d (x.1 + i * x.2 + k * bytes) bytes || (each != 0 && rowPoison d (x.1 + 2048 + i * step + k * each) each)

/-! ### Issue -/

/-- A tensor instruction on an accumulator that the slot must own: otherwise cause 28 (R275, R279, R281). -/
def owning (n : BitVec 3) (s : State) (k : State → State) : State :=
  if (s.here.getAcc n).owner = some s.curSlot then k s else s.trap 28 (n.setWidth 64)

/-- Makes an accumulator EMPTY with the tensor unit as its producer. -/
def State.emptyAcc (s : State) (n : BitVec 3) : State :=
  s.modHere fun k => k.modAcc n fun a => { a with reg := { fe := .empty, prod := some .tensor } }

/-- Whether the formats that read AK and BK find a reserved kind (R275, R315). -/
def badKind (fmt : Nat) (wfmt : Word) : Bool := (fmt == 0 || fmt == 3) && (decide (2 ≤ field wfmt 0 2) || decide (2 ≤ field wfmt 2 2))

/-- `mma` (R275). The alignments of A and of B are checked before the ranges of either: the model's choice (log 115). -/
def mmaOp (fmt : Nat) (acc : BitVec 3) (rs1 rs2 : BitVec 5) (z : Bool) (s : State) : State :=
  owning acc s fun s =>
    testing ([.x rs1, .x rs2] ++ if z then [] else [.acc acc]) s fun s => reading [.x rs1, .x rs2] s fun s =>
      let a := s.x rs1
      let b := s.x rs2
      let wm := s.me.u.wmstr
      if a.toNat % 64 ≠ 0 then s.trap 4 a
      else if b.toNat % 64 ≠ 0 then s.trap 4 b
      else match s.lowestFault .read (operandRanges fmt a.toNat (rowStride wm 6) ++ operandRanges fmt b.toNat (rowStride wm 22)) with
        | some f => s.trap 5 (BitVec.ofNat 64 f)
        | none =>
          if badKind fmt s.me.u.wfmt then s.trap 31 0
          else
            let go (s : State) : State :=
              if !s.here.tileFree then s.block (.mma true)
              else if s.here.tq.any fun o => o.slot == s.curSlot then s.block (.mma false)
              else gated .mx .core s fun s =>
                let (n, s) := s.addAccess s.curCore s.curSlot .mx .core false
                let op : TensorOp := { slot := s.curSlot, acc := acc.toNat, a := a, b := b, fmt := BitVec.ofNat 4 fmt, z := z, next := 0,
                                       poison := false, wfmt := s.me.u.wfmt, wscl := s.me.u.wscl, wmstr := wm, access := n }
                (((s.emptyAcc acc).modHere fun k => { k with tq := k.tq ++ [op] }).retire).kickTensor s.curCore s.cycle
            if z then writing (.acc acc) s go else readWrite [.acc acc] (.acc acc) s go

/-! ### The unit's events -/

/-- MMA_START (R277, R327). -/
def execMmaStart (core : Nat) (s : State) : Out :=
  ok (let k := s.core core
      match k.tq with
      | [] => s
      | op :: rest =>
        if k.trun.isSome ∨ ¬ k.tileFree then s
        else if s.tensorCycle core s.cycle ≠ s.cycle then s.kickTensor core s.cycle
        else
          let (early, late) := op.rows
          let words := if op.z ∧ op.next = 0 then 0 else (k.getAcc (BitVec.ofNat 3 op.acc)).words
          let a := k.getAcc (BitVec.ofNat 3 op.acc)
          let afl := if op.next ≠ 0 then a.part else if op.z then 0 else a.afl
          let run : TensorRun := { op := op, start := s.cycle, early := early.length, late := late.length, earlyLast := 0, lateLast := 0,
                                   data := [], words := words, afl := afl, cut := none, abandon := none }
          let request (lateRow : Bool) (r : Nat) : BankReq :=
            { cls := .tensor, bank := r % 32, first := s.cycle + (if lateRow then 8 else 0), act := .mmaRow s.cycle r lateRow }
          let s' := (s.modCore core fun k => { k with
            tq := rest
            trun := some run }).present core (early.map (request false) ++ late.map (request true))
          s'.schedule (s.cycle + (op.next + 1) * (16 / slicesOf op.fmt.toNat) - 1) 6 (.event (.mmaSliceEnd core)))

/-- The grant of an operand row to the running `mma`. -/
def State.mmaRow (s : State) (core start row : Nat) (late : Bool) : State :=
  match (s.core core).trun with
  | none => s
  | some r =>
    if r.start ≠ start then s
    else
      let k := s.core core
      let bad := (below 8).foldl (fun m i => m + bit (k.poisoned (row * 64 + 8 * i) 8) * 2 ^ i) 0
      let r := { r with data := KMap.put r.data row (BitVec.ofNat 512 (k.spad.load 64 (row * 64)), BitVec.ofNat 8 bad) }
      let r := if late then { r with
          late := r.late - 1
          lateLast := s.cycle } else { r with
          early := r.early - 1
          earlyLast := s.cycle }
      s.modCore core fun k => { k with trun := some r }

/-- The last cycle of slice `k` of a running `mma`, once the rows it needs have been granted (R327). -/
def TensorRun.sliceEnd (r : TensorRun) (k : Nat) : Option Nat :=
  let n := slicesOf r.op.fmt.toNat
  let nominal := r.start + (k + 1) * (16 / n) - 1
  let de := r.earlyLast - (r.start + 7)
  if r.early ≠ 0 then none
  else if 2 * k < n then some (nominal + de)
  else if r.late ≠ 0 then none
  else some (nominal + max de (r.lateLast - (r.start + 15)))

/-- A running `mma` with its next slice applied. -/
def TensorRun.applySlice (r : TensorRun) : TensorRun :=
  let k := r.op.next
  let (words, f) := r.op.slice r.data k r.words
  { r with
    words := words
    afl := r.afl ||| aflOf f
    op := { r.op with
      next := k + 1
      poison := r.op.poison || r.op.slicePoison r.data k } }

/-- The slices of a running `mma` that have ended by a cycle, applied one after another, and whether `sstop` or `skill` ends it with the
last of them (R278, R327). -/
def TensorRun.applyDue (r : TensorRun) (now : Nat) : Nat → TensorRun × Bool
  | 0 => (r, false)
  | n + 1 =>
    match r.sliceEnd r.op.next with
    | none => (r, false)
    | some e =>
      if now < e then (r, false)
      else
        let t := r.applySlice
        if r.abandon.any (· ≤ e) ∨ r.cut.any (· ≤ e) then (t, true) else t.applyDue now n

/-- The tensor unit is free, and the next `mma` may start from a cycle on. -/
def State.freeTensor (s : State) (core frm : Nat) : State :=
  (s.modCore core fun k => { k with trun := none }).kickTensor core frm

/-- A stopped `mma` stays with its slot, its record the first; if the slot has been resumed meanwhile it returns to the queue, ahead of
the slot's other (R278). -/
def State.stopMma (s : State) (core : Nat) (o : TensorOp) : State :=
  if (s.slot core o.slot).hold then s.modSlot core o.slot fun t => { t with stopped := o :: t.stopped }
  else s.modCore core fun k => { k with
    tq := k.tq.takeWhile (fun q => q.slot != o.slot) ++ o :: k.tq.dropWhile fun q => q.slot != o.slot }

/-- MMA_SLICE_END (R278, R296, R327), after every hold of its cycle: slices are applied at their ends. An abandoned `mma` then leaves its accumulator EMPTY without a
producer; one of a held slot stops with its partial sum, unless this was its last slice. -/
def execMmaSliceEnd (core : Nat) (s : State) : Out :=
  ok (match (s.core core).trun with
    | none => s
    | some r =>
      let (r, ends) := r.applyDue s.cycle 8
      let n := BitVec.ofNat 3 r.op.acc
      let s := s.modCore core fun k => { k with trun := some r }
      if ends ∧ r.abandon.isSome then
        ((s.modCore core fun k => k.modAcc n fun a => { a with reg := { fe := .empty, prod := none } }).known core r.op.slot
          r.op.access).freeTensor core (s.cycle + 1)
      else if slicesOf r.op.fmt.toNat ≤ r.op.next then s.schedule (s.cycle + 1) 0 (.event (.mmaComplete core))
      else if ends then
        ((s.modCore core fun k => k.modAcc n fun a => { a with
          words := r.words
          part := r.afl }).stopMma core r.op).freeTensor core (s.cycle + 1)
      else
        s.schedule (max ((r.sliceEnd r.op.next).getD 0) (s.cycle + 1)) 6 (.event (.mmaSliceEnd core)))

/-- MMA_COMPLETE: the accumulator becomes FULL, or POISONED with its value and flags unchanged, and the unit is free (R277, R344). -/
def execMmaComplete (core : Nat) (s : State) : Out :=
  ok (match (s.core core).trun with
    | none => s
    | some r =>
      if r.op.next < slicesOf r.op.fmt.toNat then s
      else
        let s := s.modCore core fun k => k.modAcc (BitVec.ofNat 3 r.op.acc) fun a =>
          if r.op.poison then { a with reg := { fe := .poisoned, prod := none } }
          else { a with
            words := r.words
            afl := r.afl
            reg := RegSt.full }
        (s.known core r.op.slot r.op.access).freeTensor core s.cycle)

/-! ### Accumulator instructions (R279) -/

/-- MACQ. -/
def execMacq (acc : BitVec 3) (s : State) : Out :=
  ok (match (s.here.getAcc acc).owner with
    | none => (s.modHere fun k => k.modAcc acc fun a => { a with owner := some s.curSlot }).retire
    | some i => if i = s.curSlot then s.retire else s.block (.macq acc.toNat))

/-- MREL. -/
def execMrel (acc : BitVec 3) (s : State) : Out :=
  ok (owning acc s fun s => (s.modHere fun k => k.modAcc acc fun a => { a with owner := none }).retire)

/-- MZERO writes the accumulator on the MX path. -/
def execMzero (acc : BitVec 3) (s : State) : Out :=
  ok (owning acc s fun s => writing (.acc acc) s fun s => gated .mx .core s fun s =>
    (s.modHere fun k => k.modAcc acc fun a => { a with
      words := 0
      afl := 0
      reg := RegSt.full }).retire)

/-- A byte range cut at the 64-byte rows: address, offset in the range, length. -/
def rowParts (a n : Nat) : List (Nat × Nat × Nat) :=
  (rowsOf a n).map fun r =>
    let lo := max a (r * 64)
    let hi := min (a + n) (r * 64 + 64)
    (lo, lo - a, hi - lo)

/-- The stride of DSTR, or the row bytes when it is 0 (R270). -/
def drainStride (wmstr : Word) (rowBytes : Nat) : Nat := if field wmstr 36 12 = 0 then rowBytes else field wmstr 36 12 * 16

/-- MLOAD. -/
def execMload (acc : BitVec 3) (rs1 : BitVec 5) (s : State) : Out :=
  ok (owning acc s fun s => reading [.x rs1] s fun s =>
    let x := s.x rs1
    let stride := drainStride s.me.u.wmstr 64
    let rows := (below 16).map fun i => (x.toNat + i * stride, 64)
    if x.toNat % 16 ≠ 0 then s.trap 4 x
    else match s.lowestFault .read rows with
      | some f => s.trap 5 (BitVec.ofNat 64 f)
      | none =>
        writing (.acc acc) s fun s => gated .mx .core s fun s =>
          let (n, s) := s.addAccess s.curCore s.curSlot .mx .core false
          let reqs := (below 16).flatMap fun i => (rowParts (x.toNat + i * stride) 64).map fun p =>
            ({ cls := .tensor, bank := bankOf p.1, first := s.cycle + 4 + i,
               act := .mloadRow acc.toNat p.1 (64 * i + p.2.1) p.2.2 } : BankReq)
          let m : MLoad := { slot := s.curSlot, access := n, left := reqs.length, words := 0, poison := false }
          let s := (s.emptyAcc acc).modHere fun k => { k with mloads := KMap.put k.mloads acc.toNat m }
          (s.present s.curCore reqs).retire)

/-- The grant of a row of an `mload`. -/
def State.mloadRow (s : State) (core acc addr place size : Nat) : State :=
  match KMap.get (s.core core).mloads acc with
  | none => s
  | some m =>
    let k := s.core core
    let m := { m with
      left := m.left - 1
      words := setField m.words (8 * place) (8 * size) (k.spad.load size addr)
      poison := m.poison || k.poisoned addr size }
    let s := s.modCore core fun k => { k with mloads := KMap.put k.mloads acc m }
    if m.left = 0 then s.at (s.cycle + 1) (.mloadComplete core acc) else s

/-- MLOAD_COMPLETE (R279, R344): AFL is cleared unless a row was poisoned, which leaves it unchanged. -/
def execMloadComplete (core acc : Nat) (s : State) : Out :=
  ok (match KMap.get (s.core core).mloads acc with
    | none => s
    | some m =>
      let s := s.modCore core fun k => { k.modAcc (BitVec.ofNat 3 acc) (fun a =>
          if m.poison then { a with reg := { fe := .poisoned, prod := none } }
          else { a with
            words := m.words
            afl := 0
            reg := RegSt.full }) with mloads := KMap.del k.mloads acc }
      s.known core m.slot m.access)

/-! ### Drains (R280 to R282, R284, R326) -/

/-- A drain target: how a row of words becomes bytes. -/
inductive DrainTarget where
  | fp (f : Fmt)
  | int32
  | int8
  | block (b : BlockFmt)
  deriving DecidableEq, Repr

/-- The target of a TGT value (R280). -/
def drainTarget (tgt : Nat) : Option DrainTarget :=
  match tgt with
  | 0 => some (.fp .fp32)
  | 1 => some (.fp .bf16)
  | 2 => some (.fp .fp16)
  | 3 => some (.fp .e4m3)
  | 4 => some (.fp .e5m2)
  | 5 => some .int32
  | 6 => some .int8
  | 8 => some (.block (.mx .e4m3))
  | 9 => some (.block (.mx .e5m2))
  | 10 => some (.block (.mx .e2m1))
  | 11 => some (.block (.dxb 6))
  | 12 => some (.block (.dxb 2))
  | _ => none

/-- Whether a target is a block target. -/
def DrainTarget.isBlock : DrainTarget → Bool
  | .block _ => true
  | _ => false

/-- The bytes of a row of a target (R280). -/
def DrainTarget.rowBytes : DrainTarget → Nat
  | .fp f => 2 * f.width
  | .int32 => 64
  | .int8 => 16
  | .block b => 4 * b.bits

/-- The exponent bytes of a row, and how far apart the rows' lie (R280). -/
def DrainTarget.exps : DrainTarget → Nat × Nat
  | .block (.mx _) => (1, 8)
  | .block (.dxb _) => (2, 16)
  | _ => (0, 0)

/-- A row of words of a target: its bytes as a number, its exponent bytes, and the flags raised (R281, R326). -/
def DrainTarget.row (t : DrainTarget) (sd : Int) (spread : Nat) (words : List Nat) : Nat × Nat × Flags :=
  match t with
  | .fp f =>
    let rs := words.map fun w =>
      let x := Fmt.fp32.decode w
      let (c, g) := f.round .rne (x.scale sd)
      (c, g ||| Flags.when x.signalling flagNV)
    (packNat f.width (rs.map (·.1)), 0, flagsOf rs)
  | .int32 => (packNat 32 words, 0, 0)
  | .int8 =>
    let rs := words.map fun w => clampInt 8 (signedOf 32 w)
    (packNat 8 (rs.map (·.1)), 0, flagsOf rs)
  | .block b =>
    let (codes, e0, e1, g) := b.quantise spread (words.map Fmt.fp32.decode)
    (packNat b.bits codes, e0 + 256 * e1, g)

/-- Row `i` of the words that a drain reads. -/
def drainWords (t : DrainTarget) (a b : AccWord) (i : Nat) : List Nat :=
  (below 16).map (fun j => accWord a (16 * i + j)) ++ (if t.isBlock then (below 16).map fun j => accWord b (16 * i + j) else [])

/-- What the accumulators of a drain become under CLR (R280). -/
def Acc.cleared (a : Acc) : Acc :=
  { a with
    words := 0
    afl := 0
    reg := RegSt.full }

/-- The snapshot of a drain: its rows with their exponent bytes; the flags are raised and CLR takes effect (R281). -/
def State.snapshot (s : State) (t : DrainTarget) (acc : BitVec 3) (clear : Bool) : List (Nat × Nat) × State :=
  let a := s.here.getAcc acc
  let b := s.here.getAcc (acc + 1)
  let rows := (below 16).map fun i =>
    t.row (signedOf 8 (field s.me.u.wscl 16 8)) (spreadOf s.me.u.wfmt) (drainWords t a.words b.words i)
  let f := rows.foldl (fun g r => g ||| r.2.2) (flagsOfAfl a.afl ||| (if t.isBlock then flagsOfAfl b.afl else 0))
  let s := s.raiseFlags f
  let s := if clear then s.modHere fun k =>
      let k := k.modAcc acc Acc.cleared
      if t.isBlock then k.modAcc (acc + 1) Acc.cleared else k
    else s
  (rows.map fun r => (r.1, r.2.1), s)

/-- Checks the control word of a drain (R280): its target and CLR, or cause 31. -/
def checkControl (ctl wmstr : Word) (acc : BitVec 3) (amax : Bool) (legal : Nat → Bool) : Option (DrainTarget × Bool) :=
  match drainTarget (field ctl 0 4) with
  | none => none
  | some t =>
    if field ctl 5 59 ≠ 0 ∨ legal (field ctl 0 4) = false ∨ (t.isBlock ∧ acc.toNat % 2 = 1)
        ∨ (field wmstr 36 12 ≠ 0 ∧ field wmstr 36 12 * 16 < t.rowBytes) ∨ (amax ∧ (t = .int32 ∨ t = .int8)) then none
    else some (t, bitAt ctl 4)

/-- The largest magnitude bits of the words of a drain's snapshot (R284). -/
def amaxOf (t : DrainTarget) (a b : AccWord) : Nat :=
  ((below 16).flatMap fun i => drainWords t a b i).foldl (fun k w => max k (w % 2 ^ 31)) 0

/-- The amax word's address (R272). -/
def amaxAddr (wamax : Word) : Word := wamax &&& ~~~3#64

/-- The release scope of the amax update (R272). -/
def amaxScope (wamax : Word) : Scope :=
  match field wamax 0 2 with
  | 0 => .core
  | 1 => .die
  | 2 => .panel
  | _ => .domain

/-- Checks `wamax` of a drain with `.amax` as `dmaxu.w` would and goes on with its deposit; without it goes on at once (R284). -/
def withAmax (amax : Bool) (t : DrainTarget) (acc : BitVec 3) (s : State) (k : Option (Dep × Scope) → State → State) : State :=
  if amax = false then k none s
  else
    let g := amaxOf t (s.here.getAcc acc).words (s.here.getAcc (acc + 1)).words
    withPosted .maxu 4 (amaxAddr s.me.u.wamax) (BitVec.ofNat 1024 g) s fun d sc s => k (some (d, sc)) s

/-- Adds the amax update of a drain to its record: it waits for the slot's earlier accesses within its scope and for the drain's own
rows (R284). Its access stands on path MX with the target's scope: the model's choice (log 78). -/
def State.armAmax (s : State) (drain : Nat) (earlier rows : List Nat) (a : Option (Dep × Scope)) : State :=
  match a with
  | none => s
  | some (d, sc) =>
    let (n, s) := s.addAccess s.curCore s.curSlot .mx sc d.global
    let d := { d with
      acc := n
      rel := some (amaxScope s.me.u.wamax)
      awaited := earlier ++ rows }
    let s := s.modHere fun k => { k with
      drains := k.drains.map fun x => if x.id = drain then { x with amax := some d } else x }
    if d.awaited.isEmpty then s.at s.cycle (.amaxUpdate s.curCore drain) else s

/-- The start of every drain (R281): ownership, sources, control word, checks, `wamax`, the read of its accumulators. -/
def drainOp (acc : BitVec 3) (rs1 rs2 : BitVec 5) (amax : Bool) (legal : Nat → Bool) (s : State)
    (check : Word → DrainTarget → State → (State → State) → State)
    (go : Word → DrainTarget → Bool → Option (Dep × Scope) → State → State) : State :=
  owning acc s fun s =>
    let two : Bool := (s.regState (.x rs2)).fe == .full && (drainTarget (field (s.x rs2) 0 4)).any DrainTarget.isBlock && acc.toNat % 2 == 0
    let accs : List RegRef := .acc acc :: if two then [.acc (acc + 1)] else []
    let second (s : State) (k : State → State) : State := if two then owning (acc + 1) s k else k s
    second s fun s => testing ([.x rs1, .x rs2] ++ accs) s fun s => reading [.x rs1, .x rs2] s fun s =>
      match checkControl (s.x rs2) s.me.u.wmstr acc amax legal with
      | none => s.trap 31 0
      | some (t, clear) =>
        check (s.x rs1) t s fun s => withAmax amax t acc s fun a s =>
          readWrite accs (.acc acc) s fun s => go (s.x rs1) t clear a s

/-- Whether both drain buffers of a core are busy (R281). -/
def Core.drainsBusy (k : Core) : Bool := decide (2 ≤ (k.drains.filter fun d => d.left != 0).length)

/-- The byte ranges that `mdrain` writes (R280, R281). -/
def drainRanges (t : DrainTarget) (d stride : Nat) : List (Nat × Nat) :=
  let (n, step) := t.exps
  (below 16).map (fun i => (d + i * stride, t.rowBytes))
    ++ (if n = 0 then [] else (below 16).map fun i => (d + 2048 + i * step, n))

/-- The exponent bytes of a drain, gathered by row of the scratchpad. -/
def exponentSegs (t : DrainTarget) (d : Nat) (rows : List (Nat × Nat)) : List (List (Nat × List Byte)) :=
  let (n, step) := t.exps
  if n = 0 then []
  else
    let segs := (rows.zip (below 16)).flatMap fun r =>
      (rowParts (d + 2048 + r.2 * step) n).map fun p => (p.1, ((leBytes n r.1.2).drop p.2.1).take p.2.2)
    ((segs.map fun g => g.1 / 64).eraseDups).map fun row => segs.filter fun g => g.1 / 64 == row

/-- The bank requests of an `mdrain` issued at a cycle: row i at t + 4 + i, exponent bytes at t + 20 (R281). -/
def drainReqs (id : Nat) (t : DrainTarget) (d stride cycle : Nat) (rows : List (Nat × Nat)) : List BankReq :=
  let write (first : Nat) (segs : List (Nat × List Byte)) : BankReq :=
    { cls := .tensor, bank := bankOf ((segs.head?.map fun g => g.1).getD 0), first := first, act := .drainRow id segs }
  ((rows.zip (below 16)).flatMap fun r => (rowParts (d + r.2 * stride) t.rowBytes).map fun p =>
      write (cycle + 4 + r.2) [(p.1, ((leBytes t.rowBytes r.1.1).drop p.2.1).take p.2.2)])
    ++ (exponentSegs t d rows).map (write (cycle + 20))

/-- Adds a drain to the core. -/
def State.addDrain (s : State) (id acc left : Nat) (rows : List Dep) : State :=
  s.modHere fun k => { k with
    drains := k.drains ++ [{ id := id, slot := s.curSlot, acc := acc, left := left, rows := rows, amax := none }] }

/-- MDRAIN (R281). -/
def execMdrain (acc : BitVec 3) (rs1 rs2 : BitVec 5) (amax : Bool) (s : State) : Out :=
  ok (drainOp acc rs1 rs2 amax (fun _ => true) s
    (fun d t s k =>
      if d.toNat % 16 ≠ 0 then s.trap 6 d
      else match s.lowestFault .write (drainRanges t d.toNat (drainStride s.me.u.wmstr t.rowBytes)) with
        | some f => s.trap 7 (BitVec.ofNat 64 f)
        | none => k s)
    (fun d t clear a s =>
      if s.here.drainsBusy then s.block .unlimited
      else gated .mx .core s fun s =>
        let earlier := match a with | some _ => s.me.accsWithin allPaths (amaxScope s.me.u.wamax) | none => []
        let stride := drainStride s.me.u.wmstr t.rowBytes
        let (rows, s) := s.snapshot t acc clear
        let (n, s) := s.addAccess s.curCore s.curSlot .mx .core false
        let reqs := drainReqs n t d.toNat stride s.cycle rows
        let s := (s.addDrain n acc.toNat reqs.length []).armAmax n earlier [n] a
        (s.present s.curCore reqs).retire))

/-- The grant of a write of a drain. -/
def State.drainRow (s : State) (core drain : Nat) (segs : List (Nat × List Byte)) : State :=
  let s := segs.foldl (fun s g => s.writeSpad core g.1 g.2) s
  let s := s.modCore core fun k => { k with
    drains := k.drains.map fun d => if d.id = drain then { d with left := d.left - 1 } else d }
  if (s.core core).drains.any fun d => d.id == drain && d.left == 0 then s.now (.drainComplete core drain) else s

/-- Gives each row of an `mdrain.d` its access, which begins at the issue of the drain. -/
def State.rowDeposits (s : State) (sc : Scope) : List Dep → List Dep × State
  | [] => ([], s)
  | d :: t =>
    let (n, s) := s.addAccess s.curCore s.curSlot .mx sc false
    let (l, s) := s.rowDeposits sc t
    ({ d with acc := n } :: l, s)

/-- MDRAIN_D (R282): a deposit for each row, enqueued in cycles t + 4 to t + 19, each with a place kept for it from issue. -/
def execMdrainD (acc : BitVec 3) (rs1 rs2 : BitVec 5) (amax : Bool) (s : State) : Out :=
  ok (drainOp acc rs1 rs2 amax (fun t => t ≤ 6) s
    (fun d t s k => withDa d 16 s fun _ _ s =>
      if localSize < field d 0 21 + 15 * drainStride s.me.u.wmstr t.rowBytes + t.rowBytes then s.trap 7 d else k s)
    (fun d t clear a s => withDa d 16 s fun panel core s =>
      let sc := s.targetScope s.curCore panel core
      if s.here.drainsBusy ∨ outboundSize < s.here.outbound + 16 then s.block .unlimited
      else gated .mx sc s fun s =>
        let earlier := match a with | some _ => s.me.accsWithin allPaths (amaxScope s.me.u.wamax) | none => []
        let stride := drainStride s.me.u.wmstr t.rowBytes
        let (rows, s) := s.snapshot t acc clear
        let (n, s) := s.fresh
        let base := s.depTo (.drain n) d panel core t.rowBytes 0
        let deps := (rows.zip (below 16)).map fun r => { base with
          addr := d + BitVec.ofNat 64 (r.2 * stride)
          off := base.off + r.2 * stride
          data := BitVec.ofNat 1024 r.1.1
          asid := field s.here.wasid 44 10
          ready := s.cycle + 8 + r.2 }
        let (rows, s) := s.rowDeposits sc deps
        let s := (s.addDrain n acc.toNat 1 rows).armAmax n earlier (rows.map fun d => d.acc) a
        let s := (below 16).foldl (fun s i => s.at (s.cycle + 4 + i) (.depositDepart s.curCore 0)) s
        (s.at (s.cycle + 20) (.drainComplete s.curCore n)).retire))

/-- Takes a drain whose work is done from the core, unless its amax update is still to leave. -/
def Core.dropDrain (k : Core) (id : Nat) : Core :=
  { k with drains := k.drains.filter fun d => d.id != id || d.amax.isSome }

/-- DRAIN_COMPLETE: the drain's buffer is free and the slot knows its writes to be performed (R153, R281). -/
def execDrainComplete (core drain : Nat) (s : State) : Out :=
  ok (match (s.core core).drains.find? fun d => d.id == drain with
    | none => s
    | some d =>
      let s := s.modCore core fun k => { k with
        drains := k.drains.map fun x => if x.id = drain then { x with left := 0 } else x }
      (s.known core d.slot drain).modCore core fun k => k.dropDrain drain)

/-- AMAX_UPDATE: the update of a drain leaves, as a posted `dmaxu.w` (R284). -/
def execAmaxUpdate (core drain : Nat) (s : State) : Out :=
  ok (match (s.core core).drains.find? fun d => d.id == drain with
    | none => s
    | some x =>
      match x.amax with
      | none => s
      | some d =>
        if !d.awaited.isEmpty then s
        else
          let s := s.modCore core fun k => { k with
            drains := (k.drains.map fun y => if y.id = drain then { y with amax := none } else y).filter fun y =>
              y.id != drain || y.left != 0 }
          s.enqueue { d with ready := max d.ready s.cycle })

/-- MMA_FP8 (R275). -/
def execMmaFp8 (acc : BitVec 3) (rs1 rs2 : BitVec 5) (z : Bool) (s : State) : Out := ok (mmaOp 0 acc rs1 rs2 z s)

/-- MMA_BF16 (R275). -/
def execMmaBf16 (acc : BitVec 3) (rs1 rs2 : BitVec 5) (z : Bool) (s : State) : Out := ok (mmaOp 1 acc rs1 rs2 z s)

/-- MMA_FP16 (R275). -/
def execMmaFp16 (acc : BitVec 3) (rs1 rs2 : BitVec 5) (z : Bool) (s : State) : Out := ok (mmaOp 2 acc rs1 rs2 z s)

/-- MMA_MXF8 (R275). -/
def execMmaMxf8 (acc : BitVec 3) (rs1 rs2 : BitVec 5) (z : Bool) (s : State) : Out := ok (mmaOp 3 acc rs1 rs2 z s)

/-- MMA_MXF4 (R275). -/
def execMmaMxf4 (acc : BitVec 3) (rs1 rs2 : BitVec 5) (z : Bool) (s : State) : Out := ok (mmaOp 4 acc rs1 rs2 z s)

/-- MMA_DXB8 (R275). -/
def execMmaDxb8 (acc : BitVec 3) (rs1 rs2 : BitVec 5) (z : Bool) (s : State) : Out := ok (mmaOp 5 acc rs1 rs2 z s)

/-- MMA_DXB4 (R275). -/
def execMmaDxb4 (acc : BitVec 3) (rs1 rs2 : BitVec 5) (z : Bool) (s : State) : Out := ok (mmaOp 6 acc rs1 rs2 z s)

/-- MMA_I8 (R275). -/
def execMmaI8 (acc : BitVec 3) (rs1 rs2 : BitVec 5) (z : Bool) (s : State) : Out := ok (mmaOp 7 acc rs1 rs2 z s)

end Sys2Proof.Machine
end

