-- ==== Sys2Proof/Machine/Tree.lean ====
section
/-! DEFINITION. The spanning trees of groups (R221). -/

namespace Sys2Proof.Machine

/-- The entry of a node of a tree. -/
def Tree.at (t : Tree) (n : Nat) : Option TreeNode := t.find? fun x => x.node == n

/-- The parent of a node. -/
def Tree.parent (t : Tree) (n : Nat) : Option Nat := (t.at n).bind fun x => x.parent

/-- The children of a node. -/
def Tree.children (t : Tree) (n : Nat) : List Nat := match t.at n with | some x => x.children | none => []

/-- The root of a tree. -/
def Tree.root (t : Tree) : Option Nat := t.head?.map fun x => x.node

/-- Hangs a node below another, unless the tree holds it. -/
def Tree.hang (t : Tree) (link : Nat × Nat) : Tree :=
  if (t.at link.1).isSome then t
  else (t.map fun x => if x.node = link.2 then { x with children := x.children ++ [link.1] } else x)
    ++ [{ node := link.1, parent := some link.2, children := [], member := false }]

/-- Joins the path of a member to the root, itself first, to a tree (R221). -/
def Tree.graft (t : Tree) (path : List Nat) : Tree :=
  ((path.zip path.tail).foldr (fun l t => t.hang l) t).map fun x => if path.head? = some x.node then { x with member := true } else x

/-- The spanning tree of some members by the paths that take them to its root (R221). -/
def treeBy (root : Nat) (paths : List (List Nat)) : Tree :=
  paths.foldl Tree.graft [{ node := root, parent := none, children := [], member := true }]

/-- The spanning tree of some cores of this panel, the first of them its root: a core's path is its route to the root (R221). -/
def treeOf (members : List Nat) : Tree :=
  match members with
  | [] => []
  | root :: others => treeBy root (others.map fun m => m :: pathNodes m root)

/-- The nodes from a node up to the root, at most `n`. -/
def Tree.climb (t : Tree) : Nat → Nat → List Nat
  | 0, _ => []
  | k + 1, n => n :: match t.parent n with | some p => t.climb k p | none => []

/-- The nodes on the path of a node to the root, itself among them. -/
def Tree.path (t : Tree) (n : Nat) : List Nat := t.climb t.length n

/-- Whether one of some cores lies at or below a node. -/
def Tree.above (t : Tree) (n : Nat) (cores : List Nat) : Bool := cores.any fun c => (t.path c).contains n

/-- The child of a node below which, or at which, a core lies. -/
def Tree.toward (t : Tree) (n core : Nat) : Option Nat := (t.path core).find? fun x => t.parent x == some n

/-- The nodes without children. -/
def Tree.leaves (t : Tree) : List Nat := (t.filter fun x => x.children.isEmpty).map fun x => x.node

end Sys2Proof.Machine
end

