-- ==== Sys2Proof/Machine/Thresher.lean ====
section
/-! DEFINITION. The Thresher and plane operations (R283, R290 to R293, R329, R369 to R388, R429). Messages go node by node over the tree of an
operation: EROUNDs and UPs combine on their way to its root, HEADERs and PLANEs come down from there to every branch (log 31). -/

namespace Sys2Proof.Machine

/-! ### Operations and ranks -/

/-- A plane operation. -/
def State.plane (s : State) (p : Nat) : Option PlaneOp := KMap.get s.planes p

/-- Updates a plane operation. -/
def State.modPlane (s : State) (p : Nat) (f : PlaneOp → PlaneOp) : State :=
  match s.plane p with
  | none => s
  | some o => { s with planes := KMap.put s.planes p (f o) }

/-- A rank of a plane operation. -/
def State.rank (s : State) (p m : Nat) : Option Rank := (s.plane p).bind fun o => KMap.get o.ranks m

/-- Updates a rank of a plane operation. -/
def State.modRank (s : State) (p m : Nat) (f : Rank → Rank) : State :=
  s.modPlane p fun o => match KMap.get o.ranks m with
    | none => o
    | some r => { o with ranks := KMap.put o.ranks m (f r) }

/-- Updates the Thresher of a core. -/
def State.modTh (s : State) (c : Nat) (f : Thresher → Thresher) : State := s.modCore c fun k => { k with th := f k.th }

/-- Updates an operation of a core's Thresher. -/
def State.modThOp (s : State) (c oid : Nat) (f : ThOp → ThOp) : State :=
  s.modTh c fun h => { h with ops := h.ops.map fun o => if o.oid = oid then f o else o }

/-- An operation of a core's Thresher. -/
def State.thOp (s : State) (c oid : Nat) : Option ThOp := (s.core c).th.ops.find? fun o => o.oid == oid

/-- The root of an operation's tree (R221, R368). -/
def PlaneOp.root (o : PlaneOp) : Nat := o.tree.root.getD 0

/-- The ranks that send and were not rejected. -/
def PlaneOp.senders (o : PlaneOp) : List (Nat × Rank) := o.ranks.filter fun r => r.2.send && !r.2.rejected

/-- The ranks that receive and were not rejected or ended FAULT before delivery. -/
def PlaneOp.receivers (o : PlaneOp) : List (Nat × Rank) :=
  o.ranks.filter fun r => r.2.recv && !r.2.rejected && r.2.ending != some 4

/-- Whether an operation reduces (R369). -/
def PlaneOp.reduces (o : PlaneOp) : Bool := match o.ref with | some d => d.reduces | none => false

/-- The rank at a core. -/
def PlaneOp.rankAt (o : PlaneOp) (core : Nat) : Option (Nat × Rank) := o.ranks.find? fun r => r.2.core == core

/-- The nodes at and just below a node at or below which some ranks are: the node itself stands for its own rank. -/
def PlaneOp.branches (o : PlaneOp) (n : Nat) (ranks : List (Nat × Rank)) : List Nat :=
  let cores := ranks.map fun r => r.2.core
  (if cores.contains n then [n] else []) ++ (o.tree.children n).filter fun c => o.tree.above c cores

/-- The forward mask of a node (R385): its branches with a receiver, but for those by which a CANCEL has come, and for the node itself once its own
rank is no live receiver. A CANCEL that lands in the reduce phase is applied when the node begins delivery (R386). -/
def PlaneOp.mask (o : PlaneOp) (n : Nat) : List Nat :=
  let holds := o.reduces && !o.begun.contains n
  let past := (o.rankAt n).any fun r => r.2.ending == some 0
  (o.branches n o.receivers).filter fun b => (holds || !o.cancels.contains (n, b)) && !(past && b == n)

/-- The status word of an operation (R292). -/
def thStatus (oid tile st : Nat) (aovf eovf : Bool) : Word :=
  BitVec.ofNat 64 (st + bit eovf * 2 ^ 8 + bit aovf * 2 ^ 9 + tile * 2 ^ 16 + oid * 2 ^ 32)

/-- Whether an `add.i64` combine of an operation overflowed (R292). -/
def State.aovf (s : State) (o : ThOp) : Bool :=
  match o.joined with
  | none => false
  | some j => match s.plane j.1 with | some p => p.aovf | none => false

/-- Frees an operation's place in the drain queue, if it holds one (R329). An `mma` that waits for it starts in this cycle if the place is freed
before the cycle's bank grants, otherwise in the next one (R73, R327). -/
def State.freeTile (s : State) (c oid : Nat) : State :=
  match (s.thOp c oid).bind fun o => o.drainTile with
  | none => s
  | some t =>
    ((s.modThOp c oid fun o => { o with drainTile := none }).modTh c fun h => { h with tiles := KMap.del h.tiles t }).kickTensor c
      (if (s.core c).lastGrant.any fun g => g.2 == s.cycle then s.cycle + 1 else s.cycle)

/-- An operation ends at its core with a status, of which the Thresher keeps the latest 16 (R292). -/
def State.endThOp (s : State) (c oid st : Nat) : State :=
  match s.thOp c oid with
  | none => s
  | some o =>
    let w := thStatus oid o.tile st (s.aovf o) o.eovf
    ((s.freeTile c oid).modTh c fun h =>
      let kept := (h.kept.filter fun k => k.1 != oid) ++ [(oid, w)]
      { h with
        ops := h.ops.filter fun x => x.oid != oid
        kept := kept.drop (kept.length - 16)
        lastBy := KMap.put h.lastBy o.slot w }).mayRetire c

/-- Makes the end of an operation at a rank due at a cycle, once. -/
def State.endRankAt (s : State) (p m st cycle : Nat) : State :=
  match s.rank p m with
  | none => s
  | some r =>
    if r.ending.isSome then s
    else (s.modRank p m fun r => { r with ending := some st }).at cycle (.thresherOperationEnd p m)

/-- Makes the end of an operation at a rank due now, once. -/
def State.endRank (s : State) (p m st : Nat) : State := s.endRankAt p m st s.cycle

/-- Whether every participant has joined (R369, R370): two of SEND and STREAM, PEER among them, and otherwise all members. -/
def PlaneOp.complete (o : PlaneOp) : Bool :=
  o.joined.length == o.members.length ||
    match o.ranks.head? with
    | some r => decide (r.2.desc.op ≤ 1) && decide (2 ≤ o.joined.length) && o.joined.contains r.2.desc.peer
    | none => false

/-- The plane operation a body belongs to. -/
def planeOf (b : Body) : Option Nat :=
  match b with
  | .eround op _ _ _ => some op
  | .up op _ _ => some op
  | .header op _ _ _ _ _ _ _ _ => some op
  | .plane op _ _ _ _ _ _ => some op
  | .cancel op _ => some op
  | _ => none

/-- Whether a message belongs to an operation. -/
def State.carries (s : State) (p id : Nat) : Bool := (s.msg id).any fun m => planeOf m.body == some p

/-- Whether a bank request of a core reads a source or writes a landing block of an operation. -/
def State.rowOfPlane (s : State) (p : Nat) (r : BankReq) : Bool :=
  match r.act with
  | .source q _ _ _ => q == p
  | .planeRow id _ => s.carries p id
  | _ => false

/-- Whether the Threshers of the halted cores of an operation have completed the blocks and messages in flight (R387). -/
def State.haltSettled (s : State) (p : Nat) (o : PlaneOp) : Bool :=
  let stops (c : Nat) : Bool := s.halted c && o.ranks.any fun r => r.2.core == c
  (o.ranks.all fun r => !s.halted r.2.core || (s.core r.2.core).bank.all fun q => !s.rowOfPlane p q)
    && s.net.all fun m => !(planeOf m.2.body == some p && (stops m.2.src || stops m.2.dst))

/-- Whether nothing of an operation is on its way any more: no message, no step of a source or of the root, no row in the banks. Of one that has
ended FAULT what its nodes still hold never moves on (R385 to R387). -/
def State.planeIdle (s : State) (p : Nat) (o : PlaneOp) : Bool :=
  (o.faulted || (o.waits.isEmpty && o.inputs.isEmpty))
    && (s.net.all fun m => planeOf m.2.body != some p)
    && (s.agenda.all fun d => match d.act with | .event (.sourceRead q _ _) => q != p | _ => true)
    && o.ranks.all fun r => (s.core r.2.core).bank.all fun q => !s.rowOfPlane p q

/-- A plane operation that has ended at every participant is forgotten once nothing of it is on its way; one in which a core has halted ends
FAULT once that core's Thresher has completed what is in flight (R387). -/
def State.sweepPlane (s : State) (p : Nat) : State :=
  match s.plane p with
  | none => s
  | some o =>
    if o.halting && !o.faulted then (if s.haltSettled p o then s.at s.cycle (.thresherFault p) else s)
    else if (o.ref.isSome ∨ o.faulted) ∧ o.complete ∧ (o.ranks.all fun r => r.2.ended && r.2.raises.isEmpty) ∧ s.planeIdle p o then
      { s with planes := KMap.del s.planes p }
    else s

/-- Something ends an operation FAULT at once (R387). -/
def State.faultPlane (s : State) (p : Nat) : State := (s.modPlane p fun o => { o with halting := false }).at s.cycle (.thresherFault p)

/-- Whether a core sends nothing more of an operation (R387): it has ended FAULT, or the core has halted. -/
def State.mute (s : State) (o : PlaneOp) (c : Nat) : Bool := o.faulted || (o.halting && s.halted c)

/-- Freezes a receiver's tile and sets CANCEL on its counter (R293, R370, R387). -/
def State.freezeRank (s : State) (p m : Nat) : State :=
  match s.rank p m with
  | none => s
  | some r =>
    if r.recv then (s.modRank p m fun r => { r with frozen := true }).modCounter r.core r.desc.cnt fun c => { c with cancel := true }
    else s

/-! ### Joining (R291, R369, R370) -/

/-- Whether a joining rank ends REJECTED (R290, R291, R369, R370): a reserved value, ranges outside the windows, a PEER that is no
member, a group or shape that the operation does not allow, `mdrain.q` at a rank that does not send, a counter not in planes mode. Only under
SEND and STREAM does the role of a rank free its SRC or DST from the check (R369). -/
def Core.rejects (k : Core) (o : ThOp) (g : Group) (m : Nat) (d : PlaneDesc) : Bool :=
  let (send, recv) := d.roles m
  d.bad || decide (g.members.length ≤ d.peer)
    || (d.reduces && !(g.op == .add || g.op == .max || g.op == .min))
    || ((d.op == 3 || d.op == 4) && d.elems != g.members.length * d.chunk)
    || (o.drain && (!send || d.op == 4))
    || ((send || decide (1 < d.op)) && !o.drain && (d.src % 64 != 0
        || (localFault o.slot o.mode o.wlocwin .read d.src (d.sourceElems * d.sourceWidth)).isSome))
    || ((recv || decide (1 < d.op)) && (localFault o.slot o.mode o.wlocwin .write d.dst (d.destElems * destWidth d.dfmt)).isSome)
    || (recv && (vecGet k.cnt d.cnt Counter.reset).mode != 2)

/-- The widest scope of the other members seen from a core (R59). -/
def groupScope (c : Nat) (members : List Nat) : Scope := members.foldl (fun sc m => sc.max (coreScope c m)) .core

/-- The codes of a drain-queue tile (R283). -/
def tileCodes (a : AccWord) : List Nat := (below 256).map fun n => accWord a n

/-- The rank an operation joins as. -/
def State.rankOf (s : State) (c m : Nat) (o : ThOp) (d : PlaneDesc) (rejected : Bool) : Rank :=
  let (send, recv) := d.roles m
  let (codes, scale) := match o.drainTile.bind fun t => KMap.get (s.core c).th.tiles t with
    | some (a, sd) => (tileCodes a, sd)
    | none => ([], 0)
  let exps := (below (codes.length / 32)).map fun b => ownExp (blockValues d.source scale ((codes.drop (32 * b)).take 32))
  { core := c, oid := o.oid, desc := d, rejected := rejected, ending := none, ended := false, send := send, recv := recv,
    scale := scale, codes := codes, raw := [], exps := exps, estars := 0, sent := 0, stopped := false, frozen := false, blocks := [], least := 0,
    raises := [] }

/-- Joins a rank to a plane operation; a REJECTED rank counts as joined, and the last participant starts the operation (R370). One
that joins an operation that has ended FAULT does so as well (R387). -/
def State.addRank (s : State) (c p m : Nat) (o : ThOp) (d : PlaneDesc) (rejected : Bool) : State :=
  let r := s.rankOf c m o d rejected
  let s := (s.modPlane p fun x => { x with
      joined := x.joined ++ [m]
      ranks := KMap.put x.ranks m r }).modThOp c o.oid fun x => { x with joined := some (p, m) }
  let s := if rejected then s.endRank p m 2 else s
  match s.plane p with
  | none => s
  | some x =>
    if x.faulted then (s.freezeRank p m).endRank p m 4
    else if x.complete then s.at s.cycle (.thresherOperationStart p) else s

/-- An operation of a group on a tile that has not started: the members that have joined, their ranks, and the CANCELs of those (R291). -/
def PlaneOp.joining (gid : Nat) (g : Group) (tile : Nat) (joined : List Nat) (ranks : KMap Rank) (cancels : List (Nat × Nat)) : PlaneOp :=
  { group := gid, generation := g.generation, tile := tile, members := g.members, combine := g.op, joined := joined, ranks := ranks,
    ref := none, faulted := false, aovf := false, tree := [], inputs := [], estar := [], out := [], sent := 0, cancels := cancels, begun := [],
    waits := [], places := [], tails := [], halting := false, drains := [] }

/-- The join of an operation with its descriptor (R291); a halted core joins none (R343). -/
def State.joinPlane (s : State) (c oid : Nat) (d : PlaneDesc) : State :=
  let s := s.modThOp c oid fun o => { o with tile := d.tile }
  let finish (s : State) (st : Nat) : State :=
    match s.thOp c oid with
    | some o => (s.endThOp c oid st).known c o.slot o.access
    | none => s
  match s.thOp c oid with
  | none => s
  | some o =>
    let k := s.core c
    if s.halted c then s else
    let h := vecGet k.grp d.gh 0
    match KMap.get s.sow.groups (field h 0 12) with
    | none => finish s 3
    | some g =>
      if bitAt h 63 = false ∨ g.used = false ∨ field h 16 4 ≠ g.generation then finish s 3
      else
        match g.members.findIdx? fun x => x == c with
        | none => finish s 2
        | some m =>
          let same := s.planes.filter fun p =>
            p.2.group == field h 0 12 && p.2.generation == g.generation && p.2.tile == d.tile
          if same.any fun p => (KMap.get p.2.ranks m).any fun r => !r.ended then finish s 2
          else
            let rejected := k.rejects o g m d
            match same.find? fun p => (KMap.get p.2.ranks m).isNone with
            | some (p, x) =>
              if x.ref.isSome ∨ (d.op ≤ 1 ∧ m ≠ d.peer ∧ x.joined.any fun y => y != d.peer) then finish s 2
              else s.addRank c p m o d rejected
            | none =>
              let (p, s) := s.fresh
              { s with planes := KMap.put s.planes p (PlaneOp.joining (field h 0 12) g d.tile [] [] []) }.addRank c p m o d rejected

/-- The grant of the read of a descriptor (R291): its access stands from here on for the widest scope of its group. -/
def State.readDescriptor (s : State) (c oid addr : Nat) : State :=
  match s.thOp c oid with
  | none => s
  | some o =>
    let k := s.core c
    if s.halted c then s
    else if k.poisoned addr 64 then (s.endThOp c oid 4).known c o.slot o.access
    else
      let d := planeDesc (BitVec.ofNat 512 (k.spad.load 64 addr))
      let members := match KMap.get s.sow.groups (field (vecGet k.grp d.gh 0) 0 12) with | some g => g.members | none => []
      let (a, s) := s.spawn c o.slot o.access (groupScope c members)
      ((s.modThOp c oid fun o => { o with access := a }).known c o.slot o.access).joinPlane c oid d

/-! ### Messages between the nodes of a tree (R222, R370, R371) -/

/-- The identifier and generation that every message of an operation carries (R222). -/
def PlaneOp.tag (o : PlaneOp) : Nat := 16 * o.group + o.generation

/-- The flits that a node reserves for each link of an operation in each direction, and a Thresher for landings (R370). -/
def placeFlits : Nat := 4

/-- The places that a message takes as it moves: one for each flit, of which an UP has up to five. Four of those move, and the last one stands
where it was until the node beyond has sent the first ones on, or has combined them at the root (R370; log 79). -/
def placesOf (b : Body) : Nat := min (flitsOf b) placeFlits

/-- Whether a message finds reserved places beyond its link for its flits (R370). -/
def PlaneOp.fits (o : PlaneOp) (h : Hop) : Bool :=
  decide (o.places.foldl (fun n x => if x.src = h.src ∧ x.dst = h.dst then n + x.flits else n) 0 + placesOf h.body ≤ placeFlits)

/-- The first waiting message that may move, and the rest; those of one link keep their order (R133). -/
def PlaneOp.ready (o : PlaneOp) : List Hop → List Hop → Option (Hop × List Hop)
  | _, [] => none
  | before, h :: t =>
    if o.fits h && before.all fun x => x.src != h.src || x.dst != h.dst then some (h, before ++ t) else o.ready (before ++ [h]) t

/-- An operation without the places of messages that have left their nodes; of one whose last flit still stands there a place is left. -/
def PlaneOp.tidy (net : KMap Msg) (o : PlaneOp) : PlaneOp :=
  let whole (x : Reserved) : Bool :=
    (KMap.get net x.msg).isSome || o.inputs.any (fun i => i.msg == some x.msg) || o.waits.any fun h => h.held.contains x.msg
  { o with places := o.places.filterMap fun x =>
      if whole x then some x else if o.tails.any fun t => t.held.contains x.msg then some { x with flits := 1 } else none }

/-- What a message that moves over a link leaves behind: the last flit of an UP of five, in one of the places that it held. The last flits of
the messages that it was made of have followed them (R370). -/
def PlaneOp.tailsAfter (o : PlaneOp) (msg : Nat) (h : Hop) : List Tail :=
  (o.tails.filter fun t => !h.held.contains t.msg)
    ++ (if flitsOf h.body ≤ placeFlits then [] else [{ msg := msg, node := h.src, held := h.held.take 1 }])

/-- Sends a message over a link of a tree, or from a router to its Thresher, which takes ejection and the write's grants (R148); one for a node of
another panel leaves by a port. -/
def State.sendHop (s : State) (tag : Nat) (h : Hop) : State :=
  let m : Msg := { net := .pln, src := h.src, dst := h.dst, body := h.body, generation := tag, crossed := 0, due := 0,
                   eject := if h.src = h.dst then 4 else 0, route := [] }
  if isForeign h.dst then s.sendOut m false h.leave
  else (s.draw).2.launch m (hopRoute h.src h.dst) h.leave (s.congestion m) (s.lastLanding .pln h.src h.dst)

/-- Moves the waiting messages of an operation that find places, at most `n`. -/
def State.move (p : Nat) : Nat → State → State
  | 0, s => s
  | n + 1, s =>
    let s := s.modPlane p (PlaneOp.tidy s.net)
    match s.plane p with
    | none => s
    | some o =>
      match o.ready [] o.waits with
      | none => s
      | some (h, rest) =>
        let s := s.modPlane p fun o => { o with
          waits := rest
          tails := o.tailsAfter s.nextId h
          places := o.places ++ [{ msg := s.nextId, src := h.src, dst := h.dst, flits := placesOf h.body }] }
        State.move p n (s.sendHop o.tag h)

/-- Moves every waiting message of an operation that finds places. -/
def State.flow (s : State) (p : Nat) : State :=
  match s.plane p with
  | none => s
  | some o => s.move p (o.waits.length + 1)

/-- The cycles a node adds to a message's hop of 2: 1 for what combines (3 a hop), and 40 at a relay (R148, R388). -/
def nodeCycles (n : Nat) (b : Body) : Nat :=
  (if n < relayBase then 0 else 40) + match b with
    | .eround _ _ _ _ => 1
    | .up _ _ _ => 1
    | _ => 0

/-- A message is to go from a node to one beside it, or to the node's own Thresher. -/
def State.hop (s : State) (p n dest : Nat) (held : List Nat) (b : Body) (extra : Nat) : State :=
  s.modPlane p fun o => { o with
    waits := o.waits ++ [{ src := n, dst := dest, body := b, leave := nodeCycles n b + extra, held := held }] }

/-- A HEADER or PLANE for one rank. -/
def Body.forRank (b : Body) (rank : Nat) : Body :=
  match b with
  | .header p stream _ block e f sg w cs => .header p stream rank block e f sg w cs
  | .plane p stream _ block j n bits => .plane p stream rank block j n bits
  | b => b

/-- The branches of a node by which a HEADER or PLANE for a rank goes on, or for every receiver (R369, R385). -/
def PlaneOp.onward (o : PlaneOp) (n rank : Nat) : List Nat :=
  if atRoot ≤ rank then o.mask n
  else match KMap.get o.ranks rank with
    | none => []
    | some r => (o.mask n).filter fun b => if r.core = n then b == n else o.tree.toward n r.core == some b

/-- A HEADER or PLANE goes on from a node by its branches. -/
def State.spread (s : State) (p n rank : Nat) (held : List Nat) (b : Body) : State :=
  match s.plane p with
  | none => s
  | some o =>
    (o.onward n rank).foldl (fun s dest =>
      let own := match o.rankAt n with | some r => r.1 | none => rank
      s.hop p n dest held (if dest = n then b.forRank own else b) 0) s

/-- A rank that holds E* of some blocks more, from one on (R376). -/
def Rank.withExps (r : Rank) (first : Nat) (exps : List Nat) : Rank :=
  { r with
    exps := r.exps.take first ++ exps ++ r.exps.drop (first + exps.length)
    estars := first + exps.length }

/-- E* of some blocks goes on from a node to the ranks that send, and sets the exponents under which the node's own rank aligns them (R376). -/
def State.spreadExps (s : State) (p n : Nat) (held : List Nat) (first : Nat) (exps : List Nat) (extra : Nat) : State :=
  match s.plane p with
  | none => s
  | some o =>
    (o.branches n o.senders).foldl (fun s dest =>
      if dest ≠ n then s.hop p n dest held (.eround p true first exps) extra
      else match o.rankAt n with
        | none => s
        | some (m, r) =>
          let s := s.modRank p m fun r => r.withExps first exps
          if first = 0 then s.at (s.cycle + 1 + extra) (.sourceRead p m r.desc.sourceBlocks) else s) s

/-- CANCEL goes from a node toward the member that is a source, whose rank stops (R385). -/
def State.cancelSource (s : State) (p n m : Nat) (held : List Nat) : State :=
  match s.plane p, s.rank p m with
  | some o, some r =>
    if r.core = n then s.modRank p m fun r => { r with stopped := true }
    else match o.tree.toward n r.core with
      | some dest => s.hop p n dest held (.cancel p (some m)) 0
      | none => s
  | _, _ => s

/-- A node whose forward mask is empty sends CANCEL on to its parent; the root of SEND, STREAM, BCAST and AGATH to every source (R385). -/
def State.cancelUp (s : State) (p n : Nat) : State :=
  match s.plane p with
  | none => s
  | some o =>
    if o.mask n ≠ [] then s
    else match o.tree.parent n with
      | some q => s.hop p n q [] (.cancel p none) 0
      | none => if o.reduces then s else o.senders.foldl (fun s r => s.cancelSource p n r.1 []) s

/-- CANCEL lands at a node by a branch (R385, R386). -/
def State.cancelAt (s : State) (p n branch : Nat) : State :=
  match s.plane p with
  | none => s
  | some o =>
    if o.cancels.contains (n, branch) then s
    else (s.modPlane p fun o => { o with cancels := (n, branch) :: o.cancels }).cancelUp p n

/-- A node begins to deliver a reduction: the CANCELs held there are applied (R386). -/
def State.beginAt (s : State) (p n : Nat) : State :=
  match s.plane p with
  | none => s
  | some o =>
    if o.begun.contains n then s
    else
      let s := s.modPlane p fun o => { o with begun := n :: o.begun }
      if o.reduces then s.cancelUp p n else s

/-- What a message to a combine is about: the first block of an EROUND, or the block of an UP. -/
def inputKey (b : Body) : Bool × Nat :=
  match b with
  | .eround _ _ first _ => (false, first)
  | .up _ block _ => (true, block)
  | _ => (false, 0)

/-- What a combine unit makes of two EROUNDs of the same blocks or two UPs of a block (R388). -/
def combineBodies (op : AtomicOp) (a b : Body) : Body :=
  match a, b with
  | .eround p d k x, .eround _ _ _ y => .eround p d k (combineExps x y)
  | .up p k x, .up _ _ y => .up p k (x.combine op y)
  | a, _ => a

/-- The root has combined the exponents of all ranks for some blocks, or a block of their UP messages, which it renormalises; delivery begins after the last
block (R376, R378). -/
def State.rootHas (s : State) (p n : Nat) (b : Body) (wait : Nat) : State :=
  match s.plane p, b with
  | some _, .eround _ _ first exps => (s.modPlane p fun o => { o with estar := o.estar.take first ++ exps }).spreadExps p n [] first exps wait
  | some o, .up _ block u =>
    match o.ref with
    | none => s
    | some d =>
      let e := if d.emode = 2 then d.exp else (o.estar[block]?).getD 0
      let x := renormalise o.combine e d.planes u
      let s := s.modPlane p fun o => { o with
        out := o.out ++ [x]
        aovf := o.aovf || x.aovf }
      let nb := d.elems / 32
      if block + 1 = nb then s.at (s.cycle + 1 + wait) (.sourceRead p atRoot (2 * nb)) else s
  | _, _ => s

/-- An EROUND or UP comes to a node by a branch: once those of all its branches are there they combine, in 2 cycles if there are several, and
go on up (R376, R377, R388). -/
def State.contribute (s : State) (p n branch : Nat) (msg : Option Nat) (b : Body) : State :=
  let s := s.modPlane p fun o => { o with inputs := o.inputs ++ [{ node := n, branch := branch, msg := msg, body := b }] }
  match s.plane p with
  | none => s
  | some o =>
    let mine (i : Input) : Bool := i.node == n && inputKey i.body == inputKey b
    let l := o.inputs.filter mine
    if ((o.branches n o.senders).all fun x => l.any fun i => i.branch == x) = false then s
    else
      match l with
      | [] => s
      | i :: rest =>
        let sum := rest.foldl (fun a j => combineBodies o.combine a j.body) i.body
        let wait := if rest.isEmpty then 0 else 2
        let s := s.modPlane p fun o => { o with inputs := o.inputs.filter fun i => !mine i }
        match o.tree.parent n with
        | some q => s.hop p n q (l.filterMap fun i => i.msg) sum wait
        | none => (s.modPlane p fun o => { o with tails := o.tails.filter fun t => l.all fun i => i.msg != some t.msg }).rootHas p n sum wait

/-- A message of an operation is at a node, from a node beside it or from the node's own Thresher. -/
def State.nodeMsg (s : State) (p n src : Nat) (held : List Nat) (b : Body) : State :=
  match s.plane p with
  | none => s
  | some o =>
    let block (rank : Nat) : State :=
      match o.tree.parent n with
      | some q => if src = n ∨ o.tree.parent src = some n then s.hop p n q held b 0 else (s.beginAt p n).spread p n rank held b
      | none => (s.beginAt p n).spread p n rank held b
    match b with
    | .eround _ true first exps => s.spreadExps p n held first exps 0
    | .eround _ false _ _ => s.contribute p n src held.head? b
    | .up _ _ _ => s.contribute p n src held.head? b
    | .header _ _ rank _ _ _ _ _ _ => block rank
    | .plane _ _ rank _ _ _ _ => block rank
    | .cancel _ none => s.cancelAt p n src
    | .cancel _ (some m) => s.cancelSource p n m held
    | _ => s

/-- Whether what a node's own Thresher sent last still stands there. -/
def PlaneOp.busyAt (o : PlaneOp) (n : Nat) : Bool :=
  (o.waits.any fun h => h.src == n && h.held.isEmpty) || (o.inputs.any fun i => i.node == n && i.branch == n)
    || o.tails.any fun t => t.node == n && t.held.isEmpty

/-- What a Thresher sends, a message at a time, enters its router. -/
def State.inject (s : State) (p n : Nat) (b : Body) : State := (s.nodeMsg p n n [] b).flow p

/-! ### Sources (R429) -/

/-- Requests the rows of the next block of a rank's source (R83, R429). -/
def State.requestBlock (s : State) (p m : Nat) : State :=
  match s.rank p m with
  | none => s
  | some r =>
    let n := 32 * r.desc.sourceWidth
    (s.modRank p m fun r => { r with raw := [] }).present r.core
      ((cutRows 3 (r.desc.src + r.codes.length / 32 * n) n).map fun q =>
        { cls := .thresher, bank := bankOf q.1, first := s.cycle + 1, act := .source p m q.1 q.2 })

/-- The grant of a row of a source block; an uncorrectable error ends the operation FAULT (R387). -/
def State.grantSource (s : State) (c p m addr size : Nat) : State :=
  match s.rank p m with
  | none => s
  | some r =>
    let k := s.core c
    if k.poisoned addr size then s.faultPlane p
    else
      let raw := KMap.put r.raw addr (k.spad.bytes size addr)
      let s := s.modRank p m fun r => { r with raw := raw }
      if (raw.flatMap fun x => x.2).length = 32 * r.desc.sourceWidth then s.now (.sourceRead p m (r.codes.length / 32)) else s

/-- The elements of some bytes. -/
def elements (w : Nat) (bs : List Byte) : List Nat := (below 32).map fun i => leNat ((bs.drop (w * i)).take w)

/-- The blocks whose exponents an EROUND of one flit carries (R371). -/
def exponentBlocks : Nat := 64

/-- A rank sends its own exponents, 64 blocks a flit, at most a flit a cycle and once the one before it has left (R371, R376, R429). -/
def State.sendExps (s : State) (p m k : Nat) : State :=
  match s.plane p, s.rank p m with
  | some o, some r =>
    let nb := r.desc.sourceBlocks
    let first := exponentBlocks * k
    if s.mute o r.core ∨ nb ≤ first then s
    else if o.busyAt r.core then s.at (s.cycle + 1) (.sourceRead p m (3 * nb + k))
    else
      let s := s.inject p r.core (.eround p false first ((r.exps.drop first).take exponentBlocks))
      if nb ≤ first + exponentBlocks then s else s.at (s.cycle + 1) (.sourceRead p m (3 * nb + k + 1))
  | _, _ => s

/-- What a rank does once it has read its source: the exponent round or the UP messages of a reduction, or delivery. -/
def State.afterRead (s : State) (p m : Nat) : State :=
  match s.rank p m with
  | some r =>
    let nb := r.desc.sourceBlocks
    if r.desc.reduces then
      if r.desc.emode = 1 then s.sendExps p m 0
      else (s.modRank p m fun r => r.withExps 0 (List.replicate nb r.desc.exp)).at (s.cycle + 1) (.sourceRead p m nb)
    else s.at (s.cycle + 1) (.sourceRead p m (2 * nb))
  | none => s

/-- Marks that an element of a rank saturated (R374). -/
def State.saturated (s : State) (r : Rank) (b : Bool) : State :=
  if b then s.modThOp r.core r.oid fun o => { o with eovf := true } else s

/-- The values of block `b` of a rank's source. -/
def Rank.values (r : Rank) (b : Nat) : List Num := blockValues r.desc.source r.scale ((r.codes.drop (32 * b)).take 32)

/-- The tile of a rank of a reduction is free in the cycle in which its last integer has gone up (R329). -/
def State.finishUp (s : State) (p m : Nat) : State :=
  match s.plane p, s.rank p m with
  | some o, some r =>
    if o.busyAt r.core then s.at (s.cycle + 1) (.sourceRead p m (2 * r.desc.sourceBlocks)) else s.freeTile r.core r.oid
  | _, _ => s

/-- A rank sends the UP message of a block, once it holds the block's E* (R376, R377), at most a flit a cycle and once the one before it has left
(R370, R429). -/
def State.sendUp (s : State) (p m b : Nat) : State :=
  match s.plane p, s.rank p m with
  | some o, some r =>
    let nb := r.desc.sourceBlocks
    if s.mute o r.core then s
    else if o.busyAt r.core ∨ r.estars ≤ b then s.at (s.cycle + 1) (.sourceRead p m (nb + b))
    else
      let (u, sat) := upOf o.combine ((r.exps[b]?).getD 0) r.desc.planes (r.values b)
      let s := (s.saturated r sat).inject p r.core (.up p b u)
      if b + 1 < nb then s.at (s.cycle + flitsOf (.up p b u)) (.sourceRead p m (nb + b + 1)) else s.finishUp p m
  | _, _ => s

/-! ### Delivery (R369, R372, R378, R380) -/

/-- A delivered block on the wire: exponent, flags, signs, verbatim codes, magnitudes. -/
structure WireBlock where
  exp : Nat
  flags : BitVec 8
  signs : BitVec 32
  codes : List Nat
  mags : List Nat
  deriving DecidableEq, Repr

/-- Whether a block's flags say VERB (R371). -/
def verbatim (flags : BitVec 8) : Bool := bitAt flags 0

/-- Block `b` of a rank as it sends it itself, and whether an element saturated (R373, R374, R380): every finite element is aligned, also that of a
verbatim block, whose codes go unaligned. -/
def Rank.wire (r : Rank) (b : Nat) : WireBlock × Bool :=
  let xs := r.values b
  let own := (r.exps[b]?).getD 0
  let e := if r.desc.emode = 0 then own else if r.desc.emode = 1 then r.exps.foldl max 0 else r.desc.exp
  let ms := xs.map fun x => alignMag x e r.desc.planes
  let sat := (ms.zip xs).any fun m => m.2.finite && m.1.2
  if xs.all Num.finite then
    ({ exp := e, flags := if sat then 2 else 0, signs := signPlane (xs.map Num.negative), codes := [],
       mags := ms.map fun x => x.1 }, sat)
  else
    ({ exp := e, flags := if sat then 3 else 1, signs := 0, codes := xs.map fun x => (r.desc.source.round .rtz x).1, mags := [] }, sat)

/-- Block `b` as the root of a reduction delivers it (R378), a special one with FP32 codes. An UP does not tell the root that an element
saturated, so that SAT is never set in the HEADER of a reduction's block: the model's choice (log 101). -/
def PlaneOp.wire (o : PlaneOp) (planes b : Nat) : Option WireBlock :=
  (o.out[b]?).map fun x =>
    if x.special then
      { exp := min x.exp 255, flags := if x.aovf then 5 else 1, signs := 0, codes := (below 32).map fun e => x.code o.combine planes e,
        mags := [] }
    else { exp := x.exp, flags := 0, signs := x.signs, codes := [], mags := x.mags }

/-- HEADER or PLANE `j` of a block for a rank; a verbatim block has no planes (R378, R380). -/
def WireBlock.message (w : WireBlock) (p stream rank block j planes flits : Nat) : Option Body :=
  if j = 0 then some (.header p stream rank block w.exp w.flags w.signs flits w.codes)
  else if verbatim w.flags then none
  else some (.plane p stream rank block j flits (planeBits w.mags planes j))

/-- The bytes of a block in a HEADER, with a verbatim one's elements of some bytes (R371), or in a PLANE. -/
def WireBlock.bytes (w : WireBlock) (j width : Nat) : Nat := if j = 0 then 6 + width * w.codes.length else 4

/-- The bytes that a HEADER or PLANE holds before one of its blocks, those of the `n` earlier ones; of these `planes` have planes: a verbatim block
has none (R371, R380). -/
def bytesBefore (sent n planes j : Nat) : Nat := if n = 0 then 0 else if j = 0 then sent else 4 * planes

/-- The blocks of a source before one that have planes. -/
def Rank.planesBefore (r : Rank) (b : Nat) : Nat := (below b).foldl (fun n i => n + bit ((r.values i).all Num.finite)) 0

/-- The blocks before one of a reduction's, among the `n` before it of its destination, that have planes. -/
def PlaneOp.planesBefore (o : PlaneOp) (b n : Nat) : Nat :=
  (rangeFrom n (b - n)).foldl (fun k i => k + bit ((o.out[i]?).any fun x => !x.special)) 0

/-- The flits that a block begins in a HEADER or PLANE: under SEND, which delivers block by block, each block is a message of its own
(R371, R372). -/
def PlaneDesc.flits (d : PlaneDesc) (before bytes : Nat) : Nat := if d.op = 0 then flitsFor bytes else flitsAfter before bytes

/-- The block of a destination that block `b` of a stream is (R369). -/
def PlaneDesc.destBlock (d : PlaneDesc) (stream b : Nat) : Nat :=
  match d.op with
  | 3 => b % (d.chunk / 32)
  | 4 => stream * (d.chunk / 32) + b
  | _ => b

/-- A source has sent its last PLANE, or stops (R384, R385): its tile is free, and if it only sends, its operation ends there. -/
def State.endSource (s : State) (p m : Nat) (r : Rank) : State :=
  let s := s.freeTile r.core r.oid
  if r.recv then s else s.endRank p m 0

/-- The block and the plane, 0 for the HEADER, of a step of a source's own delivery (R372). -/
def PlaneDesc.step (d : PlaneDesc) (k : Nat) : Nat × Nat :=
  if d.op = 0 then (k / (d.planes + 1), k % (d.planes + 1)) else (k % d.sourceBlocks, k / d.sourceBlocks)

/-- The steps of a source's own delivery. -/
def PlaneDesc.steps (d : PlaneDesc) : Nat := d.sourceBlocks * (d.planes + 1)

/-- The first step from one on that is a message: a verbatim block has no planes (R380). -/
def Rank.stepFrom (r : Rank) (k : Nat) : Nat :=
  ((rangeFrom (r.desc.steps - k) k).find? fun k =>
    let (b, j) := r.desc.step k
    j == 0 || (r.values b).all Num.finite).getD r.desc.steps

/-- Step `k` of a source's own delivery (R369, R372): a HEADER or PLANE enters its router once the one before it has left, at most a flit a
cycle (R429). -/
def State.deliverOwn (s : State) (p m k : Nat) : State :=
  match s.plane p, s.rank p m with
  | some o, some r =>
    let d := r.desc
    let nb := d.sourceBlocks
    if s.mute o r.core then s
    else if o.busyAt r.core then s.at (s.cycle + 1) (.sourceRead p m (2 * nb + k))
    else if d.steps ≤ k ∨ r.stopped ∨ o.receivers.isEmpty then s.endSource p m r
    else
      let (b, j) := d.step k
      let (w, sat) := r.wire b
      let n := w.bytes j d.sourceWidth
      let before := bytesBefore r.sent b (r.planesBefore b) j
      let s := (s.saturated r sat).modRank p m fun r => { r with sent := if j = 0 then before + n else r.sent }
      let (s, gap) := match w.message p m atRoot (d.destBlock m b) j d.planes (d.flits before n) with
        | some x => (s.inject p r.core x, flitsOf x)
        | none => (s, 0)
      let next := r.stepFrom (k + 1)
      if next = d.steps ∧ ((s.plane p).any fun o => !o.busyAt r.core) then s.endSource p m r
      else s.at (s.cycle + max 1 gap) (.sourceRead p m (2 * nb + next))
  | _, _ => s

/-- Step `k` of a reduction's delivery from the root (R378): to every receiver, or to the member whose chunk the block is. -/
def State.deliverRoot (s : State) (p k : Nat) : State :=
  match s.plane p with
  | none => s
  | some o =>
    match o.ref with
    | none => s
    | some d =>
      let nb := d.elems / 32
      let again := 2 * nb + k
      if s.mute o o.root ∨ nb * (d.planes + 1) ≤ k ∨ (o.begun.contains o.root ∧ (o.mask o.root).isEmpty) then s
      else if o.busyAt o.root then s.at (s.cycle + 1) (.sourceRead p atRoot again)
      else
        let b := k % nb
        let j := k / nb
        let rank := if d.op = 5 then atRoot else b / (d.chunk / 32)
        let dfmt := match KMap.get o.ranks rank with | some r => r.desc.dfmt | none => d.dfmt
        let n := match o.wire d.planes b with | some w => w.bytes j (destWidth dfmt) | none => 0
        let before := bytesBefore o.sent (d.destBlock 0 b) (o.planesBefore b (d.destBlock 0 b)) j
        let x := (o.wire d.planes b).bind fun w => w.message p 0 rank (d.destBlock 0 b) j d.planes (flitsAfter before n)
        let s := s.modPlane p fun o => { o with sent := if j = 0 then before + n else o.sent }
        let s := match x with
          | some x => s.inject p o.root x
          | none => s
        s.at (s.cycle + max 1 (match x with | some x => flitsOf x | none => 0)) (.sourceRead p atRoot (again + 1))

/-! ### Landing (R382, R383) -/

/-- The codes of a destination for some values, rounded toward zero (R382). -/
def destCodes (dfmt : Nat) (xs : List Num) : List Nat := xs.map fun x => ((destFmt dfmt).round .rtz x).1

/-- A block as it stands once a HEADER or PLANE has landed, with the codes of its elements (R375, R382). -/
def Rank.landing (r : Rank) (b : Body) : Option (Landed × List Nat) :=
  let d := r.desc
  let planes := d.planes
  let prefixes (l : Landed) : List Nat :=
    destCodes d.dfmt ((l.mags.zip (below 32)).map fun x => prefixValue l.exp planes (bitAt l.signs x.2) x.1)
  match b with
  | .header _ _ _ _ e flags signs _ codes =>
    if verbatim flags then
      let cs := destCodes d.dfmt (blockValues (if d.reduces then .fp32 else d.source) 0 codes)
      some ({ exp := e, signs := signs, codes := cs, verb := true, mags := [], planes := planes }, cs)
    else
      let l : Landed := { exp := e, signs := signs, codes := [], verb := false, mags := List.replicate 32 0, planes := 0 }
      some (l, prefixes l)
  | .plane _ _ _ block j _ bits =>
    match KMap.get r.blocks block with
    | none => none
    | some l =>
      let mags := (l.mags.zip (below 32)).map fun x => x.1 + if bitAt bits x.2 then 2 ^ (planes - j) else 0
      let l := { l with mags := mags, planes := j }
      some (l, prefixes l)
  | _ => none

/-- The destination block of a HEADER or PLANE, with its operation and receiver. -/
def blockOf (b : Body) : Option (Nat × Nat × Nat) :=
  match b with
  | .header p _ rank block _ _ _ _ _ => some (p, rank, block)
  | .plane p _ rank block _ _ _ => some (p, rank, block)
  | _ => none

/-- The grant of a row of a landing HEADER or PLANE: the elements that begin in the row are written whole; a frozen tile keeps what it
holds. The last row completes the landing (R382, R385). -/
def State.planeRow (s : State) (c id row : Nat) : State :=
  match s.msg id with
  | none => s
  | some m =>
    let s := match blockOf m.body with
      | none => s
      | some (p, rank, block) =>
        match s.rank p rank with
        | none => s
        | some r =>
          if r.frozen then s
          else
            match r.landing m.body with
            | none => s
            | some (_, codes) =>
              let w := destWidth r.desc.dfmt
              (codes.zip (below 32)).foldl (fun s e =>
                let a := r.desc.dst + (32 * block + e.2) * w
                if a / 64 = row ∨ (row = (r.desc.dst + 32 * block * w) / 64 ∧ a / 64 < row) then
                  s.writeSpad c a (leBytes w e.1) else s) s
    if (s.core c).bank.any fun q => match q.act with | .planeRow i _ => i == id | _ => false then s
    else s.now (landing id m)

/-- The least number of planes landed over the blocks of a destination (R383). -/
def Rank.leastPlanes (r : Rank) : Nat :=
  (below (r.desc.destElems / 32)).foldl (fun k b =>
    min k (match KMap.get r.blocks b with | some l => l.planes | none => 0)) r.desc.planes

/-- A HEADER or PLANE has landed at a receiver (R382, R383, R384): its counter rises 2 cycles later, and the last plane ends the
operation there. -/
def State.blockLanded (s : State) (m : Msg) : State :=
  match blockOf m.body with
  | none => s
  | some (p, rank, block) =>
    match s.rank p rank with
    | none => s
    | some r =>
      if r.frozen then s
      else
        match r.landing m.body with
        | none => s
        | some (l, _) =>
          let r := { r with blocks := KMap.put r.blocks block l }
          let n := r.leastPlanes
          let up := n - r.least
          let s := s.modRank p rank fun _ => { r with
            least := n
            raises := if up = 0 then r.raises else r.raises ++ [(s.cycle + 2, up)] }
          let s := if up = 0 then s else s.at (s.cycle + 2) (.planeCounterRaise p rank)
          if n = r.desc.planes then s.endRank p rank 0 else s

/-- What the landing of a PLN message does (R222): one whose generation is not its group's current one is dropped and counted at the die of
the router it came to; a HEADER or PLANE handed to a Thresher has landed in its destination; any other message is at the next node. -/
def State.planeMsg (s : State) (id : Nat) : State :=
  match s.msg id with
  | none => s
  | some m =>
    let s := s.drop id
    if (s.group (m.generation / 16)).generation ≠ m.generation % 16 then
      if m.dst < relayBase then
        s.modDie (dieOf m.dst) fun d => { d with stale := if d.stale = BitVec.allOnes 32 then d.stale else d.stale + 1 }
      else s
    else
      match planeOf m.body with
      | none => s
      | some p => ((if m.src = m.dst then s.blockLanded m else s.nodeMsg p m.dst m.src [id] m.body).flow p).sweepPlane p

/-! ### Events -/

/-- THRESHER_OPERATION_START: SEND and STREAM run on the path from the sender to the receiver, others on the group's tree (R369); the ranks' fields are compared with the reference's, and the senders begin to read; a receiver some block
of which no rank sends ends FAULT (R291, R370). -/
def execThresherOperationStart (op : Nat) (s : State) : Out :=
  ok (match s.plane op with
    | none => s
    | some o =>
      match o.ref, o.ranks.head? with
      | none, some (_, first) =>
        if o.complete = false ∨ o.faulted then s
        else
          let d := first.desc
          let peer := (o.members[d.peer]?).getD 0
          let s := s.modPlane op fun o => { o with
            ref := some d
            tree := if d.op ≤ 1 then treeOf (peer :: (o.ranks.map fun r => r.2.core).filter (· != peer)) else (s.group o.group).tree }
          let s := o.ranks.foldl (fun (s : State) r =>
            if !r.2.rejected && (d.badShared || r.2.desc.shared != d.shared) then
              (s.modRank op r.1 fun r => { r with rejected := true }).endRank op r.1 2
            else s) s
          match s.plane op with
          | none => s
          | some o =>
            let n := o.senders.length
            let s := if n = 0 ∨ (d.op = 4 ∧ n < o.members.length) then
                o.receivers.foldl (fun s r => if r.2.ending.isSome then s else (s.freezeRank op r.1).endRank op r.1 4) s
              else s
            let s := (o.cancels.foldl (fun s c => s.cancelUp op c.1) s).flow op
            o.senders.foldl (fun s r =>
              if r.2.codes = [] then s.requestBlock op r.1 else s.at (s.cycle + 1) (.sourceRead op r.1 (r.2.desc.sourceBlocks - 1))) s
      | _, _ => s)

/-- A step of an operation: a rank has read a block of its source, or aligns and sends one (R429): the numbers from the count of blocks on stand
for UP messages, those from twice the count on for the steps of delivery, and in a reduction those from three times it on for EROUNDs. -/
def State.sourceStep (s : State) (op rank tile : Nat) : State :=
  if atRoot ≤ rank then
    match (s.plane op).bind fun o => o.ref with
    | some d => s.deliverRoot op (tile - 2 * (d.elems / 32))
    | none => s
  else
    match s.rank op rank with
    | none => s
    | some r =>
      let nb := r.desc.sourceBlocks
      if tile < nb then
        let full := decide (r.codes.length = 32 * nb)
        let cs := elements r.desc.sourceWidth (r.raw.flatMap fun x => x.2)
        let s := if full then s else s.modRank op rank fun r => { r with
            codes := r.codes ++ cs
            raw := []
            exps := r.exps ++ [ownExp (blockValues r.desc.source 0 cs)] }
        if (s.plane op).any fun o => s.mute o r.core then s
        else if full ∨ tile + 1 = nb then s.afterRead op rank else s.requestBlock op rank
      else if tile < 2 * nb then s.sendUp op rank (tile - nb)
      else if r.desc.reduces then (if tile < 3 * nb then s.finishUp op rank else s.sendExps op rank (tile - 3 * nb))
      else s.deliverOwn op rank (tile - 2 * nb)

/-- SOURCE_READ (R429). -/
def execSourceRead (op rank tile : Nat) (s : State) : Out := ok ((s.sourceStep op rank tile).sweepPlane op)

/-- EROUND (R376). -/
def execEround (msg : Nat) (s : State) : Out := ok (s.planeMsg msg)

/-- UP (R377). -/
def execUp (msg : Nat) (s : State) : Out := ok (s.planeMsg msg)

/-- HEADER (R382). -/
def execHeader (msg : Nat) (s : State) : Out := ok (s.planeMsg msg)

/-- PLANE (R382). -/
def execPlane (msg : Nat) (s : State) : Out := ok (s.planeMsg msg)

/-- PLANE_COUNTER_RAISE: a receiver's counter rises by the rise of the least number of planes landed (R383). -/
def execPlaneCounterRaise (op rank : Nat) (s : State) : Out :=
  ok (match s.rank op rank with
    | none => s
    | some r =>
      let n := r.raises.foldl (fun k x => if x.1 ≤ s.cycle then k + x.2 else k) 0
      let s := s.modRank op rank fun r => { r with raises := r.raises.filter fun x => !decide (x.1 ≤ s.cycle) }
      (if n = 0 then s else s.raiseBy r.core r.desc.cnt n false).sweepPlane op)

/-- CANCEL (R385). -/
def execCancel (msg : Nat) (s : State) : Out := ok (s.planeMsg msg)

/-- THRESHER_OPERATION_END: an operation ends at a rank with its status (R384). A drain's access is performed once the tile has no
consumer left (R153). -/
def execThresherOperationEnd (op rank : Nat) (s : State) : Out :=
  ok (match s.plane op, s.rank op rank with
    | some o, some r =>
      match r.ending with
      | none => s
      | some st =>
        if r.ended then s
        else
          let th := s.thOp r.core r.oid
          let s := (s.endThOp r.core r.oid st).modRank op rank fun r => { r with ended := true }
          let others := o.ranks.any fun x => x.1 != rank && x.2.recv && !x.2.ended
          let s := match th with
            | none => s
            | some t =>
              if t.drain ∧ st ≠ 2 ∧ st ≠ 3 ∧ others then
                s.modPlane op fun o => { o with drains := (r.core, t.slot, t.access) :: o.drains }
              else s.known r.core t.slot t.access
          let s := if others then s
            else
              let ds := match s.plane op with | some o => o.drains | none => []
              (ds.foldl (fun s d => s.known d.1 d.2.1 d.2.2) s).modPlane op fun o => { o with drains := [] }
          s.sweepPlane op
    | _, _ => s)

/-- THRESHER_FAULT: the operation ends FAULT at every participant; live tiles are frozen and keep the planes that have landed. After the halt of a
core it waits until that core's Thresher has completed what is in flight (R387). -/
def execThresherFault (op : Nat) (s : State) : Out :=
  ok (match s.plane op with
    | none => s
    | some o =>
      if o.halting && !s.haltSettled op o then s
      else
        (o.ranks.foldl (fun (s : State) r =>
          if r.2.ending.isSome then s else (s.freezeRank op r.1).endRank op r.1 4) s).modPlane op fun o => { o with faulted := true })

/-! ### Instructions -/

/-- The address of a descriptor (R287, R291): aligned to 64, and 64 bytes within the local alias and the slot's windows. -/
def withDescriptor (a : Word) (s : State) (k : State → State) : State :=
  if a.toNat % 64 ≠ 0 then s.trap 4 a
  else if localSize ≤ a.toNat then s.trap 5 a
  else match s.ownFault .read a.toNat 64 with
    | some f => s.trap 5 (BitVec.ofNat 64 f)
    | none => k s

/-- The OID of the next operation (R291); one of an active operation is passed over (log 71). -/
def Thresher.freeOid (h : Thresher) : Nat :=
  let used (n : Nat) : Bool := h.ops.any fun o => o.oid == n
  (((below 9).map fun i => (h.nextOid + i - 1) % 0xFFFF + 1).find? fun n => !used n).getD h.nextOid

/-- Adds an operation of the issuing slot to the Thresher, and answers its id (R291). -/
def State.newThOp (s : State) (access : Nat) (tile : Option Nat) (drain : Bool) : Nat × State :=
  let oid := s.here.th.freeOid
  let t := s.me
  let o : ThOp := { oid := oid, tile := 0, slot := s.curSlot, mode := t.mode, wlocwin := t.u.wlocwin, access := access,
                    joined := none, drain := drain, drainTile := tile, eovf := false }
  (oid, s.modTh s.curCore fun h => { h with
    ops := h.ops ++ [o]
    nextOid := oid % 0xFFFF + 1 })

/-- PL_GO (R291). -/
def execPlGo (rd rs1 : BitVec 5) (s : State) : Out :=
  ok (readWrite [.x rs1] (.x rd) s fun s =>
    let a := s.x rs1
    withDescriptor a s fun s => gated .eng .core s fun s =>
      if 8 ≤ s.here.th.ops.length then s.block (.plGo rd)
      else
        let (acc, s) := s.addAccess s.curCore s.curSlot .eng .core false
        let (oid, s) := s.newThOp acc none false
        (s.finishX rd (BitVec.ofNat 64 oid)).present s.curCore
          [{ cls := .thresher, bank := bankOf a.toNat, first := s.cycle + 1, act := .descriptor oid a.toNat }])

/-- The status of an operation now (R292). -/
def State.opStatus (s : State) (oid : Nat) : Word :=
  match s.thOp s.curCore oid with
  | some o => thStatus oid o.tile 14 (s.aovf o) o.eovf
  | none =>
    match s.here.th.kept.find? fun e => e.1 == oid with
    | some (_, w) => w
    | none => thStatus oid 0 15 false false

/-- PL_WAIT (R292): on an OID, or with bit 63 set on every operation of the slot, reporting the last to end. -/
def execPlWait (rd rs1 : BitVec 5) (s : State) : Out :=
  ok (readWrite [.x rs1] (.x rd) s fun s =>
    let w := s.x rs1
    let h := s.here.th
    if bitAt w 63 then
      if h.ops.any fun o => o.slot == s.curSlot then s.block (.plWait rd none)
      else if s.me.waitKind = some (.plWait rd none) ∨ s.me.waitKind = some .resumed then s.finishX rd ((KMap.get h.lastBy s.curSlot).getD 0)
      else s.finishX rd 0
    else
      let oid := field w 0 16
      if h.ops.any fun o => o.oid == oid then s.block (.plWait rd (some oid)) else s.finishX rd (s.opStatus oid))

/-- PL_STAT (R292). -/
def execPlStat (rd rs1 : BitVec 5) (s : State) : Out :=
  ok (readWrite [.x rs1] (.x rd) s fun s => s.finishX rd (s.opStatus (field (s.x rs1) 0 16)))

/-- The live destination tile of a core with an id: its operation and rank (R293). -/
def State.liveTile (s : State) (c tile : Nat) : Option (Nat × Nat × Rank) :=
  (s.core c).th.ops.findSome? fun o =>
    match o.joined with
    | none => none
    | some (p, m) =>
      match s.rank p m with
      | some r => if o.tile = tile ∧ r.recv ∧ r.ending.isNone then some (p, m, r) else none
      | none => none

/-- A receiver's CANCEL comes to its own router; before the operation starts it stands there (R385, R386). -/
def State.sendCancel (s : State) (p : Nat) (r : Rank) : State :=
  match s.plane p with
  | none => s
  | some o =>
    if o.ref.isNone then s.modPlane p fun o => { o with cancels := (r.core, r.core) :: o.cancels }
    else (s.cancelAt p r.core r.core).flow p

/-- PL_CANCEL (R293): its rank has ended by the next cycle, in whose first step a freed tile is visible (R329). -/
def execPlCancel (rd rs1 : BitVec 5) (s : State) : Out :=
  ok (readWrite [.x rs1] (.x rd) s fun s =>
    match s.liveTile s.curCore (field (s.x rs1) 0 16) with
    | none => s.finishX rd 256
    | some (p, m, r) =>
      (((s.freezeRank p m).sendCancel p r).endRankAt p m 1 (s.cycle + 1)).finishX rd (BitVec.ofNat 64 r.least))

/-- The free places of the drain queue, lowest first (R329). -/
def Core.freeTiles (k : Core) : List Nat := (below 4).filter fun t => (KMap.get k.th.tiles t).isNone

/-- MDRAIN_Q (R283): the snapshot takes a place in the drain queue, and an operation starts on it. -/
def execMdrainQ (acc : BitVec 3) (rs1 rs2 : BitVec 5) (amax : Bool) (s : State) : Out :=
  ok (drainOp acc rs1 rs2 amax (fun t => t == 0) s
    (fun a _ s k => withDescriptor a s fun s =>
      let d := planeDesc (BitVec.ofNat 512 (s.here.spad.load 64 a.toNat))
      if s.here.poisoned a.toNat 64 ∨ d.src ≠ 0 ∨ d.elems ≠ 256 ∨ d.sfmt ≠ 0 then s.trap 31 0 else k s)
    (fun a _ clear am s =>
      let k := s.here
      let d := planeDesc (BitVec.ofNat 512 (k.spad.load 64 a.toNat))
      match k.freeTiles with
      | [] => s.block .drainQ
      | tile :: _ =>
        if 8 ≤ k.th.ops.length then s.block .drainQ
        else if k.drainsBusy then s.block .unlimited
        else
          let members := match KMap.get s.sow.groups (field (vecGet k.grp d.gh 0) 0 12) with | some g => g.members | none => []
          let sc := groupScope s.curCore members
          gated .mx sc s fun s =>
            let earlier := match am with | some _ => s.me.accsWithin allPaths (amaxScope s.me.u.wamax) | none => []
            let words := (k.getAcc acc).words
            let sd := signedOf 8 (field s.me.u.wscl 16 8)
            let s := s.raiseFlags (flagsOfAfl (k.getAcc acc).afl)
            let s := if clear then s.modHere fun k => k.modAcc acc Acc.cleared else s
            let (access, s) := s.addAccess s.curCore s.curSlot .mx sc false
            let (oid, s) := s.newThOp access (some tile) true
            let s := s.modTh s.curCore fun h => { h with tiles := KMap.put h.tiles tile (words, sd) }
            let (n, s) := s.fresh
            let s := (s.addDrain n acc.toNat 1 []).armAmax n earlier [] am
            let s := s.at (s.cycle + 20) (.drainComplete s.curCore n)
            (s.joinPlane s.curCore oid d).retire))

end Sys2Proof.Machine
end

