-- ==== Sys2Proof/Machine/Bank.lean ====
section
/-! DEFINITION. The banks of a scratchpad: which request each grants in a cycle (R83, R84, R330, R429), and what a grant does. -/

namespace Sys2Proof.Machine

/-! ### Local accesses of slots -/

/-- The elements of an access whose addresses lie in a row. -/
def elemsInRow (row : Nat) (elems : List (Nat × Nat)) : List (Nat × Nat) := elems.filter fun e => e.2 / 64 == row

/-- A list in a free order, with the choices it took: each entry goes to the front or to the back. -/
def freeOrder {α : Type} (l : List α) (n : Nat) : List α :=
  (l.foldl (fun (p : Nat × List α) x => (p.1 + 1, if Config.freeBit p.1 then p.2 ++ [x] else x :: p.2)) (n, [])).2

/-- The writes of a vector store in a row, by address: where two elements share one, which of them stays is open (R257). -/
def State.storeElems (s : State) (c n : Nat) (v : VWord) (l : List (Nat × Nat)) : State :=
  let write (l : List (Nat × Nat)) (s : State) : State := l.foldl (fun s e => s.writeSpad c e.2 (leBytes n (vecElem v n e.1))) s
  if (l.map fun e => e.2).Nodup then write l s
  else write (freeOrder l s.free) { s with free := s.free + l.length }

/-- What a row's grant does: the access reads or writes the scratchpad there, and a scalar access writes its destination (R40 to R42,
R256). A read of a poisoned word makes the destination POISONED, and an AMO then writes nothing (R344). -/
def State.performRow (s : State) (c i row : Nat) (m : LocalAcc) : State :=
  let k := s.core c
  let result (rd : BitVec 5) (n : Nat) (signed : Bool) (t : Slot) : Slot :=
    if k.poisoned m.addr n then t.markX rd { fe := .poisoned, prod := none }
    else t.setX rd (extend n signed (k.spad.load n m.addr))
  match m.op with
  | .load n signed rd => s.modSlot c i (result rd n signed)
  | .store n v => s.writeSpad c m.addr (leBytes n v.toNat)
  | .lr n rd =>
    s.modSlot c i fun t => { result rd n true t with resv := some { block := m.addr / 64 * 64, addr := m.addr, size := n } }
  | .sc n v rd =>
    let hit := (s.slot c i).resv == some { block := m.addr / 64 * 64, addr := m.addr, size := n }
    let s := if hit then s.writeSpad c m.addr (leBytes n v.toNat) else s
    s.modSlot c i fun t => { t.setX rd (if hit then 0 else 1) with resv := none }
  | .amo n op v rd =>
    let s' := s.modSlot c i (result rd n true)
    if k.poisoned m.addr n then s'
    else s'.writeSpad c m.addr (leBytes n (op.apply n (k.spad.load n m.addr) v.toNat))
  | .vload _ n elems =>
    let data := (elemsInRow row elems).foldl (fun d e => setField d (8 * n * e.1) (8 * n) (k.spad.load n e.2)) m.data
    let bad := (elemsInRow row elems).any fun e => k.poisoned e.2 n
    s.modSlot c i fun t => { t with mem := some { m with
      data := data
      poison := m.poison || bad } }
  | .vstore n elems v => s.storeElems c n v (elemsInRow row elems)
  | .save _ x => s.writeSpad c (64 * row) (leBytes 64 (field x (8 * (64 * row - m.addr)) 512))
  | .restore _ _ =>
    let data := setField m.data (8 * (64 * row - m.addr)) 512 (k.spad.load 64 (64 * row))
    s.modSlot c i fun t => { t with mem := some { m with
      data := data
      poison := m.poison || k.poisoned (64 * row) 64 } }

/-- The last grant of a local access: a vector load writes its destination, or makes it POISONED whole (R344), an `ssave` or `sload`
completes (R297), and the slot can issue again (R71). An `sload` one of whose rows holds a poisoned word answers 5, as for an illegal context:
the model's choice (log 100). -/
def State.endLocal (s : State) (c i : Nat) (m : LocalAcc) : State :=
  let s := s.modSlot c i fun t => { t with
    mem := none
    st := if t.st = .blocked ∧ t.wait.isNone then .ready else t.st }
  match m.op with
  | .vload vd _ _ =>
    s.modSlot c i fun t => if m.poison then t.markV vd { fe := .poisoned, prod := none } else t.setV vd (m.data.setWidth 1024)
  | .save rd _ => s.modSlot c i fun t => t.setX rd 0
  | .restore rd target =>
    if m.poison ∨ contextLegal m.data (s.core c).sid target = false then s.modSlot c i fun t => t.setX rd 5
    else (s.restoreSlot c target m.data).modSlot c i fun t => t.setX rd 0
  | _ => s

/-- The grant of a row of a slot's local access. -/
def State.grantRow (s : State) (c i row : Nat) : State :=
  match (s.slot c i).mem with
  | none => s
  | some m =>
    let s := s.performRow c i row m
    match (s.slot c i).mem with
    | none => s
    | some m =>
      let left := m.rows.filter (· != row)
      let s := s.modSlot c i fun t => { t with mem := some { m with rows := left } }
      if left.isEmpty then s.endLocal c i m else s

/-! ### Choosing -/

/-- The place of a class in R83's table. -/
def BankClass.index : BankClass → Nat
  | .inbound => 0
  | .tensor => 1
  | .slot => 2
  | .gleaner => 3
  | .thresher => 4

/-- The grants of a cycle so far: whether the inbound class had one before this event, and the reads and writes of the engines (R84,
R330, R429). -/
structure Grants where
  inbound : Bool
  plane : Bool
  gleanRead : Bool
  gleanWrite : Bool
  thresher : Bool
  chosen : List BankReq
  deriving DecidableEq, Repr

/-- The message whose landing a request of the inbound class serves. -/
def BankAct.message : BankAct → Option Nat
  | .landing id _ => some id
  | .planeRow id _ => some id
  | _ => none

/-- Whether a request is for a row of a landing HEADER or PLANE. -/
def BankAct.ofPlane : BankAct → Bool
  | .planeRow _ _ => true
  | _ => false

/-- Whether a request is for a write of the Gleaner. -/
def BankAct.gleanWrites : BankAct → Bool
  | .gleanerRow _ _ _ (.write _ _) => true
  | _ => false

/-- The oldest of some requests; of equal age the first. -/
def oldest (rs : List BankReq) : Option BankReq :=
  rs.foldl (fun b r => match b with | none => some r | some q => if r.first < q.first then some r else some q) none

/-- Whether a request may be granted in a cycle at all: of the inbound class only the rows of the head (R84) and one row of a plane, of the engines one read and one
write, and at a throttle level of 4 or more the Gleaner only in even cycles (R330, R425, R429). -/
def Core.grantable (k : Core) (now pthr : Nat) (g : Grants) (r : BankReq) : Bool :=
  match r.cls with
  | .inbound => !g.inbound && !(g.plane && r.act.ofPlane) && (oldest (k.bank.filter fun q => q.cls == .inbound)).any fun q => q.act.message == r.act.message
  | .gleaner =>
    (if r.act.gleanWrites then !g.gleanWrite else !g.gleanRead) && (decide (pthr < 4) || now % 2 == 0)
  | .thresher => !g.thresher
  | _ => true

/-- Whether a class is owed a grant on a bank (R83): its oldest waiting request has waited at least 11 cycles, and it had no grant there
in the last 11. -/
def Core.owed (k : Core) (now bank : Nat) (rs : List BankReq) (cls : BankClass) : Bool :=
  (oldest (rs.filter fun r => r.cls == cls)).any fun r =>
    decide (r.first + 11 ≤ now) &&
      match KMap.get k.lastGrant (8 * bank + cls.index) with
      | none => true
      | some c => decide (c + 11 < now)

/-- The request a bank grants in a cycle (R83): owed, inbound head, slot retries, tensor, slot first attempts, Gleaner, Thresher. -/
def Core.choose (k : Core) (now pthr bank : Nat) (g : Grants) : Option BankReq :=
  let rs := k.bank.filter fun r => r.bank == bank && decide (r.first ≤ now) && k.grantable now pthr g r
  let waiting := k.bank.filter fun r => r.bank == bank && decide (r.first ≤ now)
  let owed := [BankClass.inbound, .tensor, .slot, .gleaner, .thresher].filterMap fun cls =>
    if k.owed now bank waiting cls then oldest (rs.filter fun r => r.cls == cls) else none
  match oldest owed with
  | some r => some r
  | none =>
    let first (p : BankReq → Bool) : Option BankReq := oldest (rs.filter p)
    [first fun r => r.cls == .inbound, first fun r => r.cls == .slot && decide (r.first < now), first fun r => r.cls == .tensor,
      first fun r => r.cls == .slot, first fun r => r.cls == .gleaner, first fun r => r.cls == .thresher].findSome? id

/-- Whether a bank has granted a request in a cycle. -/
def Core.granted (k : Core) (now bank : Nat) : Bool :=
  (below 5).any fun i => KMap.get k.lastGrant (8 * bank + i) == some now

/-- Whether a request is granted before the slot of a cycle issues, when its instruction may start an `mma`: what arrives, the tensor unit, and
the slot's own. -/
def BankReq.early (r : BankReq) (slot : Nat) : Bool :=
  match r.act with
  | .slotRow i _ => i == slot
  | _ => r.cls == .inbound || r.cls == .tensor

/-- A bank's grant, if it has one to make, among the grants of a cycle; before the issue of the slot `coming` only an early one. -/
def Core.grantBank (k : Core) (now pthr : Nat) (coming : Option Nat) (g : Grants) (bank : Nat) : Grants :=
  if k.granted now bank then g
  else
    match (k.choose now pthr bank g).filter fun r => coming.all r.early with
    | none => g
    | some r =>
      let write := r.act.gleanWrites
      { inbound := g.inbound
        plane := g.plane || r.act.ofPlane
        gleanRead := g.gleanRead || (r.cls == .gleaner && !write)
        gleanWrite := g.gleanWrite || (r.cls == .gleaner && write)
        thresher := g.thresher || r.cls == .thresher
        chosen := g.chosen ++ [r] }

/-- What a grant does. -/
def State.grant (s : State) (c : Nat) (r : BankReq) : State :=
  match r.act with
  | .slotRow i row => s.grantRow c i row
  | .landing id _ =>
    match s.msg id with
    | some m => s.now (landing id m)
    | none => s
  | .mmaRow start row late => s.mmaRow c start row late
  | .mloadRow acc addr place size => s.mloadRow c acc addr place size
  | .drainRow id segs => s.drainRow c id segs
  | .gleanerRead lid => s.gleanDescriptor c lid
  | .gleanerRow lid n p op => s.gleanGrant c lid n p op
  | .descriptor oid addr => s.readDescriptor c oid addr
  | .source op rank addr size => s.grantSource c op rank addr size
  | .planeRow id row => s.planeRow c id row

/-- The slot that is about to issue in this cycle, if it may start an `mma` at once: its start is settled before the grants of the cycle, so
that its requests are among them (R327). An `mma` has the major opcode 0x2B and funct3 000, an `sresume`, by which one returns to the queue
(R278), funct3 100 and funct7 0010000 (R20). -/
def State.mmaComing (s : State) (c : Nat) : Option Nat :=
  let k := s.core c
  let i := (s.cycle - (s.die (dieOf c)).origin) % 16
  let t := k.slot i
  if k.trun.isNone ∧ k.tq = [] ∧ k.tileFree ∧ t.hold = false ∧ (t.st = .ready ∨ t.st = .blocked) ∧ t.issueFrom ≤ s.cycle
      ∧ s.agenda.any (fun d => d.act == .issue c i && d.cycle == s.cycle) then
    match s.fetchAt c i with
    | .ok w => if field w 0 7 = 0x2B ∧ (field w 12 3 = 0 ∨ (field w 12 3 = 4 ∧ field w 25 7 = 16)) then some i else none
    | .error _ => none
  else none

/-- BANK_GRANT: every bank of a core grants at most one of the requests that wait on it in this cycle (R83). Where the slot that issues in it
may start an `mma`, the lower classes follow the issue (R327). -/
def execBankGrant (core : Nat) (s : State) : Out :=
  ok (
    let k := s.core core
    let now := s.cycle
    let banks := ((k.bank.filter fun r => decide (r.first ≤ now)).map fun r => r.bank).eraseDups
    let used (cls : BankClass) : Bool := (below 32).any fun b => KMap.get k.lastGrant (8 * b + cls.index) == some now
    let coming := s.mmaComing core
    let g := banks.foldl (k.grantBank now s.sec.pthr coming)
      { inbound := used .inbound, plane := used .inbound, gleanRead := used .gleaner, gleanWrite := used .gleaner, thresher := used .thresher, chosen := [] }
    let s := s.modCore core fun k => { k with
      bank := g.chosen.foldl (fun l r => l.erase r) k.bank
      lastGrant := g.chosen.foldl (fun m r => KMap.put m (8 * r.bank + r.cls.index) now) k.lastGrant }
    let s := g.chosen.foldl (fun s r => s.grant core r) s
    let s := if coming.isSome then s.schedule now 4 (.event (.bankGrant core)) else s
    if (s.core core).bank.any (fun r => decide (r.first ≤ now)) ∧
        ¬ s.agenda.any (fun d => d.act == .event (.bankGrant core) && d.cycle == now + 1) then
      s.schedule (now + 1) 2 (.event (.bankGrant core))
    else s)

end Sys2Proof.Machine
end

