-- ==== Sys2Proof/Machine/Barrier.lean ====
section
/-! DEFINITION. Wire barriers (R117 to R119) and group handles (R120, R121). -/

namespace Sys2Proof.Machine

/-- The physical context that a wire context is bound to at a core, with its number (R117). -/
def State.wireOf (s : State) (c b : Nat) : Option (Nat × WireCtx) :=
  match KMap.get (s.core c).wire b with
  | none => none
  | some n =>
    match KMap.get (s.die (dieOf c)).wires n with
    | none => none
    | some w => some (n, w)

/-- The phase of a core's latest arrival in a context, 0 if there is none (R119). -/
def Core.arrival (k : Core) (b : Nat) : Nat := (KMap.get k.wireArr b).getD 0

/-- Whether a core has arrived in the current phase of a context: its arrival may still be pending (R118). -/
def Core.arrivedIn (k : Core) (b : Nat) (w : WireCtx) : Bool := KMap.get k.wireArr b == some w.phase

/-- The missing cores of a phase, as rows in the low and columns in the high 32 bits (R119). -/
def State.missing (s : State) (b : Nat) (w : WireCtx) : Nat :=
  let row0 := (w.members.map fun c => rowOf c).foldl min 31
  let col0 := (w.members.map fun c => colOf c).foldl min 15
  let late := w.members.filter fun c => !(s.core c).arrivedIn b w
  let rows := late.foldl (fun m c => m ||| 2 ^ (rowOf c - row0)) 0
  let cols := late.foldl (fun m c => m ||| 2 ^ (colOf c - col0)) 0
  cols * 2 ^ 32 + rows

/-- WBAR_A (R118): the core's arrival in the current phase is pending until the slot's earlier accesses within DIE are performed. -/
def execWbarA (b : BitVec 3) (s : State) : Out :=
  ok (match s.wireOf s.curCore b.toNat with
    | none => s.illegal
    | some (_, w) =>
      if s.here.arrivedIn b.toNat w then s.block (.wbarA b.toNat)
      else
        let l := s.me.accsWithin allPaths .die
        let s := s.modHere fun k => { k with wireArr := KMap.put k.wireArr b.toNat w.phase }
        let s := (s.modMe fun t => { t with wbar := t.wbar ++ [(b.toNat, w.phase, l)] }).retire
        if l.isEmpty then s.at s.cycle (.wbarArrivalSignal s.curCore s.curSlot b.toNat) else s)

/-- WBAR_W (R119), at each sample. -/
def execWbarW (rd : BitVec 5) (b : BitVec 3) (s : State) : Out :=
  ok (match s.wireOf s.curCore b.toNat with
    | none => s.illegal
    | some (_, w) =>
      writing (.x rd) s fun s =>
        let p := s.here.arrival b.toNat
        if p ≠ w.phase then s.finishX rd (BitVec.ofNat 64 (p * 2 ^ 48)) else s.block (.wbarW rd b.toNat))

/-- WBAR_ARRIVAL_SIGNAL: an arrival whose accesses are performed is signalled; the last one of a phase releases it 24 cycles later
(R118). `serial` is the context's number. -/
def execWbarArrivalSignal (core slot serial : Nat) (s : State) : Out :=
  ok (match (s.slot core slot).wbar.find? fun a => a.1 == serial && a.2.2.isEmpty with
    | none => s
    | some a =>
      let s := s.modSlot core slot fun t => { t with wbar := t.wbar.filter fun b => b.1 != serial }
      match s.wireOf core serial with
      | none => s
      | some (n, w) =>
        if w.phase ≠ a.2.1 ∨ w.arrived.contains core then s
        else
          let w := { w with arrived := core :: w.arrived }
          let s := s.modDie (dieOf core) fun d => { d with wires := KMap.put d.wires n w }
          if w.members.all fun c => w.arrived.contains c then
            s.at (s.cycle + 24) (.wbarPhaseRelease (dieOf core) n w.phase)
          else s)

/-- WBAR_PHASE_RELEASE: a phase completes and the next one, modulo 256, begins (R117, R118). -/
def execWbarPhaseRelease (die ctx phase : Nat) (s : State) : Out :=
  ok (match KMap.get (s.die die).wires ctx with
    | none => s
    | some w =>
      if w.phase ≠ phase then s
      else s.modDie die fun d => { d with wires := KMap.put d.wires ctx { w with
        phase := (phase + 1) % 256
        arrived := []
        completed := some phase } })

/-- The handle of a group (R120). -/
def handleWord (index generation gid : Nat) : Word := BitVec.ofNat 64 (2 ^ 63 + index * 2 ^ 24 + generation * 2 ^ 16 + gid)

/-- The handle that `grp.put` forms from an index of the image (R121): invalid unless the core is a member of that group. -/
def State.handleOf (s : State) (c index : Nat) : Word :=
  match (s.core c).ticket with
  | none => 0
  | some t =>
    match s.sheaf t with
    | none => 0
    | some h =>
      match h.groups[index]? with
      | none => 0
      | some (gid, _) =>
        match KMap.get s.sow.groups gid with
        | none => 0
        | some g => if g.members.contains c then handleWord index g.generation gid else 0

/-- GRP_PUT (R121). -/
def execGrpPut (g : BitVec 4) (rs1 : BitVec 5) (s : State) : Out :=
  ok (reading [.x rs1] s fun s =>
    let v := s.x rs1
    let h := if s.me.mode ≠ .u ∧ bitAt v 63 then handleWord 0xFF (field v 16 4) (field v 0 12)
      else s.handleOf s.curCore (field v 0 8)
    (s.modHere fun k => { k with grp := k.grp.set g.toNat h g.isLt }).retire)

/-- GRP_GET (R121). -/
def execGrpGet (rd : BitVec 5) (g : BitVec 4) (s : State) : Out :=
  ok (writing (.x rd) s fun s => s.finishX rd (s.here.grp[g.toNat]'g.isLt))

end Sys2Proof.Machine
end

