-- ==== Sys2Proof/Machine/Control.lean ====
section
/-! DEFINITION. Branches and jumps (R9), the environment call and breakpoint, the returns from traps (R45), `fence.i` (R44). -/

namespace Sys2Proof.Machine

/-- A jump or taken branch (R9): a target that is not a multiple of 4 raises cause 1 at the jump, with no other effect. -/
def jumpTo (target : Word) (s : State) (k : State → State) : State :=
  if field target 0 2 ≠ 0 then s.trap 1 target else (k s).goto target

/-- A conditional branch: both sources are read whether it is taken or not. -/
def branch (cond : Word → Word → Bool) (rs1 rs2 : BitVec 5) (imm : BitVec 12) (s : State) : State :=
  reading [.x rs1, .x rs2] s fun s =>
    if cond (s.x rs1) (s.x rs2) then jumpTo (s.me.pc + immB imm) s id else s.retire

/-- BEQ (R9). -/
def execBeq (rs1 rs2 : BitVec 5) (imm : BitVec 12) (s : State) : Out := ok (branch (fun a b => a == b) rs1 rs2 imm s)

/-- BNE (R9). -/
def execBne (rs1 rs2 : BitVec 5) (imm : BitVec 12) (s : State) : Out := ok (branch (fun a b => a != b) rs1 rs2 imm s)

/-- BLT (R9). -/
def execBlt (rs1 rs2 : BitVec 5) (imm : BitVec 12) (s : State) : Out := ok (branch BitVec.slt rs1 rs2 imm s)

/-- BGE (R9). -/
def execBge (rs1 rs2 : BitVec 5) (imm : BitVec 12) (s : State) : Out := ok (branch (fun a b => !a.slt b) rs1 rs2 imm s)

/-- BLTU (R9). -/
def execBltu (rs1 rs2 : BitVec 5) (imm : BitVec 12) (s : State) : Out := ok (branch BitVec.ult rs1 rs2 imm s)

/-- BGEU (R9). -/
def execBgeu (rs1 rs2 : BitVec 5) (imm : BitVec 12) (s : State) : Out := ok (branch (fun a b => !a.ult b) rs1 rs2 imm s)

/-- JALR (R9): bit 0 of the computed target is cleared before the check. -/
def execJalr (rd rs1 : BitVec 5) (imm : BitVec 12) (s : State) : Out :=
  ok (readWrite [.x rs1] (.x rd) s fun s =>
    jumpTo ((s.x rs1 + imm12 imm) &&& ~~~(1#64)) s fun t => t.setX rd (s.me.pc + 4))

/-- JAL (R9). -/
def execJal (rd : BitVec 5) (imm : BitVec 20) (s : State) : Out :=
  ok (writing (.x rd) s fun s => jumpTo (s.me.pc + immJ imm) s fun t => t.setX rd (s.me.pc + 4))

/-- ECALL: cause 8, 9 or 11 by mode (R45). -/
def execEcall (s : State) : Out :=
  ok (s.trap (match s.me.mode with | .u => 8 | .s => 9 | .m => 11) 0)

/-- EBREAK: cause 3 (R45). -/
def execEbreak (s : State) : Out := ok (s.trap 3 0)

/-- MRET: legal in M-mode (R45). -/
def execMret (s : State) : Out := ok (if s.me.mode = .m then s.modMe Slot.returnM else s.illegal)

/-- SRET: legal in M-mode, and in S-mode while mstatus.TSR (bit 22) is 0 (R45). -/
def execSret (s : State) : Out :=
  ok (if s.me.mode = .m ∨ (s.me.mode = .s ∧ bitAt s.me.c.mstatus 22 = false) then s.modMe Slot.returnS else s.illegal)

/-- FENCE_I discards the slot's fetch buffer (R44). -/
def execFenceI (s : State) : Out := ok ((s.modMe fun t => { t with fetch := none }).retire)

/-- ILLEGAL_INSTRUCTION: the word at the issuing slot's pc is illegal (R25); the trap's word and tval hold it. -/
def execIllegalInstruction (w : BitVec 32) (s : State) : Out := ok ({ s with curWord := w }.illegal)

end Sys2Proof.Machine
end

