-- ==== Sys2Proof/Machine/Deadlock.lean ====
section
/-! DEFINITION. The deadlock service: probes, replies, confirmation and the record (R230 to R239). -/

namespace Sys2Proof.Machine

/-- The edges of a node: the core and endpoint at which each ends, and whether that is a receiving end (R230). -/
def State.edges (s : State) (c i : Nat) : List (Nat × Nat × Bool) :=
  let t := s.slot c i
  match t.nodeKey with
  | none => []
  | some (kind, ch) =>
    let chs := if kind = 3 then (below 8).filterMap (fun n => vecGet t.alt n none) else [ch]
    let ends := chs.filterMap fun ch =>
      match s.endpoint c ch with
      | some e => if e.broken then none else some e
      | none => none
    let owners := (ends.map fun e => (e.peerCore, e.peerSlot)).eraseDups
    owners.filterMap fun o =>
      (ends.find? fun e => (e.peerCore, e.peerSlot) == o).map fun e => (e.peerCore, e.peerEp, kind == 0)

/-- The member entry of a node. -/
def Slot.member (t : Slot) : Member := { pid := t.pidWord, kind := (t.nodeKey.map (·.1)).getD 0 }

/-- Whether a node waits under the OR model (R230). -/
def Slot.waitsOr (t : Slot) : Bool := (t.nodeKey.map (·.1)) == some 3

/-- A member list with another one appended: at most 32 entries are carried (R232). -/
def joinMembers (a b : List Member) : List Member := (a ++ b).take 32

/-- A saturating member count. -/
def countUp (a b : Nat) : Nat := min (a + b) 0xFFFF

/-- The processes of a core's sheaf (R232). -/
def Core.processes (k : Core) : Nat :=
  let (d, r, c) := k.shape
  d * r * c * 15

/-- Sends a probe on every edge of a node (R232, R233). -/
def State.probeOut (s : State) (c i : Nat) (p : Probe) : State :=
  let t := s.slot c i
  let p := { p with
    from_ := t.pidWord
    fromAlt := t.waitsOr }
  (s.edges c i).foldl (fun s e => s.chSend c e.1 (.probe e.2.1 e.2.2 p) 0) s

/-- The mark of a computation at a slot. -/
def Slot.mark (t : Slot) (init seq : Nat) : Option Mark := t.marks.find? fun m => m.init == init && m.seq == seq

/-- A slot with a mark made or replaced; in a full table it takes the place of the entry with the highest initiator, the first of them if two
share it. None when it would itself be the highest, or as high as the highest, which the rule leaves open: it is then not made, the model's
choice (R232; log 93). -/
def Slot.makeMark (t : Slot) (m : Mark) : Option Slot :=
  let rest := t.marks.filter fun n => !(n.init == m.init && n.seq == m.seq)
  if rest.length < 4 then some { t with marks := rest ++ [m] }
  else
    let top := rest.foldl (fun k n => max k n.init) 0
    if top ≤ m.init then none else some { t with marks := (rest.eraseP fun n => n.init == top) ++ [m] }

/-- A node generates a probe (R233). -/
def State.generate (s : State) (c i : Nat) : State :=
  let t := s.slot c i
  let id := t.pidWord
  let seq := t.bseq.toNat
  let s := s.modSlot c i fun t => { t with lastProbe := some s.cycle }
  let p : Probe := { init := id, initSeq := seq, root := id, rootSeq := seq, orRooted := t.waitsOr, hops := 1, count := 1,
                     list := [t.member], from_ := id, fromAlt := false }
  if t.waitsOr then
    let m : Mark := { init := id, seq := seq, parent := none, pending := (s.edges c i).length, gathered := [t.member], count := 1 }
    match (s.slot c i).makeMark m with
    | none => s
    | some t' => (s.modSlot c i fun _ => t').probeOut c i { p with
        hops := 0
        count := 0
        list := [] }
  else s.probeOut c i p

/-- The core and slot of a process of the sheaf of a core (R54), by the die map where its core is on another panel (R94). -/
def State.locate (s : State) (c pid : Nat) : Option (Nat × Nat) :=
  match s.cores.find? fun k => k.2.ticket.isSome && k.2.ticket == (s.core c).ticket && k.2.pidBase == pid / 16 * 16 with
  | some k => some (k.1, pid % 16)
  | none =>
    let e := (KMap.get (s.core c).dmap (pid / 2 ^ 13)).getD 0
    if bitAt e 31 ∧ field e 25 6 ≠ s.panel then
      some (foreignTarget (field e 25 6) s.panel (coreAt (field e 20 5) (field e 15 5 + pid / 2 ^ 8 % 32) (field e 11 4 + pid / 16 % 16)), pid % 16)
    else none

/-- Sends a REPLY to a root; one to the node itself is delivered in the same cycle (R234). -/
def State.replyTo (s : State) (c i init initSeq root rootSeq : Nat) (list : List Member) (count : Nat) : State :=
  match s.locate c root with
  | none => s
  | some (rc, ri) =>
    let body := Body.reply ri init initSeq root rootSeq list count
    if rc = c ∧ ri = i then
      let (id, s) := (s.modCore c fun k => { k with sentTotal := k.sentTotal + 1 }).fresh
      { s with net := KMap.put s.net id { net := .chn, src := c, dst := c, body := body, generation := 0, crossed := 0, due := s.cycle, eject := 0,
                                          route := [] } }.now (.reply id)
    else s.chSend c rc body 0

/-- The deadlock record (R239). -/
def State.deadlockRecord (s : State) (c i ep : Nat) (list : List Member) (count : Nat) : BitVec 2048 :=
  let t := s.slot c i
  let head := t.pidWord + t.bseq.toNat * 2 ^ 32 + min count 0xFFFF * 2 ^ 48 + ep * 2 ^ 64 + t.member.kind * 2 ^ 72
    + bit (list.any fun m => m.kind == 3) * 2 ^ 74 + (s.core c).sid * 2 ^ 96 + (s.clock (dieOf c)).toNat * 2 ^ 128
  let entries := (list.zip (below 32)).foldl (fun k m => k + (m.1.pid + m.1.kind * 2 ^ 21) * 2 ^ (256 + 32 * m.2)) 0
  BitVec.ofNat 2048 (head + entries)

/-- The receive whose destination a blocked read waits for. -/
def Slot.awaitedRecv (t : Slot) : Option Recv :=
  match t.nodeKey with
  | some (1, ch) => t.recvs.find? fun r => r.ch == ch
  | _ => none

/-- The endpoint of a victim's withdrawn instruction: of a receive that waits behind another one its own, of an access to a receive's
destination that of the receive, and for `alt.wait` the first armed one from ANEXT on (R235). -/
def Slot.victimEnd (t : Slot) : Nat :=
  match t.waitKind with
  | some (.behind ch _) => ch
  | some (.dest r (some ch)) => (t.receiveOf r).getD ch
  | some (.altWait _ _) => ((t.armed.head?).map (·.2)).getD 0
  | _ => (t.nodeKey.map (·.2)).getD 0

/-- Confirm (R235): the record is appended to the die's queue, and the victim's instruction is withdrawn and traps with cause 26; a
send traps once its WITHDRAWN has landed. A write or `fe.empty` that waits on a receive's destination is a node as a read is, and the table of
R235 has no row for it: its receive is withdrawn as for a read, the model's choice (log 107). -/
def State.confirm (s : State) (c i : Nat) (list : List Member) (count : Nat) : State :=
  let t := s.slot c i
  let ep := t.victimEnd
  let s := s.modDie (dieOf c) fun d => { d with dlk := d.dlk.push 16 (s.deadlockRecord c i ep list count) }
  match t.waitKind with
  | some (.send ch _) => s.withdrawSend c i ch (some (min count 0xFFFF))
  | _ =>
    let s := match t.awaitedRecv with
      | some r => s.withdrawRecv c i r chVictim
      | none => s
    (s.modSlot c i fun t => t.chStatus chVictim ep).lateTrap c i 26 (BitVec.ofNat 64 (min count 0xFFFF)) (BitVec.ofNat 64 ep)

/-- A REPLY at its root (R234). -/
def State.replyAt (s : State) (c i init initSeq rootSeq : Nat) (list : List Member) (count : Nat) : State :=
  let t := s.slot c i
  match t.nodeKey, t.mark init initSeq with
  | some _, some m =>
    if t.bseq.toNat ≠ rootSeq then s
    else
      let m : Mark := { m with
        gathered := joinMembers m.gathered list
        count := countUp m.count count
        pending := m.pending - 1 }
      let s := s.modSlot c i fun t => (t.makeMark m).getD t
      if m.pending ≠ 0 then s
      else if t.pidWord = init then s.confirm c i m.gathered m.count
      else
        match m.parent with
        | some (r, sr) => s.replyTo c i init initSeq r sr m.gathered m.count
        | none => s
  | _, _ => s

/-- The checks of R233 that find a probe stale where it lands. -/
def State.probeStale (s : State) (c ep : Nat) (atReceiver : Bool) (p : Probe) : Bool :=
  match s.endpoint c ep with
  | none => true
  | some e =>
    let t := s.slot c e.owner
    t.nodeKey.isNone || p.hops == (s.core c).processes
      || (atReceiver && !(e.offer.any fun o => o.pid == p.from_))
      || (!atReceiver && !p.fromAlt && e.recvRec != some p.from_)

/-- A probe that a node above its initiator engages with (R233). -/
def State.engage (s : State) (c i : Nat) (p : Probe) : State :=
  let t := s.slot c i
  let p := { p with
    list := joinMembers p.list [t.member]
    count := countUp p.count 1
    hops := p.hops + 1 }
  let edges := s.edges c i
  let m : Mark := { init := p.init, seq := p.initSeq, parent := some (p.root, p.rootSeq), pending := edges.length, gathered := p.list,
                    count := p.count }
  if t.waitsOr then
    match t.makeMark m with
    | none => s
    | some t' => (s.modSlot c i fun _ => t').probeOut c i { p with
        root := t.pidWord
        rootSeq := t.bseq.toNat
        orRooted := true
        hops := 0
        count := 0
        list := [] }
  else if p.orRooted then
    match t.makeMark m with
    | none => s
    | some t' => (s.modSlot c i fun _ => t').probeOut c i p
  else s.probeOut c i p

/-- A PROBE at a node (R233). -/
def State.probeAt (s : State) (c ep : Nat) (atReceiver : Bool) (p : Probe) : State :=
  match s.endpoint c ep with
  | none => s
  | some e =>
    let i := e.owner
    let t := s.slot c i
    if s.probeStale c ep atReceiver p then s
    else if t.pidWord < p.init then
      let recent := t.lastProbe.any fun l => s.cycle < l + s.probePeriod c
      if recent ∨ s.probePeriod c = 0 then s else s.generate c i
    else if t.pidWord = p.init then
      if t.bseq.toNat ≠ p.initSeq then s
      else if p.root = p.init ∧ t.waitsOr = false then s.confirm c i p.list p.count
      else s.replyTo c i p.init p.initSeq p.root p.rootSeq p.list p.count
    else if p.orRooted ∧ (t.mark p.init p.initSeq).isSome then
      s.replyTo c i p.init p.initSeq p.root p.rootSeq p.list p.count
    else s.engage c i p

/-- PROBE_TIMER: a node whose next probe is due generates it, and the timer runs on (R232); one that fires early, after a longer period
was set or a probe on demand, only runs on. -/
def execProbeTimer (core slot serial : Nat) (s : State) : Out :=
  let t := s.slot core slot
  let period := s.probePeriod core
  ok (match t.wait with
    | some w =>
      if w.serial ≠ serial ∨ t.nodeKey.isNone ∨ period = 0 then s
      else (if s.cycle < t.probeDue w period then s else s.generate core slot).armProbe core slot
    | none => s)

/-- PROBE (R233). -/
def execProbe (msg : Nat) (s : State) : Out :=
  ok (match s.msg msg with
    | some m =>
      match m.body with
      | .probe ep atReceiver p => (s.chLand msg m).probeAt m.dst ep atReceiver p
      | _ => s
    | none => s)

/-- REPLY (R234). -/
def execReply (msg : Nat) (s : State) : Out :=
  ok (match s.msg msg with
    | some m =>
      match m.body with
      | .reply slot init initSeq _ rootSeq list count =>
        (s.chLand msg m).replyAt m.dst slot init initSeq rootSeq list count
      | _ => s
    | none => s)

end Sys2Proof.Machine
end

