-- ==== Sys2Proof/Machine/HostQueue.lean ====
section
/-! DEFINITION. The host's side: the launch queue (R413, R414), the host window's registers (R424), and the dies' clock registers (R410). -/

namespace Sys2Proof.Machine

/-- SQ_DOORBELL: a write of SQTAIL: consumption goes on, also after a mismatch (R413, R414). -/
def execSqDoorbell (value : BitVec 64) (s : State) : Out :=
  ok ((s.modHost fun h => { h with
    sqtail := value.setWidth 32
    sqerr := false }).at s.cycle .sqConsume)

/-- Where entry `k` of a ring lies, of so many bytes each (R413). -/
def ringAt (reg : Word) (k size : Nat) : Nat := field reg 0 56 + k % 2 ^ field reg 60 4 * size

/-- SQ_CONSUME: the next entry up to SQTAIL is consumed: its launch goes to the Sower, whose answer completes it; one with another SEQ sets
SQERR (R414), as does one that cannot be read (log 38). A halted panel consumes nothing (R422). -/
def execSqConsume (s : State) : Out :=
  ok (
    let h := s.host
    if h.opened = false ∨ s.sec.haltAll ∨ h.sqerr ∨ h.sqdone = h.sqtail ∨ h.pending ≠ [] ∨ s.sow.inbox.any (fun l => fromHost l.source) then s
    else
      let k := (h.sqdone + 1).toNat
      let a := ringAt h.sq k 128
      if s.physOk a .read .m 8 false = false ∨ s.memPoisoned a 128 ∨ s.mem.load 4 (a + 64) ≠ k then
        s.modHost fun h => { h with sqerr := true }
      else
        let (id, s) := s.fresh
        let l : Launch := { id := id, source := .host k, user := false
                            record := (below 8).map fun i => BitVec.ofNat 64 (s.mem.load 8 (a + 8 * i)) }
        (s.modSow fun w => { w with inbox := w.inbox ++ [l] }).at s.cycle (.launchAccept id))
where
  /-- Whether a launch came from the host queue. -/
  fromHost : Source → Bool
    | .host _ => true
    | _ => false

/-- SQ_COMPLETION: a completion entry is written to the host window once the ring has room; then CQSEQ and SQDONE rise (R413, R414). -/
def execSqCompletion (s : State) : Out :=
  ok (
    let h := s.host
    match h.pending with
    | [] => s
    | (seq, ticket, status) :: rest =>
      if h.cqseq - h.cqack = BitVec.ofNat 32 (2 ^ field h.cq 60 4) then s
      else
        let cseq := h.cqseq + 1
        let a := ringAt h.cq cseq.toNat 32
        let entry := cseq.toNat + seq.toNat * 2 ^ 32 + ticket.toNat * 2 ^ 64 + status * 2 ^ 128
        let s := if bitsOf a 48 8 = 3 ∧ s.physOk a .write .m 8 false then s.writeHome relayBase a (leBytes 32 entry) else s
        (s.modHost fun h => { h with
          cqseq := cseq
          sqdone := seq
          pending := rest }).at s.cycle .sqConsume)

/-- HOST_WINDOW_WRITE: a CXL.io write of HWBASE (0) or HWLEN (1) by the host; bits [47:12] are kept (R423, R424). -/
def execHostWindowWrite (reg : Nat) (value : BitVec 64) (s : State) : Out :=
  ok (
    let v : Word := BitVec.ofNat 64 (field value 12 36 * 2 ^ 12)
    s.modHost fun h => if reg = 0 then { h with hwbase := v } else { h with hwlen := v })

/-- CLKRATE: a write is held until the next write of CLKOFF (R410). -/
def execClkrate (die : Nat) (value : BitVec 64) (s : State) : Out :=
  ok (s.modDie die fun x => { x with clkRateHeld := some value })

/-- CLKOFF: a write applies itself and any held CLKRATE, and raises CLKGEN (R410). -/
def execClkoff (die : Nat) (value : BitVec 64) (s : State) : Out :=
  ok (s.modDie die fun x => { x with
    clkOff := value
    clkRate := x.clkRateHeld.getD x.clkRate
    clkRateHeld := none
    clkGen := x.clkGen + 1 })

end Sys2Proof.Machine
end

