-- ==== Sys2Proof/Machine/Limits.lean ====
section
/-! DEFINITION. The limit of `wtmo` and what each blocking instruction does there (R43, R50, R51, R106, R109, R116, R118, R119, R275,
R279, R283, R287, R289, R291, R292). -/

namespace Sys2Proof.Machine

/-- Writes an x register of a slot whose wait ends, and completes its instruction. -/
def State.timeOutX (s : State) (c i : Nat) (rd : BitVec 5) (w : Word) : State := s.modSlot c i fun t => (t.setX rd w).retire

/-- The active list or operation a wait reports at its limit: the one it names, or the oldest of the slot's (R289, R292). -/
def Core.waitedList (k : Core) (i : Nat) (lid : Option Nat) : Nat :=
  match lid with
  | some n => n
  | none => ((k.gl.lists.find? fun l => l.slot == i).map fun l => l.lid).getD 0

/-- See `Core.waitedList`. -/
def State.waitedOp (s : State) (c i : Nat) (oid : Option Nat) : Word :=
  let named (o : ThOp) : Bool := match oid with | some n => o.oid == n | none => o.slot == i
  match (s.core c).th.ops.find? named with
  | some o => thStatus o.oid o.tile 14 (s.aovf o) o.eovf
  | none => 0

/-- The phase `wbar.w` waits for, at its limit, with the missing cores (R119). -/
def State.missingWord (s : State) (c b : Nat) : Nat :=
  match s.wireOf c b with
  | some (_, w) => s.missing b w
  | none => 0

/-- What a blocking instruction does at its limit. -/
def State.timeOut (s : State) (c i : Nat) (k : WaitKind) : State :=
  let t := s.slot c i
  let trap32 (extra : Nat) (s : State) : State := s.lateTrap c i 32 0 (BitVec.ofNat 64 extra)
  let traps := t.limitTraps
  let noValue (r : RegRef) : State := if traps then trap32 0 s else s.lateTrap c i 25 (BitVec.ofNat 64 (regCode r)) 1
  let retire (s : State) : State := s.modSlot c i Slot.retire
  match k with
  | .source r _ _ => noValue r
  | .dest r _ => noValue r
  | .behind _ r => noValue r
  | .feWait _ => if traps then trap32 0 s else retire s
  | .park => if traps then trap32 0 s else retire s
  | .wrsNto => retire s
  | .wrsSto => retire s
  | .cntWait rd n => if traps then trap32 0 s else s.timeOutX c i rd ((s.counter c n).word true)
  | .send ch .offered => s.withdrawSend c i ch none
  | .send _ _ => s
  | .altWait rd guard =>
    let s := s.modSlot c i fun t => { t with u := { t.u with wchst := setField t.u.wchst 0 4 chTimeout } }
    if guard ∨ traps = false then s.timeOutX c i rd 8 else trap32 0 s
  | .wbarA b => trap32 (s.missingWord c b) s
  | .wbarW rd b =>
    let n := s.missingWord c b
    if traps then trap32 n s
    else s.timeOutX c i rd (BitVec.ofNat 64 (2 ^ 63 + (s.core c).arrival b * 2 ^ 48 + n))
  | .macq n => if traps then trap32 0 s else s.lateTrap c i 28 (BitVec.ofNat 64 n) 1
  | .mma _ => trap32 0 s
  | .drainQ => trap32 0 s
  | .ceGo rd => if traps then trap32 0 s else s.timeOutX c i rd (timedOut 0)
  | .ceWait rd lid =>
    if traps then trap32 0 s else s.timeOutX c i rd (timedOut ((s.core c).listStatus ((s.core c).waitedList i lid)))
  | .plGo rd => if traps then trap32 0 s else s.timeOutX c i rd (timedOut 0)
  | .plWait rd oid => if traps then trap32 0 s else s.timeOutX c i rd (timedOut (s.waitedOp c i oid))
  | .wgdata _ _ _ => s
  | .resumed => s
  | .unlimited => s

/-- WTMO_LIMIT: a blocked or parked instruction that still waits reaches its limit, after the sample of its issue cycle (R51). -/
def execWtmoLimit (core slot serial : Nat) (s : State) : Out :=
  ok (let t := s.slot core slot
    match t.wait with
    | none => s
    | some w => if w.serial ≠ serial ∨ t.hold ∨ w.kind.limited = false then s else s.timeOut core slot w.kind)

/-- WRS_STO_TIMEOUT: a `wrs.sto` completes when 1,024 cycles have passed since its issue (R43). -/
def execWrsStoTimeout (core slot serial : Nat) (s : State) : Out :=
  ok (let t := s.slot core slot
    match t.wait with
    | none => s
    | some w => if w.serial ≠ serial ∨ t.hold ∨ w.kind ≠ .wrsSto then s else s.modSlot core slot Slot.retire)

end Sys2Proof.Machine
end

