-- ==== Sys2Proof/Machine/Link.lean ====
section
/-! DEFINITION. The die-to-die links: flits, replays, holds and trainings (R390 to R394, R400 to R403), what a lost message does (R404),
and the Stolon ports (R406, R408, R423). -/

namespace Sys2Proof.Machine

/-! ### Parts -/

/-- LCTL.HOLD of a module (R390). -/
def Module.hold (m : Module) : Bool := (m.end_ 0).hold

/-- The cycles of 2 µs, for which a flit may wait in a replay buffer, and its replays, up to the limit (R401). -/
def replayWait : Nat := 3500
def replayTries : Nat := 16

/-- The flits of a replay buffer (R400). -/
def LinkEnd.flits (y : LinkEnd) : Nat := y.replay.foldl (fun n r => n + r.flits) 0

/-- The flits a replay buffer has room for (R400). -/
def replaySize : Nat := 64

/-- The message of the flit that the partner expects next of those in a replay buffer. -/
def LinkEnd.expected (y : LinkEnd) : Option Nat := (y.replay.find? fun r => r.received.isNone).map fun r => r.msg

/-- A draining module whose replay buffers are empty will be HELD (R391). -/
def State.mayDrain (s : State) (m : Nat) : State :=
  let x := s.module m
  if x.st = .drain ∧ (x.end_ 0).replay = [] ∧ (x.end_ 1).replay = [] then s.at s.cycle (.moduleDrained m) else s

/-- A message waits at an end of a module that takes no flit of it now (R393, R400). -/
def State.waitAt (s : State) (m e id : Nat) : State :=
  s.modEnd m e fun x => if x.waiting.contains id then x else { x with waiting := x.waiting ++ [id] }

/-- The first waiting message of an end crosses at a cycle, unless it is about to. -/
def State.pump (s : State) (m e cycle : Nat) : State :=
  match ((s.module m).end_ e).waiting with
  | [] => s
  | id :: _ =>
    let a := Act.event (.flitReceive m e id)
    if s.agenda.any fun d => d.act == a then s else s.at cycle (.flitReceive m e id)

/-! ### Flits (R400, R401) -/

/-- The cycles until an acknowledgement is heard: those of a hop, and a few that the spec leaves open (log 41). -/
def ackTime (f : Nat) : Nat := 2 + Config.serviceTime f % 16

/-- The cycles until a NAK is heard, or until a replayed flit is received (log 41). -/
def nakTime (f : Nat) : Nat := 2 + Config.serviceTime f % 1024

/-- The event in which an end hears the acknowledgement of a message: a receipt at that end of a module, numbered from 2 up. -/
def ackEvent (m e id : Nat) : Instr := .flitReceive m (2 + e) id

/-- A message whose flits have crossed goes on: to its next module, to its landing, or over a Stolon port to another panel, after the earlier
messages of its network between its two ends (R133, R148, R407; 1 cycle more at x32, R393). -/
def State.passOn (s : State) (id : Nat) (m : Msg) (leg : Nat) (rest : List (Nat × Nat × Nat)) (narrow : Bool) : State :=
  let slow := bit narrow
  let left := leg - 2 + rest.foldl (fun n x => n + x.2.2) 0 + m.eject + slow
  let before := (s.net.filter fun p => decide (p.1 < id) && p.2.net == m.net && p.2.src == m.src && p.2.dst == m.dst).foldl
    (fun n p => max n p.2.due) 0
  let due := max before (s.cycle + left)
  let m := { m with
    route := rest
    due := due }
  let s := { s with net := KMap.put s.net id m }
  match rest with
  | [] => if isForeign m.dst then (s.drop id).depart { m with crossed := m.crossed + 1 } else s.arrive id m due
  | n :: _ => s.at (s.cycle + leg + slow) (.flitReceive n.1 n.2.1 id)

/-- The spares that LREMAP puts in use, by their lanes (R390). -/
def remapLanes (w : Word) : List Nat :=
  (below 4).filterMap fun k => if bitAt w (16 * k + 15) then some (field w (16 * k) 6) else none

/-- A lane of an end shows an error (R390). -/
def LinkEnd.laneError (y : LinkEnd) (lane cycle : Nat) : LinkEnd :=
  let b : Word := 1#64 <<< lane
  { y with
    lerr := y.lerr ||| b
    errLanes := (if y.errCycle = cycle then y.errLanes else 0) ||| b
    errCycle := cycle }

/-- The flits of a run that are received before the first damaged one, with the draws from a counter on (R401). -/
def goodFlits : Nat → Nat → Nat
  | 0, _ => 0
  | n + 1, f => if Config.flitBad f then 0 else goodFlits n (f + 1) + 1

/-- A replay buffer in which the first of the flits that the partner expects are received, to be acknowledged at a cycle. -/
def markReceived (cycle : Nat) : Nat → List Buffered → List Buffered
  | 0, l => l
  | _, [] => []
  | n + 1, r :: l =>
    if r.received.isSome then r :: markReceived cycle (n + 1) l else { r with received := some cycle } :: markReceived cycle n l

/-- The flits of a message that its sender has in its buffer reach the receiving end (R401): out of sequence, they are refused and follow
with the replay of the one that is expected. Each good flit is received and acknowledged; at a damaged one a lane shows an error,
which LERR does not show of a spare (R390), a NAK leaves, and the flits behind it are refused. The message is passed on with its last flit, and a later one that is not on its way is asked for again. -/
def State.judge (s : State) (m e id : Nat) (msg : Msg) (leg : Nat) (rest : List (Nat × Nat × Nat)) : State :=
  let x := s.module m
  let y := x.end_ e
  if y.expected ≠ some id then s
  else
    let coming := y.replay.filter fun r => r.msg == id && r.received.isNone
    let f := s.free
    let k := goodFlits coming.length f
    let heard := s.cycle + ackTime f
    let n := (coming.take k).foldl (fun n r => n + r.flits) 0
    let s := { s with free := f + coming.length + 2 }
    let s := (s.modEnd m e fun y => { y with replay := markReceived heard k y.replay }).modEnd m (1 - e) fun y => { y with lrxf := y.lrxf + n }
    let s := if k = 0 then s else (s.refreshSoon m).at heard (ackEvent m e id)
    if k < coming.length then
      let bad := f + k
      let lane := if x.width then (Config.freeWord bad).toNat % 32 + 32 * bit x.half else (Config.freeWord bad).toNat % 64
      let spared := (remapLanes x.map).contains lane
      (if spared then s else (s.modEnd m (1 - e) fun y => y.laneError lane s.cycle).refreshSoon m).at (s.cycle + nakTime f) (.flitReplay m e id)
    else
      let s := if coming.any (·.last) then s.passOn id msg leg rest x.width else s
      match ((s.module m).end_ e).expected with
      | none => s
      | some n =>
        let comes (d : Due) : Bool := d.act == .event (.flitReceive m e n) || d.act == .event (.flitReplay m e n)
        if s.agenda.any comes then s else s.at (s.cycle + nakTime (f + 1)) (.flitReplay m e n)

/-- The cycle in which a flit that enters a replay buffer now will have waited more than 2 µs (R401). -/
def State.timeBuffer (s : State) (m : Nat) : State := s.at (s.cycle + replayWait + 1) (.replayLimit m)

/-- The flits of a message as they stand in a replay buffer from a cycle on: one of no flits of its own lies in the flit before it (R371). -/
def bufferedFlits (id n cycle : Nat) : List Buffered :=
  let one (flits : Nat) (last : Bool) : Buffered := { msg := id, flits := flits, last := last, tries := 0, since := cycle, received := none }
  if n = 0 then [one 0 true] else (below n).map fun k => one 1 (k + 1 == n)

/-- The flits of a message that have not been taken for their first transmission yet: those after the ones taken so far (R400). -/
def LinkEnd.untaken (y : LinkEnd) (id n cycle : Nat) : List Buffered :=
  match y.partly with
  | some p => if p.1 = id then (bufferedFlits id n cycle).drop p.2 else bufferedFlits id n cycle
  | none => bufferedFlits id n cycle

/-- As many flits of a message as the replay buffer has room for are taken for their first transmission and cross; the rest wait for
acknowledgements (R400). -/
def State.takeFlits (s : State) (m e id : Nat) (msg : Msg) (leg : Nat) (rest : List (Nat × Nat × Nat)) : State :=
  let y := (s.module m).end_ e
  let n := flitsOf msg.body
  let l := y.untaken id n s.cycle
  let taken := l.take (max (replaySize - y.flits) (if n = 0 then 1 else 0))
  let all := decide (taken.length = l.length)
  let s := s.modEnd m e fun y => { y with
    ltxf := y.ltxf + taken.foldl (fun n r => n + r.flits) 0
    partly := if all then none else some (id, n - (l.length - taken.length))
    waiting := if all then y.waiting.filter (· != id) else if y.waiting.contains id then y.waiting else id :: y.waiting
    replay := y.replay ++ taken }
  let s := ((s.timeBuffer m).refreshSoon m).judge m e id msg leg rest
  if all then s.pump m e s.cycle else s

/-- An acknowledgement is heard (R400): the flits that it covers leave the replay buffer, and what waits for their room crosses. -/
def State.ackFlits (s : State) (m e id : Nat) : State :=
  let x := s.module m
  let runs : Bool := x.st == .up || x.st == .drain
  let heard (r : Buffered) : Bool := r.msg == id && r.received.any fun c => decide (c ≤ s.cycle)
  let l := (x.end_ e).replay.filter heard
  if !runs || l.isEmpty then s
  else
    let s := (s.modEnd m e fun y => { y with
      lackf := y.lackf + l.foldl (fun n r => n + r.flits) 0
      replay := y.replay.filter fun r => !heard r }).refreshSoon m
    if x.st = .up then s.pump m e (s.cycle + 2) else s.mayDrain m

/-- The crossings of Stolon ports after which a message makes no other one (R407). -/
def maxCrossings : Nat := 3

/-- A message reaches the receiving end of a module, or waits before it (R391, R400, R401). One that would make a fourth Stolon crossing is
discarded at the port (R407). -/
def State.flitsAt (s : State) (m e id : Nat) (msg : Msg) (leg : Nat) (rest : List (Nat × Nat × Nat)) : State :=
  let x := s.module m
  let y := x.end_ e
  let again := y.replay.any fun r => r.msg == id && r.received.isNone
  let first : Bool := y.waiting.head?.all (· == id)
  let more : Bool := !(y.replay.any fun r => r.msg == id) || y.partly.any fun p => p.1 == id
  if portModule ≤ m ∧ e = 0 ∧ maxCrossings ≤ msg.crossed then s.at s.cycle (.messageDiscard id m)
  else match x.st with
    | .up =>
      if first ∧ more ∧ y.flits + (if flitsOf msg.body = 0 then 0 else 1) ≤ replaySize then s.takeFlits m e id msg leg rest
      else if again then s.judge m e id msg leg rest
      else if more then s.waitAt m e id
      else s
    | .drain => if again then s.judge m e id msg leg rest else if more then s.waitAt m e id else s
    | .down => if x.hold then s.waitAt m e id else s.at s.cycle (.messageDiscard id m)
    | _ => if more then s.waitAt m e id else s

/-- FLIT_RECEIVE: a message's flits reach the receiving end of a module, or their acknowledgement their sender (R391, R400, R401). -/
def execFlitReceive (module end_ msg : Nat) (s : State) : Out :=
  ok (
    if 2 ≤ end_ then s.ackFlits module (end_ - 2) msg
    else
      match s.msg msg with
      | none => s
      | some x =>
        match x.route with
        | [] => s
        | (m, e, leg) :: rest => if m ≠ module ∨ e ≠ end_ then s else s.flitsAt m e msg x leg rest)

/-- Whether a module's replay limit is reached (R401): a flit has been replayed 16 times, or has waited more than 2 µs. -/
def State.limitReached (s : State) (m : Nat) : Bool :=
  (below 2).any fun e => ((s.module m).end_ e).replay.any fun r =>
    (decide (replayTries ≤ r.tries) && r.received.isNone) || decide (r.since + replayWait < s.cycle)

/-- The messages of some flits, each once, in their order. -/
def messagesOf (l : List Buffered) : List Nat := (l.map fun r => r.msg).eraseDups

/-- FLIT_REPLAY: a NAK is heard, and the sender replays from the refused flit onward; LRETRY rises (R401). A flit already replayed 16 times
has reached the replay limit. -/
def execFlitReplay (module end_ msg : Nat) (s : State) : Out :=
  ok (
    let x := s.module module
    let runs : Bool := x.st == .up || x.st == .drain
    match (x.end_ end_).replay.find? fun r => r.msg == msg && r.received.isNone with
    | none => s
    | some r =>
      if !runs then s
      else if replayTries ≤ r.tries then s.at s.cycle (.replayLimit module)
      else
        let again (r : Buffered) : Bool := r.received.isNone
        let s := s.modEnd module end_ fun y => { y with
          lretry := y.lretry + 1
          replay := y.replay.map fun r => if again r then { r with tries := r.tries + 1 } else r }
        let cycle := s.cycle + nakTime s.free
        (messagesOf ((x.end_ end_).replay.filter again)).foldl (fun s m => s.at cycle (.flitReceive module end_ m)) (s.draw).2)

/-! ### Holds and trainings (R391, R392) -/

/-- The waiting messages of a module that is UP cross, at each end in their order (R391). -/
def State.resumeTraffic (s : State) (m : Nat) : State := (s.pump m 0 (s.cycle + 2)).pump m 1 (s.cycle + 2)

/-- What the replay buffers of a module hold after a training (R391): what the partner has received is acknowledged again, the rest is
replayed in its order, which raises LRETRY (R401), and the limit of each begins anew. -/
def State.restartBuffers (s : State) (m : Nat) : State :=
  (below 2).foldl (fun s e =>
    let y := (s.module m).end_ e
    let left := y.replay.filter fun r => r.received.isNone
    let s := s.modEnd m e fun y => { y with
      lretry := y.lretry + if left.isEmpty then 0 else 1
      replay := y.replay.map fun r => { r with
        tries := 0
        since := s.cycle
        received := r.received.map fun _ => s.cycle + 2 } }
    let s := if y.replay.isEmpty then s else s.timeBuffer m
    let s := (messagesOf (y.replay.filter fun r => r.received.isSome)).foldl (fun s n => s.at (s.cycle + 2) (ackEvent m e n)) s
    (messagesOf left).foldl (fun s n => s.at (s.cycle + 2) (.flitReceive m e n)) s) s

/-- The waiting messages of a module that is DOWN are discarded (R391). -/
def State.discardWaiting (s : State) (m : Nat) : State :=
  (below 2).foldl (fun s e =>
    let y := (s.module m).end_ e
    let s := s.modEnd m e fun y => { y with
      waiting := []
      partly := none }
    y.waiting.foldl (fun s w => s.at s.cycle (.messageDiscard w m)) s) s

/-- HOLD of a module is set (R391). -/
def State.holdModule (s : State) (m : Nat) : State :=
  let s := s.modEnd m 0 fun y => { y with hold := true }
  if (s.module m).st = .up then (s.modModule m fun x => { x with st := .drain }).mayDrain m else s

/-- MODULE_HOLD: LCTL.HOLD := 1 (R391). -/
def execModuleHold (module : Nat) (s : State) : Out := ok (s.holdModule module)

/-- MODULE_UNHOLD: LCTL.HOLD := 0 (R391, R392). A halted panel's modules stay HELD (R422). -/
def execModuleUnhold (module : Nat) (s : State) : Out :=
  ok (
    if s.sec.haltAll then s
    else
      let s := s.modEnd module 0 fun y => { y with hold := false }
      match (s.module module).st with
      | .drain => (s.modModule module fun x => { x with st := .up }).resumeTraffic module
      | .held => (s.modModule module fun x => { x with st := .up }).resumeTraffic module
      | .down => s.discardWaiting module
      | _ => s)

/-- MODULE_DRAINED: both replay buffers of a draining module are empty: it is HELD (R391). -/
def execModuleDrained (module : Nat) (s : State) : Out :=
  ok (
    let x := s.module module
    if x.st = .drain ∧ (x.end_ 0).replay = [] ∧ (x.end_ 1).replay = [] then s.modModule module fun x => { x with st := .held } else s)

/-- Whether LREMAP serves a training: no lane twice, and at x32 every lane in its half (R392). -/
def remapOk (w : Word) (narrow half : Bool) : Bool :=
  let l := remapLanes w
  l.eraseDups.length == l.length && (!narrow || l.all fun n => decide (32 ≤ n) == half)

/-- Sets RESULT of a module (R390). -/
def State.setResult (s : State) (m r : Nat) : State := s.modEnd m 0 fun y => { y with result := r }

/-- Begins a training: RESULT is 0, and it ends within 6 µs (R391, R393). -/
def State.beginTraining (s : State) (m : Nat) (byLimit : Bool) : State :=
  let s := s.modModule m fun x => { x with
    st := .train
    tryWidth := (x.end_ 0).width
    tryHalf := (x.end_ 0).half
    byLimit := byLimit
    fromDrain := x.st == .drain }
  (((s.setResult m 0).draw).2).at (s.cycle + 1 + Config.serviceTime s.free % 10500) (.trainDone m)

/-- RETRAIN: LCTL.GO: a training at the width, half and lane map given, or RESULT 3 (R391, R392). A halted panel's modules stay HELD (R422). -/
def execRetrain (module end_ : Nat) (s : State) : Out :=
  ok (
    let x := s.module module
    let y := x.end_ end_
    let stands : Bool := x.st == .held || (x.st == .down && x.hold)
    if s.sec.haltAll ∨ stands = false ∨ y.cmd ≠ 1 ∨ remapOk y.lremap y.width y.half = false then s.setResult module 3
    else s.beginTraining module false)

/-- REPLAY_LIMIT: a module that runs and has reached its replay limit enters TRAIN (R401). -/
def execReplayLimit (module : Nat) (s : State) : Out :=
  ok (
    let runs : Bool := (s.module module).st == .up || (s.module module).st == .drain
    if runs && s.limitReached module then s.beginTraining module true else s)

/-- The widths that a training tries in turn, with their halves (R391, R401). -/
def Module.tries (x : Module) : List (Bool × Bool) :=
  if x.byLimit then [(false, false), (true, false), (true, true)] else [(x.tryWidth, x.tryHalf)]

/-- Whether a lane lies within those of a width and half. -/
def inTried (t : Bool × Bool) (lane : Nat) : Bool := !t.1 || decide (32 ≤ lane) == t.2

/-- Whether a module works at a width and half, with the LREMAP entries that lie within the lanes tried (R391, R401): no lane in use fails,
neither a data lane nor a spare that carries one. -/
def lanesOk (fails : BitVec 68) (lremap : Word) (t : Bool × Bool) : Bool :=
  let spared := (below 4).filter fun k => bitAt lremap (16 * k + 15) && inTried t (field lremap (16 * k) 6)
  let carried := spared.map fun k => field lremap (16 * k) 6
  ((below 64).all fun l => !inTried t l || carried.contains l || !bitAt fails l) && spared.all fun k => !bitAt fails (64 + k)

/-- The first width and half that works, of some that are tried in turn. -/
def firstTrained (fails : BitVec 68) (lremap : Word) (l : List (Bool × Bool)) : Option (Bool × Bool) := l.find? (lanesOk fails lremap)

/-- A training that succeeds (R391). One that the replay limit began, and that leaves the module held with flits in its replay buffers, because it
began in DRAIN or the panel has halted, goes back to DRAIN, so that HELD finds the buffers empty (R394). -/
def State.trained (s : State) (m : Nat) (w : Bool × Bool) : State :=
  let x := s.module m
  let s := s.setResult m 1
  let enter (st : LinkSt) : State := s.modModule m fun x => { x with
    st := st
    width := w.1
    half := w.2
    map := (x.end_ 0).lremap }
  let left : Bool := (below 2).any fun e => !((x.end_ e).replay.isEmpty)
  if x.hold = false then ((enter .up).restartBuffers m).resumeTraffic m
  else if x.byLimit && (x.fromDrain || left) then ((enter .drain).restartBuffers m).mayDrain m
  else enter .held

/-- A training that fails: the module is DOWN (R391), or in a halt HELD (R422). What the partner's LRXF covers of a replay buffer counts as
delivered, every message with a flit that it does not cover is discarded, and its flits no longer count as taken, so that the counters agree
again (R394, R403; log 41). What waits, the rest of a message included whose flits so far have all been received, goes on waiting under HOLD, and
is discarded without it (R391, R399). -/
def State.trainFailed (s : State) (m : Nat) : State :=
  let s := (s.setResult m 2).modModule m fun x => { x with st := if s.sec.haltAll then .held else .down }
  let s := (below 2).foldl (fun s e =>
    let y := (s.module m).end_ e
    let n := ((s.module m).end_ (1 - e)).lrxf
    let lost := messagesOf (y.replay.filter fun r => r.received.isNone)
    let s := s.modEnd m e fun y => { y with
      replay := []
      partly := y.partly.filter fun p => !lost.contains p.1
      waiting := y.waiting.filter fun w => !lost.contains w
      ltxf := n
      lackf := n }
    lost.foldl (fun s w => s.at s.cycle (.messageDiscard w m)) s) s
  let s := s.refreshSoon m
  if (s.module m).hold then s else s.discardWaiting m

/-- A training of a Stolon port that succeeds: SPSTAT has the width, 8, 4 or 2 lanes, and the peer, which is outside the panel (R406, R408). -/
def State.portTrained (s : State) (p : Nat) (w : Bool × Bool) : State :=
  let peer := field (Config.freeWord s.free) 0 11
  (((s.draw).2).modPort p fun x => { x with
    stat := setField (setField (setField x.stat 4 2 (bit w.1 + bit w.2)) 16 11 peer) 31 1 1 }).trained (portModule + p) w

/-- The first of some widths at which a Stolon port trains, tried in turn. -/
def firstOf (f : Nat) : List (Bool × Bool) → Option (Bool × Bool)
  | [] => none
  | w :: l => if Config.trainOk f then some w else firstOf (f + 1) l

/-- TRAIN_DONE: a training ends (R391, R408). -/
def execTrainDone (module : Nat) (s : State) : Out :=
  ok (
    let x := s.module module
    if x.st ≠ .train then s
    else if portModule ≤ module then
      let s' := { s with free := s.free + 3 }
      match firstOf s.free x.tries with
      | some w => s'.portTrained (module - portModule) w
      | none => s'.trainFailed module
    else
      let s' := (s.draw).2
      match firstTrained (Config.laneFails s.free) (x.end_ 0).lremap x.tries with
      | some w => s'.trained module w
      | none => s'.trainFailed module)

/-- PARTNER_COPY_REFRESH: the partner's counters and registers are copied (R390). -/
def execPartnerCopyRefresh (module : Nat) (s : State) : Out :=
  ok (s.modModule module fun x =>
    let copy (y p : LinkEnd) : LinkEnd := { y with
      ptxf := p.ltxf
      packf := p.lackf
      prxf := p.lrxf
      perr := p.lerr
      plost := p.llost }
    let a := x.end_ 0
    let b := x.end_ 1
    { x with ends := vecSet (vecSet x.ends 0 (copy a b)) 1 (copy b a) })

/-! ### Loss (R404) -/

/-- Where the far end of a data module lies, for the messages an end of it forms: the relay beyond it, or the die's router at it. -/
def farEnd (m e : Nat) : Nat :=
  let die := m / 72
  let edge := m % 72 / 18
  if e = 0 then
    let (r, c) := dieSite die
    let (r', c') := beyond r c edge
    relayBase + siteIndex r' c'
  else
    let (r, c) := entryRouter edge (2 * (m % 18)) false
    coreAt die r c

/-- A loss notice for a message crosses the module's sideband, in a free time that leaves the whole within 2 µs, and goes on from the far end
toward its destination on the CHN network (R404); for a CHN message, which alone uses the control links, this is the rest of its own route. -/
def State.notice (s : State) (m e : Nat) (msg : Msg) (what : Body) : State :=
  let own : Option Route := match msg.net, msg.route with
    | .chn, (_, _, leg) :: rest => some (leg, rest)
    | _, _ => none
  let wait (k : Nat) : Nat := 1 + Config.serviceTime s.free % (replayWait - k - 5)
  let form (src dst eject : Nat) : Msg :=
    { net := .chn, src := src, dst := dst, body := .loss what, generation := msg.generation, crossed := msg.crossed, due := s.cycle,
      eject := eject, route := [] }
  if isForeign msg.dst then
    match own with
    | some r => (s.draw).2.launch (form (nodePoint msg.src) msg.dst 0) r (wait 0) 0 0
    | none => (s.draw).2.sendOut { form (farEnd m e) msg.dst 0 with crossed := 0 } false (wait 0)
  else
    let r := own.getD (route (farEnd m e) (nodePoint msg.dst) true)
    (s.draw).2.launch { form (nodePoint msg.src) (nodePoint msg.dst) 4 with crossed := 0 } r (wait (Route.cycles r)) 0 0

/-- A loss notice of a message that a Stolon port discards (R404, R406, R407): from a port that is DOWN it travels to the other panel on the
route table's second route; for a fourth crossing it crosses the port itself, as a message that has made none. A notice that is discarded at a
port in its turn is not repeated (log 57). -/
def State.portNotice (s : State) (m : Nat) (msg : Msg) (what : Body) : State :=
  match msg.body with
  | .loss _ => s
  | _ =>
    s.sendOut { net := .chn, src := exitPoint (m - portModule) (nodePoint msg.src), dst := msg.dst, body := .loss what, generation := msg.generation,
                crossed := 0, due := s.cycle, eject := 0, route := [] } ((s.module m).st == .down) 0

/-- A loss notice of a message discarded at an end of a module or at a port (R404). -/
def State.lossNotice (s : State) (m e : Nat) (msg : Msg) (what : Body) : State :=
  if portModule ≤ m then s.portNotice m msg what else s.notice m e msg what

/-- What follows the discard of a message (R404). A PROBE or REPLY counts as received, so that the rounds can agree (log 37). -/
def State.lose (s : State) (m e : Nat) (msg : Msg) : State :=
  let received (s : State) : State :=
    if isForeign msg.dst then s else s.modCore msg.dst fun k => { k with receivedTotal := k.receivedTotal + 1 }
  match msg.body with
  | .dep d => if d.global then s else s.lossNotice m e msg msg.body
  | .receipt _ _ _ _ => if msg.net = .rsp then s else s.lossNotice m e msg msg.body
  | .chan _ _ => s.lossNotice m e msg msg.body
  | .eround _ _ _ _ => s.lossNotice m e msg msg.body
  | .up _ _ _ => s.lossNotice m e msg msg.body
  | .header _ _ _ _ _ _ _ _ _ => s.lossNotice m e msg msg.body
  | .plane _ _ _ _ _ _ _ => s.lossNotice m e msg msg.body
  | .cancel _ _ => s.lossNotice m e msg msg.body
  | .loss b => s.lossNotice m e msg b
  | .probe _ _ _ => received s
  | .reply _ _ _ _ _ _ _ => received s
  | .raise _ _ _ => s
  | .start _ => s
  | .marker _ => s
  | .req _ => s
  | .rsp _ _ => s
  | .hostWrite _ _ _ => s
  | .reserve _ _ _ _ _ _ _ _ _ _ _ => s
  | .commit _ => s
  | .sower _ _ => s
  | .sweep _ _ _ => s

/-- MESSAGE_DISCARD: a message that reaches a DOWN module, or was in its replay buffer, is discarded, and LLOST rises at the discarding end
(R391, R403, R404). -/
def execMessageDiscard (msg module : Nat) (s : State) : Out :=
  ok (match s.msg msg with
    | none => s
    | some x =>
      match x.route with
      | [] => s
      | (m, e, _) :: _ =>
        if m ≠ module then s
        else ((s.drop msg).countLost m e).lose m e x)

/-- The loss of a deposit at its target (R404): chaff reason 8, LOSS on its counter without a raise, and the landing receipt. -/
def State.lostDep (s : State) (c : Nat) (d : Dep) : State :=
  let s := s.chaff d 8 (dieOf c)
  let s := match d.cnt with
    | some n => s.modCounter c n fun k => { k with loss := true }
    | none => s
  s.receipt c d 0

/-- LOSS_NOTICE: a loss notice lands at the destination of what was lost (R404). -/
def execLossNotice (msg : Nat) (s : State) : Out :=
  ok (match s.msg msg with
    | none => s
    | some m =>
      match m.body with
      | .loss what =>
        let s := s.drop msg
        match what with
        | .dep d => s.lostDep m.dst d
        | .receipt slot acc counted kind => s.receiptAt m.dst slot acc counted kind
        | .chan ep _ => (s.modCore m.dst fun k => { k with receivedTotal := k.receivedTotal + 1 }).breakChannel m.dst ep
        | b =>
          match planeOf b with
          | some op => s.faultPlane op
          | none => s
      | _ => s)

/-! ### Stolon ports (R406, R408, R423) -/

/-- STOLON_HOLD: SPCTL.HOLD holds or releases a port's traffic, as LCTL.HOLD does a module's (R391, R408). -/
def execStolonHold (port : Nat) (s : State) : Out :=
  if bitAt (s.port port).ctl 0 then execModuleHold (portModule + port) s else execModuleUnhold (portModule + port) s

/-- STOLON_RETRAIN: SPCTL.GO: a training of an enabled port at the chosen width, or none (R392, R408). -/
def execStolonRetrain (port : Nat) (s : State) : Out :=
  ok (
    let c := (s.port port).ctl
    let m := portModule + port
    let x := s.module m
    let stands : Bool := x.st == .held || (x.st == .down && x.hold)
    if s.sec.haltAll ∨ stands = false ∨ field c 4 2 ≠ 1 ∨ field c 2 2 = 3 ∨ bitAt c 1 = false then s
    else (s.modEnd m 0 fun y => { y with
      width := decide (1 ≤ field c 2 2)
      half := decide (2 ≤ field c 2 2) }).beginTraining m false)

/-- STOLON_ENABLE: a change of EN from 0 to 1: accepted while fewer than 8 were in the last 10^9 counts of D0's clock; refused, EN stays 0
and alarm code 8 is raised (R422, R423). -/
def execStolonEnable (port : Nat) (s : State) : Out :=
  ok (
    let now := (s.clock 0).toNat
    let recent := s.sec.enables.filter fun t => decide (now < t + 1000000000)
    if bitAt (s.port port).ctl 1 then s
    else if recent.length < 8 then
      (s.modSec fun x => { x with enables := recent ++ [now] }).modPort port fun p => { p with ctl := setField p.ctl 1 1 1 }
    else s.alarmLog 8 1)

end Sys2Proof.Machine
end

