-- ==== Sys2Proof/WellFormed.lean ====
section
/-! DEFINITION. What the opcode maps ask of an instruction beyond its fields' widths (R12, R19, R23, R24, R258). -/

namespace Sys2Proof

/-- The conversion codes that `vcvt` accepts (R258, R259). -/
def vcvtCodeLegal (c : BitVec 5) : Bool := decide (c.extractLsb' 0 4 ≤ 4#4)

/-- The group-format codes that `vqnt` accepts (R258, R261). -/
def vqntCodeLegal (c : BitVec 5) : Bool := decide (8#5 ≤ c ∧ c ≤ 12#5)

/-- The group-format codes that `vdeq` accepts (R258, R261). -/
def vdeqCodeLegal (c : BitVec 5) : Bool := decide (8#5 ≤ c ∧ c ≤ 12#5)

/-- A well-formed instruction: a mask destination is m1 to m7 (R12), `vmerge` names a mask (R23), a `pfence` names at least
one path on each side (R19), and a conversion names a legal code (R258). The machine's events have no encoding and are not
well-formed instructions of the word. -/
def Instr.wf : Instr → Bool
  | .illegalInstruction _ => false
  | .wtmoLimit _ _ _ => false
  | .globalLoadData _ => false
  | .storeAck _ => false
  | .homeAccess _ => false
  | .bankGrant _ => false
  | .sfuServiceStart _ => false
  | .sfuResult _ => false
  | .tlbRefill _ _ => false
  | .faultRecordPendingPost _ => false
  | .trapRecordPendingPost _ => false
  | .depositDepart _ _ => false
  | .depositLanding _ => false
  | .postedAtomicLanding _ => false
  | .globalPostedAtomic _ => false
  | .wakeRLanding _ => false
  | .counterRaise _ => false
  | .landingReceipt _ => false
  | .sendRelease _ _ _ => false
  | .offer _ => false
  | .ack _ => false
  | .recv _ => false
  | .withdraw _ => false
  | .withdrawn _ => false
  | .broken _ => false
  | .receiveTimeout _ _ _ => false
  | .probeTimer _ _ _ => false
  | .probe _ => false
  | .reply _ => false
  | .wbarArrivalSignal _ _ _ => false
  | .wbarPhaseRelease _ _ _ => false
  | .mmaStart _ => false
  | .mmaSliceEnd _ => false
  | .mmaComplete _ => false
  | .mloadComplete _ _ => false
  | .drainComplete _ _ => false
  | .amaxUpdate _ _ => false
  | .gleanerEntryStart _ _ => false
  | .gleanerTranslate _ _ => false
  | .gleanerEntryComplete _ _ _ => false
  | .gleanerListEnd _ _ => false
  | .thresherOperationStart _ => false
  | .sourceRead _ _ _ => false
  | .eround _ => false
  | .up _ => false
  | .header _ => false
  | .plane _ => false
  | .planeCounterRaise _ _ => false
  | .cancel _ => false
  | .thresherOperationEnd _ _ => false
  | .thresherFault _ => false
  | .launchAccept _ => false
  | .placementStart => false
  | .sheafLoad _ => false
  | .startWave _ => false
  | .startRelease _ _ => false
  | .sowerSuspend _ => false
  | .sowerResume _ => false
  | .sowerKill _ => false
  | .quiescenceRound _ => false
  | .combineRoundRestart _ => false
  | .retirement _ => false
  | .generationSweep _ => false
  | .flitReceive _ _ _ => false
  | .flitReplay _ _ _ => false
  | .replayLimit _ => false
  | .moduleDrained _ => false
  | .trainDone _ => false
  | .messageDiscard _ _ => false
  | .lossNotice _ => false
  | .accessTimeout _ => false
  | .moduleHold _ => false
  | .moduleUnhold _ => false
  | .retrain _ _ => false
  | .stolonRetrain _ => false
  | .stolonHold _ => false
  | .stolonEnable _ => false
  | .wgdata _ _ _ => false
  | .invAll _ => false
  | .invAsid _ _ => false
  | .invAsidPage _ _ _ => false
  | .invPage _ _ => false
  | .invComplete _ => false
  | .wtrapqPop _ => false
  | .wdmapWrite _ _ => false
  | .wwindata _ _ _ => false
  | .asidEntryWrite _ _ => false
  | .clkoff _ _ => false
  | .clkrate _ _ => false
  | .sqDoorbell _ => false
  | .sqConsume => false
  | .sqCompletion => false
  | .hostMemAccess _ _ _ _ => false
  | .hostWindowWrite _ _ => false
  | .panelReset => false
  | .dieReset _ => false
  | .sigreq => false
  | .mext => false
  | .mextComplete => false
  | .attgo => false
  | .attestComplete => false
  | .pcap _ => false
  | .powerMeasure _ => false
  | .sensorAlarm _ => false
  | .registerWrite _ _ => false
  | .wrsStoTimeout _ _ _ => false
  | .partnerCopyRefresh _ => false
  | .sweepMarkerReturn _ => false
  | .reservationMessage _ => false
  | .lb _ _ _ => true
  | .lh _ _ _ => true
  | .lw _ _ _ => true
  | .ld _ _ _ => true
  | .lbu _ _ _ => true
  | .lhu _ _ _ => true
  | .lwu _ _ _ => true
  | .sb _ _ _ => true
  | .sh _ _ _ => true
  | .sw _ _ _ => true
  | .sd _ _ _ => true
  | .fence _ _ _ => true
  | .fenceI => true
  | .addi _ _ _ => true
  | .slti _ _ _ => true
  | .sltiu _ _ _ => true
  | .xori _ _ _ => true
  | .ori _ _ _ => true
  | .andi _ _ _ => true
  | .slli _ _ _ => true
  | .srli _ _ _ => true
  | .srai _ _ _ => true
  | .auipc _ _ => true
  | .lui _ _ => true
  | .addiw _ _ _ => true
  | .slliw _ _ _ => true
  | .srliw _ _ _ => true
  | .sraiw _ _ _ => true
  | .lrW _ _ _ _ => true
  | .lrD _ _ _ _ => true
  | .scW _ _ _ _ _ => true
  | .scD _ _ _ _ _ => true
  | .amoswapW _ _ _ _ _ => true
  | .amoswapD _ _ _ _ _ => true
  | .amoaddW _ _ _ _ _ => true
  | .amoaddD _ _ _ _ _ => true
  | .amoxorW _ _ _ _ _ => true
  | .amoxorD _ _ _ _ _ => true
  | .amoandW _ _ _ _ _ => true
  | .amoandD _ _ _ _ _ => true
  | .amoorW _ _ _ _ _ => true
  | .amoorD _ _ _ _ _ => true
  | .amominW _ _ _ _ _ => true
  | .amominD _ _ _ _ _ => true
  | .amomaxW _ _ _ _ _ => true
  | .amomaxD _ _ _ _ _ => true
  | .amominuW _ _ _ _ _ => true
  | .amominuD _ _ _ _ _ => true
  | .amomaxuW _ _ _ _ _ => true
  | .amomaxuD _ _ _ _ _ => true
  | .add _ _ _ => true
  | .sub _ _ _ => true
  | .sll _ _ _ => true
  | .slt _ _ _ => true
  | .sltu _ _ _ => true
  | .xor _ _ _ => true
  | .srl _ _ _ => true
  | .sra _ _ _ => true
  | .or _ _ _ => true
  | .and _ _ _ => true
  | .mul _ _ _ => true
  | .mulh _ _ _ => true
  | .mulhsu _ _ _ => true
  | .mulhu _ _ _ => true
  | .div _ _ _ => true
  | .divu _ _ _ => true
  | .rem _ _ _ => true
  | .remu _ _ _ => true
  | .addw _ _ _ => true
  | .subw _ _ _ => true
  | .sllw _ _ _ => true
  | .srlw _ _ _ => true
  | .sraw _ _ _ => true
  | .mulw _ _ _ => true
  | .divw _ _ _ => true
  | .divuw _ _ _ => true
  | .remw _ _ _ => true
  | .remuw _ _ _ => true
  | .beq _ _ _ => true
  | .bne _ _ _ => true
  | .blt _ _ _ => true
  | .bge _ _ _ => true
  | .bltu _ _ _ => true
  | .bgeu _ _ _ => true
  | .jalr _ _ _ => true
  | .jal _ _ => true
  | .ecall => true
  | .ebreak => true
  | .sret => true
  | .mret => true
  | .wfi => true
  | .wrsNto => true
  | .wrsSto => true
  | .sfenceVma _ _ => true
  | .csrrw _ _ _ => true
  | .csrrs _ _ _ => true
  | .csrrc _ _ _ => true
  | .csrrwi _ _ _ => true
  | .csrrsi _ _ _ => true
  | .csrrci _ _ _ => true
  | .park => true
  | .wake _ => true
  | .wakeR _ => true
  | .pfence _ pred succ => pred != 0#5 && succ != 0#5
  | .stop => true
  | .feEmpty _ => true
  | .feTest _ _ => true
  | .feWait _ => true
  | .dsb _ _ _ => true
  | .dsh _ _ _ => true
  | .dsw _ _ _ => true
  | .dsd _ _ _ => true
  | .dsv _ _ _ => true
  | .daddW _ _ _ => true
  | .daddD _ _ _ => true
  | .dmaxW _ _ _ => true
  | .dmaxD _ _ _ => true
  | .dminW _ _ _ => true
  | .dminD _ _ _ => true
  | .dmaxuW _ _ _ => true
  | .dmaxuD _ _ _ => true
  | .dandW _ _ _ => true
  | .dandD _ _ _ => true
  | .dorW _ _ _ => true
  | .dorD _ _ _ => true
  | .dxorW _ _ _ => true
  | .dxorD _ _ _ => true
  | .cntSet _ _ => true
  | .cntAdd _ _ => true
  | .cntRd _ _ => true
  | .cntWait _ _ => true
  | .cntPoll _ _ => true
  | .cntMode _ _ => true
  | .chs _ _ => true
  | .chsv _ _ => true
  | .chr _ _ => true
  | .chrv _ _ => true
  | .altOn _ _ => true
  | .altOff _ => true
  | .altWait _ _ _ => true
  | .altClr => true
  | .chprobe _ _ => true
  | .wbarA _ => true
  | .wbarW _ _ => true
  | .grpPut _ _ => true
  | .grpGet _ _ => true
  | .mmaFp8 _ _ _ _ => true
  | .mmaBf16 _ _ _ _ => true
  | .mmaFp16 _ _ _ _ => true
  | .mmaMxf8 _ _ _ _ => true
  | .mmaMxf4 _ _ _ _ => true
  | .mmaDxb8 _ _ _ _ => true
  | .mmaDxb4 _ _ _ _ => true
  | .mmaI8 _ _ _ _ => true
  | .macq _ => true
  | .mrel _ => true
  | .mzero _ => true
  | .mload _ _ => true
  | .mdrain _ _ _ _ => true
  | .mdrainD _ _ _ _ => true
  | .mdrainQ _ _ _ _ => true
  | .ceGo _ _ => true
  | .ceWait _ _ => true
  | .ceStat _ _ => true
  | .ceAbort _ _ => true
  | .plGo _ _ => true
  | .plWait _ _ => true
  | .plCancel _ _ => true
  | .plStat _ _ => true
  | .sow _ _ => true
  | .sstop _ _ => true
  | .sresume _ _ => true
  | .skill _ _ => true
  | .ssave _ _ _ => true
  | .sload _ _ _ => true
  | .vaddVv _ _ _ _ => true
  | .vaddVx _ _ _ _ => true
  | .vsubVv _ _ _ _ => true
  | .vsubVx _ _ _ _ => true
  | .vmulVv _ _ _ _ => true
  | .vmulVx _ _ _ _ => true
  | .vmulhVv _ _ _ _ => true
  | .vmulhVx _ _ _ _ => true
  | .vminVv _ _ _ _ => true
  | .vminVx _ _ _ _ => true
  | .vmaxVv _ _ _ _ => true
  | .vmaxVx _ _ _ _ => true
  | .vminuVv _ _ _ _ => true
  | .vminuVx _ _ _ _ => true
  | .vmaxuVv _ _ _ _ => true
  | .vmaxuVx _ _ _ _ => true
  | .vsaddVv _ _ _ _ => true
  | .vsaddVx _ _ _ _ => true
  | .vssubVv _ _ _ _ => true
  | .vssubVx _ _ _ _ => true
  | .vmaccVv _ _ _ _ => true
  | .vmaccVx _ _ _ _ => true
  | .vfaddVv _ _ _ _ => true
  | .vfaddVx _ _ _ _ => true
  | .vfsubVv _ _ _ _ => true
  | .vfsubVx _ _ _ _ => true
  | .vfmulVv _ _ _ _ => true
  | .vfmulVx _ _ _ _ => true
  | .vfminVv _ _ _ _ => true
  | .vfminVx _ _ _ _ => true
  | .vfmaxVv _ _ _ _ => true
  | .vfmaxVx _ _ _ _ => true
  | .vfmaccVv _ _ _ _ => true
  | .vfmaccVx _ _ _ _ => true
  | .vfnmsacVv _ _ _ _ => true
  | .vfnmsacVx _ _ _ _ => true
  | .vmseqVv md _ _ _ => md != 0#3
  | .vmseqVx md _ _ _ => md != 0#3
  | .vmsneVv md _ _ _ => md != 0#3
  | .vmsneVx md _ _ _ => md != 0#3
  | .vmsltVv md _ _ _ => md != 0#3
  | .vmsltVx md _ _ _ => md != 0#3
  | .vmsltuVv md _ _ _ => md != 0#3
  | .vmsltuVx md _ _ _ => md != 0#3
  | .vmfeqVv md _ _ _ => md != 0#3
  | .vmfeqVx md _ _ _ => md != 0#3
  | .vmfltVv md _ _ _ => md != 0#3
  | .vmfltVx md _ _ _ => md != 0#3
  | .vmfleVv md _ _ _ => md != 0#3
  | .vmfleVx md _ _ _ => md != 0#3
  | .vandVv _ _ _ _ => true
  | .vandVx _ _ _ _ => true
  | .vorVv _ _ _ _ => true
  | .vorVx _ _ _ _ => true
  | .vxorVv _ _ _ _ => true
  | .vxorVx _ _ _ _ => true
  | .vsllVv _ _ _ _ => true
  | .vsllVx _ _ _ _ => true
  | .vsrlVv _ _ _ _ => true
  | .vsrlVx _ _ _ _ => true
  | .vsraVv _ _ _ _ => true
  | .vsraVx _ _ _ _ => true
  | .vle _ _ _ => true
  | .vlse _ _ _ _ => true
  | .vlxe _ _ _ _ => true
  | .vse _ _ _ => true
  | .vsse _ _ _ _ => true
  | .vsxe _ _ _ _ => true
  | .vcvt _ _ code _ => vcvtCodeLegal code
  | .vqnt _ _ code => vqntCodeLegal code
  | .vdeq _ _ code => vdeqCodeLegal code
  | .vfcvti _ _ _ => true
  | .vicvtf _ _ _ => true
  | .vexp2 _ _ _ => true
  | .vlog2 _ _ _ => true
  | .vrcp _ _ _ => true
  | .vrsqrt _ _ _ => true
  | .vtanh _ _ _ => true
  | .vredsum _ _ _ => true
  | .vfredsum _ _ _ => true
  | .vredmax _ _ _ => true
  | .vfredmax _ _ _ => true
  | .vfredamax _ _ _ => true
  | .vslideup _ _ _ _ => true
  | .vslidedown _ _ _ _ => true
  | .vgather _ _ _ _ => true
  | .vbcast _ _ _ => true
  | .vext _ _ _ => true
  | .vcompress _ _ _ => true
  | .vmand md _ _ => md != 0#3
  | .vmor md _ _ => md != 0#3
  | .vmnot md _ => md != 0#3
  | .vmpop _ _ => true
  | .vmfirst _ _ => true
  | .vmerge _ _ _ m => m != 0#3
  | .vcfg _ _ => true

/-- `Instr.wf` as a proposition. -/
abbrev Instr.WellFormed (i : Instr) : Prop := i.wf = true

end Sys2Proof
end

