-- ==== Sys2Proof/Decode.lean ====
section
/-! DEFINITION. The decoder, total on every 32-bit word (R9, R15 to R24), and the encoder written from the same tables.
Some definitions here are marked noncomputable for one reason: Lean's compiled code cannot build a value of an inductive type's
constructor past the 245th, and the opcode table has 380 rows. The kernel evaluates them as it does any other; the step has a
compiled form of its own (Sys2Proof/Machine/Compiled.lean). -/

namespace Sys2Proof

/-- Why a word is no instruction. Every reason ends in the one trap of R25. -/
inductive Reject where
  /-- Bits [1:0] are not 11 (R9). -/
  | notInstruction
  /-- Bits [4:2] are 111, RISC-V's longer encodings (R9). -/
  | longForm
  /-- The major opcode is one that R15 marks illegal. -/
  | majorOpcode
  /-- No row of R16, R18, R20, R22 or R23 matches: an unlisted code, or a reserved field not zero (R14). -/
  | noRow
  /-- A row matches, and a field holds a value that R12, R19, R23, R24 or R258 makes illegal. -/
  | illegalField
  deriving DecidableEq, Repr

/-- The six fields every 32-bit word splits into (R10). -/
structure Fields where
  f7 : BitVec 7
  rs2 : BitVec 5
  rs1 : BitVec 5
  f3 : BitVec 3
  rd : BitVec 5
  op : BitVec 7
  deriving DecidableEq, Repr

/-- Splits a word into its fields (R10). -/
def splitWord (w : BitVec 32) : Fields :=
  { f7 := w.extractLsb' 25 7, rs2 := w.extractLsb' 20 5, rs1 := w.extractLsb' 15 5,
    f3 := w.extractLsb' 12 3, rd := w.extractLsb' 7 5, op := w.extractLsb' 0 7 }

/-- Joins the fields into a word (R10). -/
def joinWord (f : Fields) : BitVec 32 := f.f7 ++ f.rs2 ++ f.rs1 ++ f.f3 ++ f.rd ++ f.op

/-- A scope from its 2-bit field (R13). -/
def scopeOf (b : BitVec 2) : Scope :=
  if b = 0#2 then .core else if b = 1#2 then .die else if b = 2#2 then .panel else .domain

/-- The 2-bit field of a scope (R13). -/
def scopeBits : Scope → BitVec 2
  | .core => 0#2
  | .die => 1#2
  | .panel => 2#2
  | .domain => 3#2

/-- The release of a deposit from its L and ss fields: a scope without release is illegal (R19). -/
def relOf (l : BitVec 1) (ss : BitVec 2) : Option (Option Scope) :=
  if l = 1#1 then some (some (scopeOf ss)) else if ss = 0#2 then some none else none

/-- The L bit of a release (R18). -/
def relBit (r : Option Scope) : BitVec 1 := BitVec.ofBool r.isSome

/-- The ss field of a release (R19). -/
def relScopeBits : Option Scope → BitVec 2
  | none => 0#2
  | some s => scopeBits s

/-- The operand of the full/empty instructions from its class and field (R12, R18, R61). -/
def regRefOf (kk : BitVec 2) (r : BitVec 5) : Option RegRef :=
  if kk = 0#2 then some (.x r)
  else if kk = 1#2 then (if r.extractLsb' 4 1 = 0#1 then some (.v (r.extractLsb' 0 4)) else none)
  else if kk = 2#2 then (if r.extractLsb' 3 2 = 0#2 then some (.acc (r.extractLsb' 0 3)) else none)
  else none

/-- The class code kk of a full/empty operand (R18). -/
def regRefClass : RegRef → BitVec 2
  | .x _ => 0#2
  | .v _ => 1#2
  | .acc _ => 2#2

/-- The register field of a full/empty operand (R12). -/
def regRefField : RegRef → BitVec 5
  | .x n => n
  | .v n => 0#1 ++ n
  | .acc n => 0#2 ++ n

/-- LOAD, funct3 000 (R16). -/
def decode_load0 (f7 : BitVec 7) (rs2 rs1 rd : BitVec 5) : Except Reject Instr :=
  .ok (.lb rd rs1 (f7 ++ rs2))

/-- LOAD, funct3 001 (R16). -/
def decode_load1 (f7 : BitVec 7) (rs2 rs1 rd : BitVec 5) : Except Reject Instr :=
  .ok (.lh rd rs1 (f7 ++ rs2))

/-- LOAD, funct3 010 (R16). -/
def decode_load2 (f7 : BitVec 7) (rs2 rs1 rd : BitVec 5) : Except Reject Instr :=
  .ok (.lw rd rs1 (f7 ++ rs2))

/-- LOAD, funct3 011 (R16). -/
def decode_load3 (f7 : BitVec 7) (rs2 rs1 rd : BitVec 5) : Except Reject Instr :=
  .ok (.ld rd rs1 (f7 ++ rs2))

/-- LOAD, funct3 100 (R16). -/
def decode_load4 (f7 : BitVec 7) (rs2 rs1 rd : BitVec 5) : Except Reject Instr :=
  .ok (.lbu rd rs1 (f7 ++ rs2))

/-- LOAD, funct3 101 (R16). -/
def decode_load5 (f7 : BitVec 7) (rs2 rs1 rd : BitVec 5) : Except Reject Instr :=
  .ok (.lhu rd rs1 (f7 ++ rs2))

/-- LOAD, funct3 110 (R16). -/
def decode_load6 (f7 : BitVec 7) (rs2 rs1 rd : BitVec 5) : Except Reject Instr :=
  .ok (.lwu rd rs1 (f7 ++ rs2))

/-- LOAD by funct3 (R16). -/
def decode_load (f : Fields) : Except Reject Instr :=
  if f.f3 = 0#3 then decode_load0 f.f7 f.rs2 f.rs1 f.rd
  else if f.f3 = 1#3 then decode_load1 f.f7 f.rs2 f.rs1 f.rd
  else if f.f3 = 2#3 then decode_load2 f.f7 f.rs2 f.rs1 f.rd
  else if f.f3 = 3#3 then decode_load3 f.f7 f.rs2 f.rs1 f.rd
  else if f.f3 = 4#3 then decode_load4 f.f7 f.rs2 f.rs1 f.rd
  else if f.f3 = 5#3 then decode_load5 f.f7 f.rs2 f.rs1 f.rd
  else if f.f3 = 6#3 then decode_load6 f.f7 f.rs2 f.rs1 f.rd
  else .error .noRow

/-- MISC-MEM, funct3 000 (R16). -/
def decode_miscMem0 (f7 : BitVec 7) (rs2 rs1 rd : BitVec 5) : Except Reject Instr :=
  if f7.extractLsb' 3 3 = 0#3 ∧ rs1 = 0#5 ∧ rd = 0#5 then .ok (.fence (f7.extractLsb' 6 1 == 1#1) (f7.extractLsb' 0 3 ++ rs2.extractLsb' 4 1) (rs2.extractLsb' 0 4))
    else .error .noRow

/-- MISC-MEM, funct3 001 (R16). -/
def decode_miscMem1 (f7 : BitVec 7) (rs2 rs1 rd : BitVec 5) : Except Reject Instr :=
  if f7 = 0#7 ∧ rs2 = 0#5 ∧ rs1 = 0#5 ∧ rd = 0#5 then .ok (.fenceI)
    else .error .noRow

/-- MISC-MEM by funct3 (R16). -/
def decode_miscMem (f : Fields) : Except Reject Instr :=
  if f.f3 = 0#3 then decode_miscMem0 f.f7 f.rs2 f.rs1 f.rd
  else if f.f3 = 1#3 then decode_miscMem1 f.f7 f.rs2 f.rs1 f.rd
  else .error .noRow

/-- OP-IMM, funct3 000 (R16). -/
def decode_opImm0 (f7 : BitVec 7) (rs2 rs1 rd : BitVec 5) : Except Reject Instr :=
  .ok (.addi rd rs1 (f7 ++ rs2))

/-- OP-IMM, funct3 001 (R16). -/
def decode_opImm1 (f7 : BitVec 7) (rs2 rs1 rd : BitVec 5) : Except Reject Instr :=
  if f7.extractLsb' 1 6 = 0#6 then .ok (.slli rd rs1 (f7.extractLsb' 0 1 ++ rs2))
    else .error .noRow

/-- OP-IMM, funct3 010 (R16). -/
def decode_opImm2 (f7 : BitVec 7) (rs2 rs1 rd : BitVec 5) : Except Reject Instr :=
  .ok (.slti rd rs1 (f7 ++ rs2))

/-- OP-IMM, funct3 011 (R16). -/
def decode_opImm3 (f7 : BitVec 7) (rs2 rs1 rd : BitVec 5) : Except Reject Instr :=
  .ok (.sltiu rd rs1 (f7 ++ rs2))

/-- OP-IMM, funct3 100 (R16). -/
def decode_opImm4 (f7 : BitVec 7) (rs2 rs1 rd : BitVec 5) : Except Reject Instr :=
  .ok (.xori rd rs1 (f7 ++ rs2))

/-- OP-IMM, funct3 101 (R16). -/
def decode_opImm5 (f7 : BitVec 7) (rs2 rs1 rd : BitVec 5) : Except Reject Instr :=
  if f7.extractLsb' 1 6 = 0#6 then .ok (.srli rd rs1 (f7.extractLsb' 0 1 ++ rs2))
    else if f7.extractLsb' 1 6 = 16#6 then .ok (.srai rd rs1 (f7.extractLsb' 0 1 ++ rs2))
    else .error .noRow

/-- OP-IMM, funct3 110 (R16). -/
def decode_opImm6 (f7 : BitVec 7) (rs2 rs1 rd : BitVec 5) : Except Reject Instr :=
  .ok (.ori rd rs1 (f7 ++ rs2))

/-- OP-IMM, funct3 111 (R16). -/
def decode_opImm7 (f7 : BitVec 7) (rs2 rs1 rd : BitVec 5) : Except Reject Instr :=
  .ok (.andi rd rs1 (f7 ++ rs2))

/-- OP-IMM by funct3 (R16). -/
def decode_opImm (f : Fields) : Except Reject Instr :=
  if f.f3 = 0#3 then decode_opImm0 f.f7 f.rs2 f.rs1 f.rd
  else if f.f3 = 1#3 then decode_opImm1 f.f7 f.rs2 f.rs1 f.rd
  else if f.f3 = 2#3 then decode_opImm2 f.f7 f.rs2 f.rs1 f.rd
  else if f.f3 = 3#3 then decode_opImm3 f.f7 f.rs2 f.rs1 f.rd
  else if f.f3 = 4#3 then decode_opImm4 f.f7 f.rs2 f.rs1 f.rd
  else if f.f3 = 5#3 then decode_opImm5 f.f7 f.rs2 f.rs1 f.rd
  else if f.f3 = 6#3 then decode_opImm6 f.f7 f.rs2 f.rs1 f.rd
  else if f.f3 = 7#3 then decode_opImm7 f.f7 f.rs2 f.rs1 f.rd
  else .error .noRow

/-- AUIPC (R16). -/
def decode_auipcOp (f : Fields) : Except Reject Instr :=
  let ⟨f7, rs2, rs1, f3, rd, _⟩ := f
  .ok (.auipc rd (f7 ++ rs2 ++ rs1 ++ f3))

/-- LUI (R16). -/
def decode_luiOp (f : Fields) : Except Reject Instr :=
  let ⟨f7, rs2, rs1, f3, rd, _⟩ := f
  .ok (.lui rd (f7 ++ rs2 ++ rs1 ++ f3))

/-- OP-IMM-32, funct3 000 (R16). -/
def decode_opImm320 (f7 : BitVec 7) (rs2 rs1 rd : BitVec 5) : Except Reject Instr :=
  .ok (.addiw rd rs1 (f7 ++ rs2))

/-- OP-IMM-32, funct3 001 (R16). -/
def decode_opImm321 (f7 : BitVec 7) (rs2 rs1 rd : BitVec 5) : Except Reject Instr :=
  if f7 = 0#7 then .ok (.slliw rd rs1 rs2)
    else .error .noRow

/-- OP-IMM-32, funct3 101 (R16). -/
def decode_opImm325 (f7 : BitVec 7) (rs2 rs1 rd : BitVec 5) : Except Reject Instr :=
  if f7 = 0#7 then .ok (.srliw rd rs1 rs2)
    else if f7 = 32#7 then .ok (.sraiw rd rs1 rs2)
    else .error .noRow

/-- OP-IMM-32 by funct3 (R16). -/
def decode_opImm32 (f : Fields) : Except Reject Instr :=
  if f.f3 = 0#3 then decode_opImm320 f.f7 f.rs2 f.rs1 f.rd
  else if f.f3 = 1#3 then decode_opImm321 f.f7 f.rs2 f.rs1 f.rd
  else if f.f3 = 5#3 then decode_opImm325 f.f7 f.rs2 f.rs1 f.rd
  else .error .noRow

/-- STORE, funct3 000 (R16). -/
def decode_store0 (f7 : BitVec 7) (rs2 rs1 rd : BitVec 5) : Except Reject Instr :=
  .ok (.sb rs1 rs2 (f7 ++ rd))

/-- STORE, funct3 001 (R16). -/
def decode_store1 (f7 : BitVec 7) (rs2 rs1 rd : BitVec 5) : Except Reject Instr :=
  .ok (.sh rs1 rs2 (f7 ++ rd))

/-- STORE, funct3 010 (R16). -/
def decode_store2 (f7 : BitVec 7) (rs2 rs1 rd : BitVec 5) : Except Reject Instr :=
  .ok (.sw rs1 rs2 (f7 ++ rd))

/-- STORE, funct3 011 (R16). -/
def decode_store3 (f7 : BitVec 7) (rs2 rs1 rd : BitVec 5) : Except Reject Instr :=
  .ok (.sd rs1 rs2 (f7 ++ rd))

/-- STORE by funct3 (R16). -/
def decode_store (f : Fields) : Except Reject Instr :=
  if f.f3 = 0#3 then decode_store0 f.f7 f.rs2 f.rs1 f.rd
  else if f.f3 = 1#3 then decode_store1 f.f7 f.rs2 f.rs1 f.rd
  else if f.f3 = 2#3 then decode_store2 f.f7 f.rs2 f.rs1 f.rd
  else if f.f3 = 3#3 then decode_store3 f.f7 f.rs2 f.rs1 f.rd
  else .error .noRow

/-- AMO, funct3 010 (R16). -/
def decode_amo2 (f7 : BitVec 7) (rs2 rs1 rd : BitVec 5) : Except Reject Instr :=
  if f7.extractLsb' 2 5 = 2#5 ∧ rs2 = 0#5 then .ok (.lrW rd rs1 ((f7.extractLsb' 1 1) == 1#1) ((f7.extractLsb' 0 1) == 1#1))
    else if f7.extractLsb' 2 5 = 3#5 then .ok (.scW rd rs1 rs2 ((f7.extractLsb' 1 1) == 1#1) ((f7.extractLsb' 0 1) == 1#1))
    else if f7.extractLsb' 2 5 = 1#5 then .ok (.amoswapW rd rs1 rs2 ((f7.extractLsb' 1 1) == 1#1) ((f7.extractLsb' 0 1) == 1#1))
    else if f7.extractLsb' 2 5 = 0#5 then .ok (.amoaddW rd rs1 rs2 ((f7.extractLsb' 1 1) == 1#1) ((f7.extractLsb' 0 1) == 1#1))
    else if f7.extractLsb' 2 5 = 4#5 then .ok (.amoxorW rd rs1 rs2 ((f7.extractLsb' 1 1) == 1#1) ((f7.extractLsb' 0 1) == 1#1))
    else if f7.extractLsb' 2 5 = 12#5 then .ok (.amoandW rd rs1 rs2 ((f7.extractLsb' 1 1) == 1#1) ((f7.extractLsb' 0 1) == 1#1))
    else if f7.extractLsb' 2 5 = 8#5 then .ok (.amoorW rd rs1 rs2 ((f7.extractLsb' 1 1) == 1#1) ((f7.extractLsb' 0 1) == 1#1))
    else if f7.extractLsb' 2 5 = 16#5 then .ok (.amominW rd rs1 rs2 ((f7.extractLsb' 1 1) == 1#1) ((f7.extractLsb' 0 1) == 1#1))
    else if f7.extractLsb' 2 5 = 20#5 then .ok (.amomaxW rd rs1 rs2 ((f7.extractLsb' 1 1) == 1#1) ((f7.extractLsb' 0 1) == 1#1))
    else if f7.extractLsb' 2 5 = 24#5 then .ok (.amominuW rd rs1 rs2 ((f7.extractLsb' 1 1) == 1#1) ((f7.extractLsb' 0 1) == 1#1))
    else if f7.extractLsb' 2 5 = 28#5 then .ok (.amomaxuW rd rs1 rs2 ((f7.extractLsb' 1 1) == 1#1) ((f7.extractLsb' 0 1) == 1#1))
    else .error .noRow

/-- AMO, funct3 011 (R16). -/
def decode_amo3 (f7 : BitVec 7) (rs2 rs1 rd : BitVec 5) : Except Reject Instr :=
  if f7.extractLsb' 2 5 = 2#5 ∧ rs2 = 0#5 then .ok (.lrD rd rs1 ((f7.extractLsb' 1 1) == 1#1) ((f7.extractLsb' 0 1) == 1#1))
    else if f7.extractLsb' 2 5 = 3#5 then .ok (.scD rd rs1 rs2 ((f7.extractLsb' 1 1) == 1#1) ((f7.extractLsb' 0 1) == 1#1))
    else if f7.extractLsb' 2 5 = 1#5 then .ok (.amoswapD rd rs1 rs2 ((f7.extractLsb' 1 1) == 1#1) ((f7.extractLsb' 0 1) == 1#1))
    else if f7.extractLsb' 2 5 = 0#5 then .ok (.amoaddD rd rs1 rs2 ((f7.extractLsb' 1 1) == 1#1) ((f7.extractLsb' 0 1) == 1#1))
    else if f7.extractLsb' 2 5 = 4#5 then .ok (.amoxorD rd rs1 rs2 ((f7.extractLsb' 1 1) == 1#1) ((f7.extractLsb' 0 1) == 1#1))
    else if f7.extractLsb' 2 5 = 12#5 then .ok (.amoandD rd rs1 rs2 ((f7.extractLsb' 1 1) == 1#1) ((f7.extractLsb' 0 1) == 1#1))
    else if f7.extractLsb' 2 5 = 8#5 then .ok (.amoorD rd rs1 rs2 ((f7.extractLsb' 1 1) == 1#1) ((f7.extractLsb' 0 1) == 1#1))
    else if f7.extractLsb' 2 5 = 16#5 then .ok (.amominD rd rs1 rs2 ((f7.extractLsb' 1 1) == 1#1) ((f7.extractLsb' 0 1) == 1#1))
    else if f7.extractLsb' 2 5 = 20#5 then .ok (.amomaxD rd rs1 rs2 ((f7.extractLsb' 1 1) == 1#1) ((f7.extractLsb' 0 1) == 1#1))
    else if f7.extractLsb' 2 5 = 24#5 then .ok (.amominuD rd rs1 rs2 ((f7.extractLsb' 1 1) == 1#1) ((f7.extractLsb' 0 1) == 1#1))
    else if f7.extractLsb' 2 5 = 28#5 then .ok (.amomaxuD rd rs1 rs2 ((f7.extractLsb' 1 1) == 1#1) ((f7.extractLsb' 0 1) == 1#1))
    else .error .noRow

/-- AMO by funct3 (R16). -/
def decode_amo (f : Fields) : Except Reject Instr :=
  if f.f3 = 2#3 then decode_amo2 f.f7 f.rs2 f.rs1 f.rd
  else if f.f3 = 3#3 then decode_amo3 f.f7 f.rs2 f.rs1 f.rd
  else .error .noRow

/-- OP, funct3 000 (R16). -/
def decode_op0 (f7 : BitVec 7) (rs2 rs1 rd : BitVec 5) : Except Reject Instr :=
  if f7 = 0#7 then .ok (.add rd rs1 rs2)
    else if f7 = 32#7 then .ok (.sub rd rs1 rs2)
    else if f7 = 1#7 then .ok (.mul rd rs1 rs2)
    else .error .noRow

/-- OP, funct3 001 (R16). -/
def decode_op1 (f7 : BitVec 7) (rs2 rs1 rd : BitVec 5) : Except Reject Instr :=
  if f7 = 0#7 then .ok (.sll rd rs1 rs2)
    else if f7 = 1#7 then .ok (.mulh rd rs1 rs2)
    else .error .noRow

/-- OP, funct3 010 (R16). -/
def decode_op2 (f7 : BitVec 7) (rs2 rs1 rd : BitVec 5) : Except Reject Instr :=
  if f7 = 0#7 then .ok (.slt rd rs1 rs2)
    else if f7 = 1#7 then .ok (.mulhsu rd rs1 rs2)
    else .error .noRow

/-- OP, funct3 011 (R16). -/
def decode_op3 (f7 : BitVec 7) (rs2 rs1 rd : BitVec 5) : Except Reject Instr :=
  if f7 = 0#7 then .ok (.sltu rd rs1 rs2)
    else if f7 = 1#7 then .ok (.mulhu rd rs1 rs2)
    else .error .noRow

/-- OP, funct3 100 (R16). -/
def decode_op4 (f7 : BitVec 7) (rs2 rs1 rd : BitVec 5) : Except Reject Instr :=
  if f7 = 0#7 then .ok (.xor rd rs1 rs2)
    else if f7 = 1#7 then .ok (.div rd rs1 rs2)
    else .error .noRow

/-- OP, funct3 101 (R16). -/
def decode_op5 (f7 : BitVec 7) (rs2 rs1 rd : BitVec 5) : Except Reject Instr :=
  if f7 = 0#7 then .ok (.srl rd rs1 rs2)
    else if f7 = 32#7 then .ok (.sra rd rs1 rs2)
    else if f7 = 1#7 then .ok (.divu rd rs1 rs2)
    else .error .noRow

/-- OP, funct3 110 (R16). -/
def decode_op6 (f7 : BitVec 7) (rs2 rs1 rd : BitVec 5) : Except Reject Instr :=
  if f7 = 0#7 then .ok (.or rd rs1 rs2)
    else if f7 = 1#7 then .ok (.rem rd rs1 rs2)
    else .error .noRow

/-- OP, funct3 111 (R16). -/
def decode_op7 (f7 : BitVec 7) (rs2 rs1 rd : BitVec 5) : Except Reject Instr :=
  if f7 = 0#7 then .ok (.and rd rs1 rs2)
    else if f7 = 1#7 then .ok (.remu rd rs1 rs2)
    else .error .noRow

/-- OP by funct3 (R16). -/
def decode_op (f : Fields) : Except Reject Instr :=
  if f.f3 = 0#3 then decode_op0 f.f7 f.rs2 f.rs1 f.rd
  else if f.f3 = 1#3 then decode_op1 f.f7 f.rs2 f.rs1 f.rd
  else if f.f3 = 2#3 then decode_op2 f.f7 f.rs2 f.rs1 f.rd
  else if f.f3 = 3#3 then decode_op3 f.f7 f.rs2 f.rs1 f.rd
  else if f.f3 = 4#3 then decode_op4 f.f7 f.rs2 f.rs1 f.rd
  else if f.f3 = 5#3 then decode_op5 f.f7 f.rs2 f.rs1 f.rd
  else if f.f3 = 6#3 then decode_op6 f.f7 f.rs2 f.rs1 f.rd
  else if f.f3 = 7#3 then decode_op7 f.f7 f.rs2 f.rs1 f.rd
  else .error .noRow

/-- OP-32, funct3 000 (R16). -/
def decode_op320 (f7 : BitVec 7) (rs2 rs1 rd : BitVec 5) : Except Reject Instr :=
  if f7 = 0#7 then .ok (.addw rd rs1 rs2)
    else if f7 = 32#7 then .ok (.subw rd rs1 rs2)
    else if f7 = 1#7 then .ok (.mulw rd rs1 rs2)
    else .error .noRow

/-- OP-32, funct3 001 (R16). -/
def decode_op321 (f7 : BitVec 7) (rs2 rs1 rd : BitVec 5) : Except Reject Instr :=
  if f7 = 0#7 then .ok (.sllw rd rs1 rs2)
    else .error .noRow

/-- OP-32, funct3 100 (R16). -/
def decode_op324 (f7 : BitVec 7) (rs2 rs1 rd : BitVec 5) : Except Reject Instr :=
  if f7 = 1#7 then .ok (.divw rd rs1 rs2)
    else .error .noRow

/-- OP-32, funct3 101 (R16). -/
def decode_op325 (f7 : BitVec 7) (rs2 rs1 rd : BitVec 5) : Except Reject Instr :=
  if f7 = 0#7 then .ok (.srlw rd rs1 rs2)
    else if f7 = 32#7 then .ok (.sraw rd rs1 rs2)
    else if f7 = 1#7 then .ok (.divuw rd rs1 rs2)
    else .error .noRow

/-- OP-32, funct3 110 (R16). -/
def decode_op326 (f7 : BitVec 7) (rs2 rs1 rd : BitVec 5) : Except Reject Instr :=
  if f7 = 1#7 then .ok (.remw rd rs1 rs2)
    else .error .noRow

/-- OP-32, funct3 111 (R16). -/
def decode_op327 (f7 : BitVec 7) (rs2 rs1 rd : BitVec 5) : Except Reject Instr :=
  if f7 = 1#7 then .ok (.remuw rd rs1 rs2)
    else .error .noRow

/-- OP-32 by funct3 (R16). -/
def decode_op32 (f : Fields) : Except Reject Instr :=
  if f.f3 = 0#3 then decode_op320 f.f7 f.rs2 f.rs1 f.rd
  else if f.f3 = 1#3 then decode_op321 f.f7 f.rs2 f.rs1 f.rd
  else if f.f3 = 4#3 then decode_op324 f.f7 f.rs2 f.rs1 f.rd
  else if f.f3 = 5#3 then decode_op325 f.f7 f.rs2 f.rs1 f.rd
  else if f.f3 = 6#3 then decode_op326 f.f7 f.rs2 f.rs1 f.rd
  else if f.f3 = 7#3 then decode_op327 f.f7 f.rs2 f.rs1 f.rd
  else .error .noRow

/-- BRANCH, funct3 000 (R16). -/
def decode_branch0 (f7 : BitVec 7) (rs2 rs1 rd : BitVec 5) : Except Reject Instr :=
  .ok (.beq rs1 rs2 (f7.extractLsb' 6 1 ++ rd.extractLsb' 0 1 ++ f7.extractLsb' 0 6 ++ rd.extractLsb' 1 4))

/-- BRANCH, funct3 001 (R16). -/
def decode_branch1 (f7 : BitVec 7) (rs2 rs1 rd : BitVec 5) : Except Reject Instr :=
  .ok (.bne rs1 rs2 (f7.extractLsb' 6 1 ++ rd.extractLsb' 0 1 ++ f7.extractLsb' 0 6 ++ rd.extractLsb' 1 4))

/-- BRANCH, funct3 100 (R16). -/
def decode_branch4 (f7 : BitVec 7) (rs2 rs1 rd : BitVec 5) : Except Reject Instr :=
  .ok (.blt rs1 rs2 (f7.extractLsb' 6 1 ++ rd.extractLsb' 0 1 ++ f7.extractLsb' 0 6 ++ rd.extractLsb' 1 4))

/-- BRANCH, funct3 101 (R16). -/
def decode_branch5 (f7 : BitVec 7) (rs2 rs1 rd : BitVec 5) : Except Reject Instr :=
  .ok (.bge rs1 rs2 (f7.extractLsb' 6 1 ++ rd.extractLsb' 0 1 ++ f7.extractLsb' 0 6 ++ rd.extractLsb' 1 4))

/-- BRANCH, funct3 110 (R16). -/
def decode_branch6 (f7 : BitVec 7) (rs2 rs1 rd : BitVec 5) : Except Reject Instr :=
  .ok (.bltu rs1 rs2 (f7.extractLsb' 6 1 ++ rd.extractLsb' 0 1 ++ f7.extractLsb' 0 6 ++ rd.extractLsb' 1 4))

/-- BRANCH, funct3 111 (R16). -/
def decode_branch7 (f7 : BitVec 7) (rs2 rs1 rd : BitVec 5) : Except Reject Instr :=
  .ok (.bgeu rs1 rs2 (f7.extractLsb' 6 1 ++ rd.extractLsb' 0 1 ++ f7.extractLsb' 0 6 ++ rd.extractLsb' 1 4))

/-- BRANCH by funct3 (R16). -/
def decode_branch (f : Fields) : Except Reject Instr :=
  if f.f3 = 0#3 then decode_branch0 f.f7 f.rs2 f.rs1 f.rd
  else if f.f3 = 1#3 then decode_branch1 f.f7 f.rs2 f.rs1 f.rd
  else if f.f3 = 4#3 then decode_branch4 f.f7 f.rs2 f.rs1 f.rd
  else if f.f3 = 5#3 then decode_branch5 f.f7 f.rs2 f.rs1 f.rd
  else if f.f3 = 6#3 then decode_branch6 f.f7 f.rs2 f.rs1 f.rd
  else if f.f3 = 7#3 then decode_branch7 f.f7 f.rs2 f.rs1 f.rd
  else .error .noRow

/-- JALR, funct3 000 (R16). -/
def decode_jalrOp0 (f7 : BitVec 7) (rs2 rs1 rd : BitVec 5) : Except Reject Instr :=
  .ok (.jalr rd rs1 (f7 ++ rs2))

/-- JALR by funct3 (R16). -/
def decode_jalrOp (f : Fields) : Except Reject Instr :=
  if f.f3 = 0#3 then decode_jalrOp0 f.f7 f.rs2 f.rs1 f.rd
  else .error .noRow

/-- JAL (R16). -/
def decode_jalOp (f : Fields) : Except Reject Instr :=
  let ⟨f7, rs2, rs1, f3, rd, _⟩ := f
  .ok (.jal rd (f7.extractLsb' 6 1 ++ rs1 ++ f3 ++ rs2.extractLsb' 0 1 ++ f7.extractLsb' 0 6 ++ rs2.extractLsb' 1 4))

/-- SYSTEM, funct3 000 (R16). -/
def decode_system0 (f7 : BitVec 7) (rs2 rs1 rd : BitVec 5) : Except Reject Instr :=
  if f7 = 0#7 ∧ rs2 = 0#5 ∧ rs1 = 0#5 ∧ rd = 0#5 then .ok (.ecall)
    else if f7 = 0#7 ∧ rs2 = 1#5 ∧ rs1 = 0#5 ∧ rd = 0#5 then .ok (.ebreak)
    else if f7 = 8#7 ∧ rs2 = 2#5 ∧ rs1 = 0#5 ∧ rd = 0#5 then .ok (.sret)
    else if f7 = 24#7 ∧ rs2 = 2#5 ∧ rs1 = 0#5 ∧ rd = 0#5 then .ok (.mret)
    else if f7 = 8#7 ∧ rs2 = 5#5 ∧ rs1 = 0#5 ∧ rd = 0#5 then .ok (.wfi)
    else if f7 = 0#7 ∧ rs2 = 13#5 ∧ rs1 = 0#5 ∧ rd = 0#5 then .ok (.wrsNto)
    else if f7 = 0#7 ∧ rs2 = 29#5 ∧ rs1 = 0#5 ∧ rd = 0#5 then .ok (.wrsSto)
    else if f7 = 9#7 ∧ rd = 0#5 then .ok (.sfenceVma rs1 rs2)
    else .error .noRow

/-- SYSTEM, funct3 001 (R16). -/
def decode_system1 (f7 : BitVec 7) (rs2 rs1 rd : BitVec 5) : Except Reject Instr :=
  .ok (.csrrw rd rs1 (f7 ++ rs2))

/-- SYSTEM, funct3 010 (R16). -/
def decode_system2 (f7 : BitVec 7) (rs2 rs1 rd : BitVec 5) : Except Reject Instr :=
  .ok (.csrrs rd rs1 (f7 ++ rs2))

/-- SYSTEM, funct3 011 (R16). -/
def decode_system3 (f7 : BitVec 7) (rs2 rs1 rd : BitVec 5) : Except Reject Instr :=
  .ok (.csrrc rd rs1 (f7 ++ rs2))

/-- SYSTEM, funct3 101 (R16). -/
def decode_system5 (f7 : BitVec 7) (rs2 rs1 rd : BitVec 5) : Except Reject Instr :=
  .ok (.csrrwi rd rs1 (f7 ++ rs2))

/-- SYSTEM, funct3 110 (R16). -/
def decode_system6 (f7 : BitVec 7) (rs2 rs1 rd : BitVec 5) : Except Reject Instr :=
  .ok (.csrrsi rd rs1 (f7 ++ rs2))

/-- SYSTEM, funct3 111 (R16). -/
def decode_system7 (f7 : BitVec 7) (rs2 rs1 rd : BitVec 5) : Except Reject Instr :=
  .ok (.csrrci rd rs1 (f7 ++ rs2))

/-- SYSTEM by funct3 (R16). -/
def decode_system (f : Fields) : Except Reject Instr :=
  if f.f3 = 0#3 then decode_system0 f.f7 f.rs2 f.rs1 f.rd
  else if f.f3 = 1#3 then decode_system1 f.f7 f.rs2 f.rs1 f.rd
  else if f.f3 = 2#3 then decode_system2 f.f7 f.rs2 f.rs1 f.rd
  else if f.f3 = 3#3 then decode_system3 f.f7 f.rs2 f.rs1 f.rd
  else if f.f3 = 5#3 then decode_system5 f.f7 f.rs2 f.rs1 f.rd
  else if f.f3 = 6#3 then decode_system6 f.f7 f.rs2 f.rs1 f.rd
  else if f.f3 = 7#3 then decode_system7 f.f7 f.rs2 f.rs1 f.rd
  else .error .noRow

/-- custom-0, funct3 000 (R18, R19). -/
def decode_custom00 (f7 : BitVec 7) (rs2 rs1 rd : BitVec 5) : Except Reject Instr :=
  if f7 = 0#7 ∧ rs2 = 0#5 ∧ rs1 = 0#5 ∧ rd = 0#5 then .ok (.park)
    else if f7 = 8#7 ∧ rs2 = 0#5 ∧ rd = 0#5 then .ok (.wake rs1)
    else if f7 = 16#7 ∧ rs2 = 0#5 ∧ rd = 0#5 then .ok (.wakeR rs1)
    else if f7.extractLsb' 2 5 = 6#5 ∧ rd = 0#5 then .ok (.pfence (scopeOf (f7.extractLsb' 0 2)) rs1 rs2)
    else if f7 = 32#7 ∧ rs2 = 0#5 ∧ rs1 = 0#5 ∧ rd = 0#5 then .ok (.stop)
    else .error .noRow

/-- custom-0, funct3 001 (R18, R19). -/
def decode_custom01 (f7 : BitVec 7) (rs2 rs1 rd : BitVec 5) : Except Reject Instr :=
  if f7.extractLsb' 2 5 = 0#5 ∧ rs2 = 0#5 ∧ rd = 0#5 then (match regRefOf (f7.extractLsb' 0 2) rs1 with | some reg => .ok (.feEmpty reg) | none => .error .illegalField)
    else if f7.extractLsb' 2 5 = 2#5 ∧ rs2 = 0#5 then (match regRefOf (f7.extractLsb' 0 2) rs1 with | some reg => .ok (.feTest rd reg) | none => .error .illegalField)
    else if f7.extractLsb' 2 5 = 4#5 ∧ rs2 = 0#5 ∧ rd = 0#5 then (match regRefOf (f7.extractLsb' 0 2) rs1 with | some reg => .ok (.feWait reg) | none => .error .illegalField)
    else .error .noRow

/-- custom-0, funct3 010 (R18, R19). -/
def decode_custom02 (f7 : BitVec 7) (rs2 rs1 rd : BitVec 5) : Except Reject Instr :=
  if f7.extractLsb' 5 2 = 0#2 ∧ f7.extractLsb' 0 2 = 0#2 ∧ rd = 0#5 then (match relOf (f7.extractLsb' 4 1) (f7.extractLsb' 2 2) with | some rel => .ok (.dsb rs1 rs2 rel) | none => .error .illegalField)
    else if f7.extractLsb' 5 2 = 1#2 ∧ f7.extractLsb' 0 2 = 0#2 ∧ rd = 0#5 then (match relOf (f7.extractLsb' 4 1) (f7.extractLsb' 2 2) with | some rel => .ok (.dsh rs1 rs2 rel) | none => .error .illegalField)
    else if f7.extractLsb' 5 2 = 2#2 ∧ f7.extractLsb' 0 2 = 0#2 ∧ rd = 0#5 then (match relOf (f7.extractLsb' 4 1) (f7.extractLsb' 2 2) with | some rel => .ok (.dsw rs1 rs2 rel) | none => .error .illegalField)
    else if f7.extractLsb' 5 2 = 3#2 ∧ f7.extractLsb' 0 2 = 0#2 ∧ rd = 0#5 then (match relOf (f7.extractLsb' 4 1) (f7.extractLsb' 2 2) with | some rel => .ok (.dsd rs1 rs2 rel) | none => .error .illegalField)
    else if f7.extractLsb' 5 2 = 3#2 ∧ f7.extractLsb' 0 2 = 1#2 ∧ rd = 0#5 then (if rs2.extractLsb' 4 1 = 0#1 then (match relOf (f7.extractLsb' 4 1) (f7.extractLsb' 2 2) with | some rel => .ok (.dsv rs1 (rs2.extractLsb' 0 4) rel) | none => .error .illegalField) else .error .illegalField)
    else .error .noRow

/-- custom-0, funct3 011 (R18, R19). -/
def decode_custom03 (f7 : BitVec 7) (rs2 rs1 rd : BitVec 5) : Except Reject Instr :=
  if f7.extractLsb' 3 4 = 0#4 ∧ rd = 0#5 then (match relOf (f7.extractLsb' 2 1) (f7.extractLsb' 0 2) with | some rel => .ok (.daddW rs1 rs2 rel) | none => .error .illegalField)
    else if f7.extractLsb' 3 4 = 1#4 ∧ rd = 0#5 then (match relOf (f7.extractLsb' 2 1) (f7.extractLsb' 0 2) with | some rel => .ok (.daddD rs1 rs2 rel) | none => .error .illegalField)
    else if f7.extractLsb' 3 4 = 2#4 ∧ rd = 0#5 then (match relOf (f7.extractLsb' 2 1) (f7.extractLsb' 0 2) with | some rel => .ok (.dmaxW rs1 rs2 rel) | none => .error .illegalField)
    else if f7.extractLsb' 3 4 = 3#4 ∧ rd = 0#5 then (match relOf (f7.extractLsb' 2 1) (f7.extractLsb' 0 2) with | some rel => .ok (.dmaxD rs1 rs2 rel) | none => .error .illegalField)
    else if f7.extractLsb' 3 4 = 4#4 ∧ rd = 0#5 then (match relOf (f7.extractLsb' 2 1) (f7.extractLsb' 0 2) with | some rel => .ok (.dminW rs1 rs2 rel) | none => .error .illegalField)
    else if f7.extractLsb' 3 4 = 5#4 ∧ rd = 0#5 then (match relOf (f7.extractLsb' 2 1) (f7.extractLsb' 0 2) with | some rel => .ok (.dminD rs1 rs2 rel) | none => .error .illegalField)
    else if f7.extractLsb' 3 4 = 6#4 ∧ rd = 0#5 then (match relOf (f7.extractLsb' 2 1) (f7.extractLsb' 0 2) with | some rel => .ok (.dmaxuW rs1 rs2 rel) | none => .error .illegalField)
    else if f7.extractLsb' 3 4 = 7#4 ∧ rd = 0#5 then (match relOf (f7.extractLsb' 2 1) (f7.extractLsb' 0 2) with | some rel => .ok (.dmaxuD rs1 rs2 rel) | none => .error .illegalField)
    else if f7.extractLsb' 3 4 = 8#4 ∧ rd = 0#5 then (match relOf (f7.extractLsb' 2 1) (f7.extractLsb' 0 2) with | some rel => .ok (.dandW rs1 rs2 rel) | none => .error .illegalField)
    else if f7.extractLsb' 3 4 = 9#4 ∧ rd = 0#5 then (match relOf (f7.extractLsb' 2 1) (f7.extractLsb' 0 2) with | some rel => .ok (.dandD rs1 rs2 rel) | none => .error .illegalField)
    else if f7.extractLsb' 3 4 = 10#4 ∧ rd = 0#5 then (match relOf (f7.extractLsb' 2 1) (f7.extractLsb' 0 2) with | some rel => .ok (.dorW rs1 rs2 rel) | none => .error .illegalField)
    else if f7.extractLsb' 3 4 = 11#4 ∧ rd = 0#5 then (match relOf (f7.extractLsb' 2 1) (f7.extractLsb' 0 2) with | some rel => .ok (.dorD rs1 rs2 rel) | none => .error .illegalField)
    else if f7.extractLsb' 3 4 = 12#4 ∧ rd = 0#5 then (match relOf (f7.extractLsb' 2 1) (f7.extractLsb' 0 2) with | some rel => .ok (.dxorW rs1 rs2 rel) | none => .error .illegalField)
    else if f7.extractLsb' 3 4 = 13#4 ∧ rd = 0#5 then (match relOf (f7.extractLsb' 2 1) (f7.extractLsb' 0 2) with | some rel => .ok (.dxorD rs1 rs2 rel) | none => .error .illegalField)
    else .error .noRow

/-- custom-0, funct3 100 (R18, R19). -/
def decode_custom04 (f7 : BitVec 7) (rs2 rs1 rd : BitVec 5) : Except Reject Instr :=
  if f7.extractLsb' 1 6 = 0#6 ∧ rd = 0#5 then .ok (.cntSet ((f7.extractLsb' 0 1) ++ rs2) rs1)
    else if f7.extractLsb' 1 6 = 4#6 ∧ rd = 0#5 then .ok (.cntAdd ((f7.extractLsb' 0 1) ++ rs2) rs1)
    else if f7.extractLsb' 1 6 = 8#6 ∧ rs1 = 0#5 then .ok (.cntRd rd ((f7.extractLsb' 0 1) ++ rs2))
    else if f7.extractLsb' 1 6 = 12#6 ∧ rs1 = 0#5 then .ok (.cntWait rd ((f7.extractLsb' 0 1) ++ rs2))
    else if f7.extractLsb' 1 6 = 16#6 ∧ rs1 = 0#5 then .ok (.cntPoll rd ((f7.extractLsb' 0 1) ++ rs2))
    else if f7.extractLsb' 1 6 = 20#6 ∧ rd = 0#5 then .ok (.cntMode ((f7.extractLsb' 0 1) ++ rs2) rs1)
    else .error .noRow

/-- custom-0, funct3 101 (R18, R19). -/
noncomputable def decode_custom05 (f7 : BitVec 7) (rs2 rs1 rd : BitVec 5) : Except Reject Instr :=
  if f7.extractLsb' 3 4 = 0#4 ∧ rd = 0#5 then .ok (.chs ((f7.extractLsb' 0 3) ++ rs2) rs1)
    else if f7.extractLsb' 3 4 = 1#4 ∧ rd = 0#5 then (if rs1.extractLsb' 4 1 = 0#1 then .ok (.chsv ((f7.extractLsb' 0 3) ++ rs2) (rs1.extractLsb' 0 4)) else .error .illegalField)
    else if f7.extractLsb' 3 4 = 2#4 ∧ rs1 = 0#5 then .ok (.chr rd ((f7.extractLsb' 0 3) ++ rs2))
    else if f7.extractLsb' 3 4 = 3#4 ∧ rs1 = 0#5 then (if rd.extractLsb' 4 1 = 0#1 then .ok (.chrv (rd.extractLsb' 0 4) ((f7.extractLsb' 0 3) ++ rs2)) else .error .illegalField)
    else if f7.extractLsb' 3 4 = 4#4 ∧ rs1 = 0#5 ∧ rd.extractLsb' 3 2 = 0#2 then .ok (.altOn (rd.extractLsb' 0 3) ((f7.extractLsb' 0 3) ++ rs2))
    else if f7 = 40#7 ∧ rs2 = 0#5 ∧ rs1 = 0#5 ∧ rd.extractLsb' 3 2 = 0#2 then .ok (.altOff (rd.extractLsb' 0 3))
    else if f7 = 48#7 ∧ rs2 = 0#5 ∧ rs1.extractLsb' 2 3 = 0#3 then .ok (.altWait rd ((rs1.extractLsb' 0 1) == 1#1) ((rs1.extractLsb' 1 1) == 1#1))
    else if f7 = 56#7 ∧ rs2 = 0#5 ∧ rs1 = 0#5 ∧ rd = 0#5 then .ok (.altClr)
    else if f7.extractLsb' 3 4 = 8#4 ∧ rs1 = 0#5 then .ok (.chprobe rd ((f7.extractLsb' 0 3) ++ rs2))
    else .error .noRow

/-- custom-0, funct3 110 (R18, R19). -/
noncomputable def decode_custom06 (f7 : BitVec 7) (rs2 rs1 rd : BitVec 5) : Except Reject Instr :=
  if f7.extractLsb' 3 4 = 0#4 ∧ rs2 = 0#5 ∧ rs1 = 0#5 ∧ rd = 0#5 then .ok (.wbarA (f7.extractLsb' 0 3))
    else if f7.extractLsb' 3 4 = 1#4 ∧ rs2 = 0#5 ∧ rs1 = 0#5 then .ok (.wbarW rd (f7.extractLsb' 0 3))
    else if f7 = 16#7 ∧ rs2.extractLsb' 4 1 = 0#1 ∧ rd = 0#5 then .ok (.grpPut (rs2.extractLsb' 0 4) rs1)
    else if f7 = 24#7 ∧ rs2.extractLsb' 4 1 = 0#1 ∧ rs1 = 0#5 then .ok (.grpGet rd (rs2.extractLsb' 0 4))
    else .error .noRow

/-- custom-0 by funct3 (R18, R19). -/
noncomputable def decode_custom0 (f : Fields) : Except Reject Instr :=
  if f.f3 = 0#3 then decode_custom00 f.f7 f.rs2 f.rs1 f.rd
  else if f.f3 = 1#3 then decode_custom01 f.f7 f.rs2 f.rs1 f.rd
  else if f.f3 = 2#3 then decode_custom02 f.f7 f.rs2 f.rs1 f.rd
  else if f.f3 = 3#3 then decode_custom03 f.f7 f.rs2 f.rs1 f.rd
  else if f.f3 = 4#3 then decode_custom04 f.f7 f.rs2 f.rs1 f.rd
  else if f.f3 = 5#3 then decode_custom05 f.f7 f.rs2 f.rs1 f.rd
  else if f.f3 = 6#3 then decode_custom06 f.f7 f.rs2 f.rs1 f.rd
  else .error .noRow

/-- custom-1, funct3 000 (R20). -/
noncomputable def decode_custom10 (f7 : BitVec 7) (rs2 rs1 rd : BitVec 5) : Except Reject Instr :=
  if f7.extractLsb' 3 4 = 0#4 ∧ f7.extractLsb' 0 2 = 0#2 ∧ rd.extractLsb' 3 2 = 0#2 then .ok (.mmaFp8 (rd.extractLsb' 0 3) rs1 rs2 ((f7.extractLsb' 2 1) == 1#1))
    else if f7.extractLsb' 3 4 = 1#4 ∧ f7.extractLsb' 0 2 = 0#2 ∧ rd.extractLsb' 3 2 = 0#2 then .ok (.mmaBf16 (rd.extractLsb' 0 3) rs1 rs2 ((f7.extractLsb' 2 1) == 1#1))
    else if f7.extractLsb' 3 4 = 2#4 ∧ f7.extractLsb' 0 2 = 0#2 ∧ rd.extractLsb' 3 2 = 0#2 then .ok (.mmaFp16 (rd.extractLsb' 0 3) rs1 rs2 ((f7.extractLsb' 2 1) == 1#1))
    else if f7.extractLsb' 3 4 = 3#4 ∧ f7.extractLsb' 0 2 = 0#2 ∧ rd.extractLsb' 3 2 = 0#2 then .ok (.mmaMxf8 (rd.extractLsb' 0 3) rs1 rs2 ((f7.extractLsb' 2 1) == 1#1))
    else if f7.extractLsb' 3 4 = 4#4 ∧ f7.extractLsb' 0 2 = 0#2 ∧ rd.extractLsb' 3 2 = 0#2 then .ok (.mmaMxf4 (rd.extractLsb' 0 3) rs1 rs2 ((f7.extractLsb' 2 1) == 1#1))
    else if f7.extractLsb' 3 4 = 5#4 ∧ f7.extractLsb' 0 2 = 0#2 ∧ rd.extractLsb' 3 2 = 0#2 then .ok (.mmaDxb8 (rd.extractLsb' 0 3) rs1 rs2 ((f7.extractLsb' 2 1) == 1#1))
    else if f7.extractLsb' 3 4 = 6#4 ∧ f7.extractLsb' 0 2 = 0#2 ∧ rd.extractLsb' 3 2 = 0#2 then .ok (.mmaDxb4 (rd.extractLsb' 0 3) rs1 rs2 ((f7.extractLsb' 2 1) == 1#1))
    else if f7.extractLsb' 3 4 = 7#4 ∧ f7.extractLsb' 0 2 = 0#2 ∧ rd.extractLsb' 3 2 = 0#2 then .ok (.mmaI8 (rd.extractLsb' 0 3) rs1 rs2 ((f7.extractLsb' 2 1) == 1#1))
    else .error .noRow

/-- custom-1, funct3 001 (R20). -/
noncomputable def decode_custom11 (f7 : BitVec 7) (rs2 rs1 rd : BitVec 5) : Except Reject Instr :=
  if f7 = 0#7 ∧ rs2 = 0#5 ∧ rs1 = 0#5 ∧ rd.extractLsb' 3 2 = 0#2 then .ok (.macq (rd.extractLsb' 0 3))
    else if f7 = 8#7 ∧ rs2 = 0#5 ∧ rs1 = 0#5 ∧ rd.extractLsb' 3 2 = 0#2 then .ok (.mrel (rd.extractLsb' 0 3))
    else if f7 = 16#7 ∧ rs2 = 0#5 ∧ rs1 = 0#5 ∧ rd.extractLsb' 3 2 = 0#2 then .ok (.mzero (rd.extractLsb' 0 3))
    else if f7 = 24#7 ∧ rs2 = 0#5 ∧ rd.extractLsb' 3 2 = 0#2 then .ok (.mload (rd.extractLsb' 0 3) rs1)
    else if f7.extractLsb' 3 4 = 4#4 ∧ f7.extractLsb' 0 2 = 0#2 ∧ rd.extractLsb' 3 2 = 0#2 then .ok (.mdrain (rd.extractLsb' 0 3) rs1 rs2 ((f7.extractLsb' 2 1) == 1#1))
    else if f7.extractLsb' 3 4 = 5#4 ∧ f7.extractLsb' 0 2 = 0#2 ∧ rd.extractLsb' 3 2 = 0#2 then .ok (.mdrainD (rd.extractLsb' 0 3) rs1 rs2 ((f7.extractLsb' 2 1) == 1#1))
    else if f7.extractLsb' 3 4 = 6#4 ∧ f7.extractLsb' 0 2 = 0#2 ∧ rd.extractLsb' 3 2 = 0#2 then .ok (.mdrainQ (rd.extractLsb' 0 3) rs1 rs2 ((f7.extractLsb' 2 1) == 1#1))
    else .error .noRow

/-- custom-1, funct3 010 (R20). -/
noncomputable def decode_custom12 (f7 : BitVec 7) (rs2 rs1 rd : BitVec 5) : Except Reject Instr :=
  if f7 = 0#7 ∧ rs2 = 0#5 then .ok (.ceGo rd rs1)
    else if f7 = 8#7 ∧ rs2 = 0#5 then .ok (.ceWait rd rs1)
    else if f7 = 16#7 ∧ rs2 = 0#5 then .ok (.ceStat rd rs1)
    else if f7 = 24#7 ∧ rs2 = 0#5 then .ok (.ceAbort rd rs1)
    else .error .noRow

/-- custom-1, funct3 011 (R20). -/
noncomputable def decode_custom13 (f7 : BitVec 7) (rs2 rs1 rd : BitVec 5) : Except Reject Instr :=
  if f7 = 0#7 ∧ rs2 = 0#5 then .ok (.plGo rd rs1)
    else if f7 = 8#7 ∧ rs2 = 0#5 then .ok (.plWait rd rs1)
    else if f7 = 16#7 ∧ rs2 = 0#5 then .ok (.plCancel rd rs1)
    else if f7 = 24#7 ∧ rs2 = 0#5 then .ok (.plStat rd rs1)
    else .error .noRow

/-- custom-1, funct3 100 (R20). -/
noncomputable def decode_custom14 (f7 : BitVec 7) (rs2 rs1 rd : BitVec 5) : Except Reject Instr :=
  if f7 = 0#7 ∧ rs2 = 0#5 then .ok (.sow rd rs1)
    else if f7 = 8#7 ∧ rs2 = 0#5 then .ok (.sstop rd rs1)
    else if f7 = 16#7 ∧ rs2 = 0#5 then .ok (.sresume rd rs1)
    else if f7 = 24#7 ∧ rs2 = 0#5 then .ok (.skill rd rs1)
    else if f7 = 32#7 then .ok (.ssave rd rs1 rs2)
    else if f7 = 40#7 then .ok (.sload rd rs1 rs2)
    else .error .noRow

/-- custom-1 by funct3 (R20). -/
noncomputable def decode_custom1 (f : Fields) : Except Reject Instr :=
  if f.f3 = 0#3 then decode_custom10 f.f7 f.rs2 f.rs1 f.rd
  else if f.f3 = 1#3 then decode_custom11 f.f7 f.rs2 f.rs1 f.rd
  else if f.f3 = 2#3 then decode_custom12 f.f7 f.rs2 f.rs1 f.rd
  else if f.f3 = 3#3 then decode_custom13 f.f7 f.rs2 f.rs1 f.rd
  else if f.f3 = 4#3 then decode_custom14 f.f7 f.rs2 f.rs1 f.rd
  else .error .noRow

/-- custom-2, funct3 000 (R22, R24). -/
noncomputable def decode_custom20 (f7 : BitVec 7) (rs2 rs1 rd : BitVec 5) : Except Reject Instr :=
  if f7.extractLsb' 3 4 = 0#4 ∧ rs2.extractLsb' 4 1 = 0#1 ∧ rs1.extractLsb' 4 1 = 0#1 ∧ rd.extractLsb' 4 1 = 0#1 then .ok (.vaddVv (rd.extractLsb' 0 4) (rs1.extractLsb' 0 4) (rs2.extractLsb' 0 4) (f7.extractLsb' 0 3))
    else if f7.extractLsb' 3 4 = 1#4 ∧ rs2.extractLsb' 4 1 = 0#1 ∧ rs1.extractLsb' 4 1 = 0#1 ∧ rd.extractLsb' 4 1 = 0#1 then .ok (.vsubVv (rd.extractLsb' 0 4) (rs1.extractLsb' 0 4) (rs2.extractLsb' 0 4) (f7.extractLsb' 0 3))
    else if f7.extractLsb' 3 4 = 2#4 ∧ rs2.extractLsb' 4 1 = 0#1 ∧ rs1.extractLsb' 4 1 = 0#1 ∧ rd.extractLsb' 4 1 = 0#1 then .ok (.vmulVv (rd.extractLsb' 0 4) (rs1.extractLsb' 0 4) (rs2.extractLsb' 0 4) (f7.extractLsb' 0 3))
    else if f7.extractLsb' 3 4 = 3#4 ∧ rs2.extractLsb' 4 1 = 0#1 ∧ rs1.extractLsb' 4 1 = 0#1 ∧ rd.extractLsb' 4 1 = 0#1 then .ok (.vmulhVv (rd.extractLsb' 0 4) (rs1.extractLsb' 0 4) (rs2.extractLsb' 0 4) (f7.extractLsb' 0 3))
    else if f7.extractLsb' 3 4 = 4#4 ∧ rs2.extractLsb' 4 1 = 0#1 ∧ rs1.extractLsb' 4 1 = 0#1 ∧ rd.extractLsb' 4 1 = 0#1 then .ok (.vminVv (rd.extractLsb' 0 4) (rs1.extractLsb' 0 4) (rs2.extractLsb' 0 4) (f7.extractLsb' 0 3))
    else if f7.extractLsb' 3 4 = 5#4 ∧ rs2.extractLsb' 4 1 = 0#1 ∧ rs1.extractLsb' 4 1 = 0#1 ∧ rd.extractLsb' 4 1 = 0#1 then .ok (.vmaxVv (rd.extractLsb' 0 4) (rs1.extractLsb' 0 4) (rs2.extractLsb' 0 4) (f7.extractLsb' 0 3))
    else if f7.extractLsb' 3 4 = 6#4 ∧ rs2.extractLsb' 4 1 = 0#1 ∧ rs1.extractLsb' 4 1 = 0#1 ∧ rd.extractLsb' 4 1 = 0#1 then .ok (.vminuVv (rd.extractLsb' 0 4) (rs1.extractLsb' 0 4) (rs2.extractLsb' 0 4) (f7.extractLsb' 0 3))
    else if f7.extractLsb' 3 4 = 7#4 ∧ rs2.extractLsb' 4 1 = 0#1 ∧ rs1.extractLsb' 4 1 = 0#1 ∧ rd.extractLsb' 4 1 = 0#1 then .ok (.vmaxuVv (rd.extractLsb' 0 4) (rs1.extractLsb' 0 4) (rs2.extractLsb' 0 4) (f7.extractLsb' 0 3))
    else if f7.extractLsb' 3 4 = 8#4 ∧ rs2.extractLsb' 4 1 = 0#1 ∧ rs1.extractLsb' 4 1 = 0#1 ∧ rd.extractLsb' 4 1 = 0#1 then .ok (.vsaddVv (rd.extractLsb' 0 4) (rs1.extractLsb' 0 4) (rs2.extractLsb' 0 4) (f7.extractLsb' 0 3))
    else if f7.extractLsb' 3 4 = 9#4 ∧ rs2.extractLsb' 4 1 = 0#1 ∧ rs1.extractLsb' 4 1 = 0#1 ∧ rd.extractLsb' 4 1 = 0#1 then .ok (.vssubVv (rd.extractLsb' 0 4) (rs1.extractLsb' 0 4) (rs2.extractLsb' 0 4) (f7.extractLsb' 0 3))
    else if f7.extractLsb' 3 4 = 10#4 ∧ rs2.extractLsb' 4 1 = 0#1 ∧ rs1.extractLsb' 4 1 = 0#1 ∧ rd.extractLsb' 4 1 = 0#1 then .ok (.vmaccVv (rd.extractLsb' 0 4) (rs1.extractLsb' 0 4) (rs2.extractLsb' 0 4) (f7.extractLsb' 0 3))
    else .error .noRow

/-- custom-2, funct3 001 (R22, R24). -/
noncomputable def decode_custom21 (f7 : BitVec 7) (rs2 rs1 rd : BitVec 5) : Except Reject Instr :=
  if f7.extractLsb' 3 4 = 0#4 ∧ rs1.extractLsb' 4 1 = 0#1 ∧ rd.extractLsb' 4 1 = 0#1 then .ok (.vaddVx (rd.extractLsb' 0 4) (rs1.extractLsb' 0 4) rs2 (f7.extractLsb' 0 3))
    else if f7.extractLsb' 3 4 = 1#4 ∧ rs1.extractLsb' 4 1 = 0#1 ∧ rd.extractLsb' 4 1 = 0#1 then .ok (.vsubVx (rd.extractLsb' 0 4) (rs1.extractLsb' 0 4) rs2 (f7.extractLsb' 0 3))
    else if f7.extractLsb' 3 4 = 2#4 ∧ rs1.extractLsb' 4 1 = 0#1 ∧ rd.extractLsb' 4 1 = 0#1 then .ok (.vmulVx (rd.extractLsb' 0 4) (rs1.extractLsb' 0 4) rs2 (f7.extractLsb' 0 3))
    else if f7.extractLsb' 3 4 = 3#4 ∧ rs1.extractLsb' 4 1 = 0#1 ∧ rd.extractLsb' 4 1 = 0#1 then .ok (.vmulhVx (rd.extractLsb' 0 4) (rs1.extractLsb' 0 4) rs2 (f7.extractLsb' 0 3))
    else if f7.extractLsb' 3 4 = 4#4 ∧ rs1.extractLsb' 4 1 = 0#1 ∧ rd.extractLsb' 4 1 = 0#1 then .ok (.vminVx (rd.extractLsb' 0 4) (rs1.extractLsb' 0 4) rs2 (f7.extractLsb' 0 3))
    else if f7.extractLsb' 3 4 = 5#4 ∧ rs1.extractLsb' 4 1 = 0#1 ∧ rd.extractLsb' 4 1 = 0#1 then .ok (.vmaxVx (rd.extractLsb' 0 4) (rs1.extractLsb' 0 4) rs2 (f7.extractLsb' 0 3))
    else if f7.extractLsb' 3 4 = 6#4 ∧ rs1.extractLsb' 4 1 = 0#1 ∧ rd.extractLsb' 4 1 = 0#1 then .ok (.vminuVx (rd.extractLsb' 0 4) (rs1.extractLsb' 0 4) rs2 (f7.extractLsb' 0 3))
    else if f7.extractLsb' 3 4 = 7#4 ∧ rs1.extractLsb' 4 1 = 0#1 ∧ rd.extractLsb' 4 1 = 0#1 then .ok (.vmaxuVx (rd.extractLsb' 0 4) (rs1.extractLsb' 0 4) rs2 (f7.extractLsb' 0 3))
    else if f7.extractLsb' 3 4 = 8#4 ∧ rs1.extractLsb' 4 1 = 0#1 ∧ rd.extractLsb' 4 1 = 0#1 then .ok (.vsaddVx (rd.extractLsb' 0 4) (rs1.extractLsb' 0 4) rs2 (f7.extractLsb' 0 3))
    else if f7.extractLsb' 3 4 = 9#4 ∧ rs1.extractLsb' 4 1 = 0#1 ∧ rd.extractLsb' 4 1 = 0#1 then .ok (.vssubVx (rd.extractLsb' 0 4) (rs1.extractLsb' 0 4) rs2 (f7.extractLsb' 0 3))
    else if f7.extractLsb' 3 4 = 10#4 ∧ rs1.extractLsb' 4 1 = 0#1 ∧ rd.extractLsb' 4 1 = 0#1 then .ok (.vmaccVx (rd.extractLsb' 0 4) (rs1.extractLsb' 0 4) rs2 (f7.extractLsb' 0 3))
    else .error .noRow

/-- custom-2, funct3 010 (R22, R24). -/
noncomputable def decode_custom22 (f7 : BitVec 7) (rs2 rs1 rd : BitVec 5) : Except Reject Instr :=
  if f7.extractLsb' 3 4 = 0#4 ∧ rs2.extractLsb' 4 1 = 0#1 ∧ rs1.extractLsb' 4 1 = 0#1 ∧ rd.extractLsb' 4 1 = 0#1 then .ok (.vfaddVv (rd.extractLsb' 0 4) (rs1.extractLsb' 0 4) (rs2.extractLsb' 0 4) (f7.extractLsb' 0 3))
    else if f7.extractLsb' 3 4 = 1#4 ∧ rs2.extractLsb' 4 1 = 0#1 ∧ rs1.extractLsb' 4 1 = 0#1 ∧ rd.extractLsb' 4 1 = 0#1 then .ok (.vfsubVv (rd.extractLsb' 0 4) (rs1.extractLsb' 0 4) (rs2.extractLsb' 0 4) (f7.extractLsb' 0 3))
    else if f7.extractLsb' 3 4 = 2#4 ∧ rs2.extractLsb' 4 1 = 0#1 ∧ rs1.extractLsb' 4 1 = 0#1 ∧ rd.extractLsb' 4 1 = 0#1 then .ok (.vfmulVv (rd.extractLsb' 0 4) (rs1.extractLsb' 0 4) (rs2.extractLsb' 0 4) (f7.extractLsb' 0 3))
    else if f7.extractLsb' 3 4 = 3#4 ∧ rs2.extractLsb' 4 1 = 0#1 ∧ rs1.extractLsb' 4 1 = 0#1 ∧ rd.extractLsb' 4 1 = 0#1 then .ok (.vfminVv (rd.extractLsb' 0 4) (rs1.extractLsb' 0 4) (rs2.extractLsb' 0 4) (f7.extractLsb' 0 3))
    else if f7.extractLsb' 3 4 = 4#4 ∧ rs2.extractLsb' 4 1 = 0#1 ∧ rs1.extractLsb' 4 1 = 0#1 ∧ rd.extractLsb' 4 1 = 0#1 then .ok (.vfmaxVv (rd.extractLsb' 0 4) (rs1.extractLsb' 0 4) (rs2.extractLsb' 0 4) (f7.extractLsb' 0 3))
    else if f7.extractLsb' 3 4 = 8#4 ∧ rs2.extractLsb' 4 1 = 0#1 ∧ rs1.extractLsb' 4 1 = 0#1 ∧ rd.extractLsb' 4 1 = 0#1 then .ok (.vfmaccVv (rd.extractLsb' 0 4) (rs1.extractLsb' 0 4) (rs2.extractLsb' 0 4) (f7.extractLsb' 0 3))
    else if f7.extractLsb' 3 4 = 9#4 ∧ rs2.extractLsb' 4 1 = 0#1 ∧ rs1.extractLsb' 4 1 = 0#1 ∧ rd.extractLsb' 4 1 = 0#1 then .ok (.vfnmsacVv (rd.extractLsb' 0 4) (rs1.extractLsb' 0 4) (rs2.extractLsb' 0 4) (f7.extractLsb' 0 3))
    else .error .noRow

/-- custom-2, funct3 011 (R22, R24). -/
noncomputable def decode_custom23 (f7 : BitVec 7) (rs2 rs1 rd : BitVec 5) : Except Reject Instr :=
  if f7.extractLsb' 3 4 = 0#4 ∧ rs1.extractLsb' 4 1 = 0#1 ∧ rd.extractLsb' 4 1 = 0#1 then .ok (.vfaddVx (rd.extractLsb' 0 4) (rs1.extractLsb' 0 4) rs2 (f7.extractLsb' 0 3))
    else if f7.extractLsb' 3 4 = 1#4 ∧ rs1.extractLsb' 4 1 = 0#1 ∧ rd.extractLsb' 4 1 = 0#1 then .ok (.vfsubVx (rd.extractLsb' 0 4) (rs1.extractLsb' 0 4) rs2 (f7.extractLsb' 0 3))
    else if f7.extractLsb' 3 4 = 2#4 ∧ rs1.extractLsb' 4 1 = 0#1 ∧ rd.extractLsb' 4 1 = 0#1 then .ok (.vfmulVx (rd.extractLsb' 0 4) (rs1.extractLsb' 0 4) rs2 (f7.extractLsb' 0 3))
    else if f7.extractLsb' 3 4 = 3#4 ∧ rs1.extractLsb' 4 1 = 0#1 ∧ rd.extractLsb' 4 1 = 0#1 then .ok (.vfminVx (rd.extractLsb' 0 4) (rs1.extractLsb' 0 4) rs2 (f7.extractLsb' 0 3))
    else if f7.extractLsb' 3 4 = 4#4 ∧ rs1.extractLsb' 4 1 = 0#1 ∧ rd.extractLsb' 4 1 = 0#1 then .ok (.vfmaxVx (rd.extractLsb' 0 4) (rs1.extractLsb' 0 4) rs2 (f7.extractLsb' 0 3))
    else if f7.extractLsb' 3 4 = 8#4 ∧ rs1.extractLsb' 4 1 = 0#1 ∧ rd.extractLsb' 4 1 = 0#1 then .ok (.vfmaccVx (rd.extractLsb' 0 4) (rs1.extractLsb' 0 4) rs2 (f7.extractLsb' 0 3))
    else if f7.extractLsb' 3 4 = 9#4 ∧ rs1.extractLsb' 4 1 = 0#1 ∧ rd.extractLsb' 4 1 = 0#1 then .ok (.vfnmsacVx (rd.extractLsb' 0 4) (rs1.extractLsb' 0 4) rs2 (f7.extractLsb' 0 3))
    else .error .noRow

/-- custom-2, funct3 100 (R22, R24). -/
noncomputable def decode_custom24 (f7 : BitVec 7) (rs2 rs1 rd : BitVec 5) : Except Reject Instr :=
  if f7.extractLsb' 3 4 = 0#4 ∧ rs2.extractLsb' 4 1 = 0#1 ∧ rs1.extractLsb' 4 1 = 0#1 ∧ rd.extractLsb' 3 2 = 0#2 then .ok (.vmseqVv (rd.extractLsb' 0 3) (rs1.extractLsb' 0 4) (rs2.extractLsb' 0 4) (f7.extractLsb' 0 3))
    else if f7.extractLsb' 3 4 = 1#4 ∧ rs2.extractLsb' 4 1 = 0#1 ∧ rs1.extractLsb' 4 1 = 0#1 ∧ rd.extractLsb' 3 2 = 0#2 then .ok (.vmsneVv (rd.extractLsb' 0 3) (rs1.extractLsb' 0 4) (rs2.extractLsb' 0 4) (f7.extractLsb' 0 3))
    else if f7.extractLsb' 3 4 = 2#4 ∧ rs2.extractLsb' 4 1 = 0#1 ∧ rs1.extractLsb' 4 1 = 0#1 ∧ rd.extractLsb' 3 2 = 0#2 then .ok (.vmsltVv (rd.extractLsb' 0 3) (rs1.extractLsb' 0 4) (rs2.extractLsb' 0 4) (f7.extractLsb' 0 3))
    else if f7.extractLsb' 3 4 = 3#4 ∧ rs2.extractLsb' 4 1 = 0#1 ∧ rs1.extractLsb' 4 1 = 0#1 ∧ rd.extractLsb' 3 2 = 0#2 then .ok (.vmsltuVv (rd.extractLsb' 0 3) (rs1.extractLsb' 0 4) (rs2.extractLsb' 0 4) (f7.extractLsb' 0 3))
    else if f7.extractLsb' 3 4 = 4#4 ∧ rs2.extractLsb' 4 1 = 0#1 ∧ rs1.extractLsb' 4 1 = 0#1 ∧ rd.extractLsb' 3 2 = 0#2 then .ok (.vmfeqVv (rd.extractLsb' 0 3) (rs1.extractLsb' 0 4) (rs2.extractLsb' 0 4) (f7.extractLsb' 0 3))
    else if f7.extractLsb' 3 4 = 5#4 ∧ rs2.extractLsb' 4 1 = 0#1 ∧ rs1.extractLsb' 4 1 = 0#1 ∧ rd.extractLsb' 3 2 = 0#2 then .ok (.vmfltVv (rd.extractLsb' 0 3) (rs1.extractLsb' 0 4) (rs2.extractLsb' 0 4) (f7.extractLsb' 0 3))
    else if f7.extractLsb' 3 4 = 6#4 ∧ rs2.extractLsb' 4 1 = 0#1 ∧ rs1.extractLsb' 4 1 = 0#1 ∧ rd.extractLsb' 3 2 = 0#2 then .ok (.vmfleVv (rd.extractLsb' 0 3) (rs1.extractLsb' 0 4) (rs2.extractLsb' 0 4) (f7.extractLsb' 0 3))
    else .error .noRow

/-- custom-2, funct3 101 (R22, R24). -/
noncomputable def decode_custom25 (f7 : BitVec 7) (rs2 rs1 rd : BitVec 5) : Except Reject Instr :=
  if f7.extractLsb' 3 4 = 0#4 ∧ rs1.extractLsb' 4 1 = 0#1 ∧ rd.extractLsb' 3 2 = 0#2 then .ok (.vmseqVx (rd.extractLsb' 0 3) (rs1.extractLsb' 0 4) rs2 (f7.extractLsb' 0 3))
    else if f7.extractLsb' 3 4 = 1#4 ∧ rs1.extractLsb' 4 1 = 0#1 ∧ rd.extractLsb' 3 2 = 0#2 then .ok (.vmsneVx (rd.extractLsb' 0 3) (rs1.extractLsb' 0 4) rs2 (f7.extractLsb' 0 3))
    else if f7.extractLsb' 3 4 = 2#4 ∧ rs1.extractLsb' 4 1 = 0#1 ∧ rd.extractLsb' 3 2 = 0#2 then .ok (.vmsltVx (rd.extractLsb' 0 3) (rs1.extractLsb' 0 4) rs2 (f7.extractLsb' 0 3))
    else if f7.extractLsb' 3 4 = 3#4 ∧ rs1.extractLsb' 4 1 = 0#1 ∧ rd.extractLsb' 3 2 = 0#2 then .ok (.vmsltuVx (rd.extractLsb' 0 3) (rs1.extractLsb' 0 4) rs2 (f7.extractLsb' 0 3))
    else if f7.extractLsb' 3 4 = 4#4 ∧ rs1.extractLsb' 4 1 = 0#1 ∧ rd.extractLsb' 3 2 = 0#2 then .ok (.vmfeqVx (rd.extractLsb' 0 3) (rs1.extractLsb' 0 4) rs2 (f7.extractLsb' 0 3))
    else if f7.extractLsb' 3 4 = 5#4 ∧ rs1.extractLsb' 4 1 = 0#1 ∧ rd.extractLsb' 3 2 = 0#2 then .ok (.vmfltVx (rd.extractLsb' 0 3) (rs1.extractLsb' 0 4) rs2 (f7.extractLsb' 0 3))
    else if f7.extractLsb' 3 4 = 6#4 ∧ rs1.extractLsb' 4 1 = 0#1 ∧ rd.extractLsb' 3 2 = 0#2 then .ok (.vmfleVx (rd.extractLsb' 0 3) (rs1.extractLsb' 0 4) rs2 (f7.extractLsb' 0 3))
    else .error .noRow

/-- custom-2, funct3 110 (R22, R24). -/
noncomputable def decode_custom26 (f7 : BitVec 7) (rs2 rs1 rd : BitVec 5) : Except Reject Instr :=
  if f7.extractLsb' 3 4 = 0#4 ∧ rs2.extractLsb' 4 1 = 0#1 ∧ rs1.extractLsb' 4 1 = 0#1 ∧ rd.extractLsb' 4 1 = 0#1 then .ok (.vandVv (rd.extractLsb' 0 4) (rs1.extractLsb' 0 4) (rs2.extractLsb' 0 4) (f7.extractLsb' 0 3))
    else if f7.extractLsb' 3 4 = 1#4 ∧ rs2.extractLsb' 4 1 = 0#1 ∧ rs1.extractLsb' 4 1 = 0#1 ∧ rd.extractLsb' 4 1 = 0#1 then .ok (.vorVv (rd.extractLsb' 0 4) (rs1.extractLsb' 0 4) (rs2.extractLsb' 0 4) (f7.extractLsb' 0 3))
    else if f7.extractLsb' 3 4 = 2#4 ∧ rs2.extractLsb' 4 1 = 0#1 ∧ rs1.extractLsb' 4 1 = 0#1 ∧ rd.extractLsb' 4 1 = 0#1 then .ok (.vxorVv (rd.extractLsb' 0 4) (rs1.extractLsb' 0 4) (rs2.extractLsb' 0 4) (f7.extractLsb' 0 3))
    else if f7.extractLsb' 3 4 = 3#4 ∧ rs2.extractLsb' 4 1 = 0#1 ∧ rs1.extractLsb' 4 1 = 0#1 ∧ rd.extractLsb' 4 1 = 0#1 then .ok (.vsllVv (rd.extractLsb' 0 4) (rs1.extractLsb' 0 4) (rs2.extractLsb' 0 4) (f7.extractLsb' 0 3))
    else if f7.extractLsb' 3 4 = 4#4 ∧ rs2.extractLsb' 4 1 = 0#1 ∧ rs1.extractLsb' 4 1 = 0#1 ∧ rd.extractLsb' 4 1 = 0#1 then .ok (.vsrlVv (rd.extractLsb' 0 4) (rs1.extractLsb' 0 4) (rs2.extractLsb' 0 4) (f7.extractLsb' 0 3))
    else if f7.extractLsb' 3 4 = 5#4 ∧ rs2.extractLsb' 4 1 = 0#1 ∧ rs1.extractLsb' 4 1 = 0#1 ∧ rd.extractLsb' 4 1 = 0#1 then .ok (.vsraVv (rd.extractLsb' 0 4) (rs1.extractLsb' 0 4) (rs2.extractLsb' 0 4) (f7.extractLsb' 0 3))
    else .error .noRow

/-- custom-2, funct3 111 (R22, R24). -/
noncomputable def decode_custom27 (f7 : BitVec 7) (rs2 rs1 rd : BitVec 5) : Except Reject Instr :=
  if f7.extractLsb' 3 4 = 0#4 ∧ rs1.extractLsb' 4 1 = 0#1 ∧ rd.extractLsb' 4 1 = 0#1 then .ok (.vandVx (rd.extractLsb' 0 4) (rs1.extractLsb' 0 4) rs2 (f7.extractLsb' 0 3))
    else if f7.extractLsb' 3 4 = 1#4 ∧ rs1.extractLsb' 4 1 = 0#1 ∧ rd.extractLsb' 4 1 = 0#1 then .ok (.vorVx (rd.extractLsb' 0 4) (rs1.extractLsb' 0 4) rs2 (f7.extractLsb' 0 3))
    else if f7.extractLsb' 3 4 = 2#4 ∧ rs1.extractLsb' 4 1 = 0#1 ∧ rd.extractLsb' 4 1 = 0#1 then .ok (.vxorVx (rd.extractLsb' 0 4) (rs1.extractLsb' 0 4) rs2 (f7.extractLsb' 0 3))
    else if f7.extractLsb' 3 4 = 3#4 ∧ rs1.extractLsb' 4 1 = 0#1 ∧ rd.extractLsb' 4 1 = 0#1 then .ok (.vsllVx (rd.extractLsb' 0 4) (rs1.extractLsb' 0 4) rs2 (f7.extractLsb' 0 3))
    else if f7.extractLsb' 3 4 = 4#4 ∧ rs1.extractLsb' 4 1 = 0#1 ∧ rd.extractLsb' 4 1 = 0#1 then .ok (.vsrlVx (rd.extractLsb' 0 4) (rs1.extractLsb' 0 4) rs2 (f7.extractLsb' 0 3))
    else if f7.extractLsb' 3 4 = 5#4 ∧ rs1.extractLsb' 4 1 = 0#1 ∧ rd.extractLsb' 4 1 = 0#1 then .ok (.vsraVx (rd.extractLsb' 0 4) (rs1.extractLsb' 0 4) rs2 (f7.extractLsb' 0 3))
    else .error .noRow

/-- custom-2 by funct3 (R22, R24). -/
noncomputable def decode_custom2 (f : Fields) : Except Reject Instr :=
  if f.f3 = 0#3 then decode_custom20 f.f7 f.rs2 f.rs1 f.rd
  else if f.f3 = 1#3 then decode_custom21 f.f7 f.rs2 f.rs1 f.rd
  else if f.f3 = 2#3 then decode_custom22 f.f7 f.rs2 f.rs1 f.rd
  else if f.f3 = 3#3 then decode_custom23 f.f7 f.rs2 f.rs1 f.rd
  else if f.f3 = 4#3 then decode_custom24 f.f7 f.rs2 f.rs1 f.rd
  else if f.f3 = 5#3 then decode_custom25 f.f7 f.rs2 f.rs1 f.rd
  else if f.f3 = 6#3 then decode_custom26 f.f7 f.rs2 f.rs1 f.rd
  else if f.f3 = 7#3 then decode_custom27 f.f7 f.rs2 f.rs1 f.rd
  else .error .noRow

/-- custom-3, funct3 000 (R23, R24). -/
noncomputable def decode_custom30 (f7 : BitVec 7) (rs2 rs1 rd : BitVec 5) : Except Reject Instr :=
  if f7.extractLsb' 3 4 = 0#4 ∧ rs2 = 0#5 ∧ rd.extractLsb' 4 1 = 0#1 then .ok (.vle (rd.extractLsb' 0 4) rs1 (f7.extractLsb' 0 3))
    else if f7.extractLsb' 3 4 = 1#4 ∧ rd.extractLsb' 4 1 = 0#1 then .ok (.vlse (rd.extractLsb' 0 4) rs1 rs2 (f7.extractLsb' 0 3))
    else if f7.extractLsb' 3 4 = 2#4 ∧ rs2.extractLsb' 4 1 = 0#1 ∧ rd.extractLsb' 4 1 = 0#1 then .ok (.vlxe (rd.extractLsb' 0 4) rs1 (rs2.extractLsb' 0 4) (f7.extractLsb' 0 3))
    else if f7.extractLsb' 3 4 = 4#4 ∧ rs2 = 0#5 ∧ rd.extractLsb' 4 1 = 0#1 then .ok (.vse (rd.extractLsb' 0 4) rs1 (f7.extractLsb' 0 3))
    else if f7.extractLsb' 3 4 = 5#4 ∧ rd.extractLsb' 4 1 = 0#1 then .ok (.vsse (rd.extractLsb' 0 4) rs1 rs2 (f7.extractLsb' 0 3))
    else if f7.extractLsb' 3 4 = 6#4 ∧ rs2.extractLsb' 4 1 = 0#1 ∧ rd.extractLsb' 4 1 = 0#1 then .ok (.vsxe (rd.extractLsb' 0 4) rs1 (rs2.extractLsb' 0 4) (f7.extractLsb' 0 3))
    else .error .noRow

/-- custom-3, funct3 001 (R23, R24). -/
noncomputable def decode_custom31 (f7 : BitVec 7) (rs2 rs1 rd : BitVec 5) : Except Reject Instr :=
  if f7.extractLsb' 3 4 = 0#4 ∧ rs1.extractLsb' 4 1 = 0#1 ∧ rd.extractLsb' 4 1 = 0#1 then .ok (.vcvt (rd.extractLsb' 0 4) (rs1.extractLsb' 0 4) rs2 (f7.extractLsb' 0 3))
    else if f7 = 8#7 ∧ rs1.extractLsb' 4 1 = 0#1 ∧ rd.extractLsb' 4 1 = 0#1 then .ok (.vqnt (rd.extractLsb' 0 4) (rs1.extractLsb' 0 4) rs2)
    else if f7 = 16#7 ∧ rs1.extractLsb' 4 1 = 0#1 ∧ rd.extractLsb' 4 1 = 0#1 then .ok (.vdeq (rd.extractLsb' 0 4) (rs1.extractLsb' 0 4) rs2)
    else if f7.extractLsb' 3 4 = 3#4 ∧ rs2 = 0#5 ∧ rs1.extractLsb' 4 1 = 0#1 ∧ rd.extractLsb' 4 1 = 0#1 then .ok (.vfcvti (rd.extractLsb' 0 4) (rs1.extractLsb' 0 4) (f7.extractLsb' 0 3))
    else if f7.extractLsb' 3 4 = 4#4 ∧ rs2 = 0#5 ∧ rs1.extractLsb' 4 1 = 0#1 ∧ rd.extractLsb' 4 1 = 0#1 then .ok (.vicvtf (rd.extractLsb' 0 4) (rs1.extractLsb' 0 4) (f7.extractLsb' 0 3))
    else .error .noRow

/-- custom-3, funct3 010 (R23, R24). -/
noncomputable def decode_custom32 (f7 : BitVec 7) (rs2 rs1 rd : BitVec 5) : Except Reject Instr :=
  if f7.extractLsb' 3 4 = 0#4 ∧ rs2 = 0#5 ∧ rs1.extractLsb' 4 1 = 0#1 ∧ rd.extractLsb' 4 1 = 0#1 then .ok (.vexp2 (rd.extractLsb' 0 4) (rs1.extractLsb' 0 4) (f7.extractLsb' 0 3))
    else if f7.extractLsb' 3 4 = 1#4 ∧ rs2 = 0#5 ∧ rs1.extractLsb' 4 1 = 0#1 ∧ rd.extractLsb' 4 1 = 0#1 then .ok (.vlog2 (rd.extractLsb' 0 4) (rs1.extractLsb' 0 4) (f7.extractLsb' 0 3))
    else if f7.extractLsb' 3 4 = 2#4 ∧ rs2 = 0#5 ∧ rs1.extractLsb' 4 1 = 0#1 ∧ rd.extractLsb' 4 1 = 0#1 then .ok (.vrcp (rd.extractLsb' 0 4) (rs1.extractLsb' 0 4) (f7.extractLsb' 0 3))
    else if f7.extractLsb' 3 4 = 3#4 ∧ rs2 = 0#5 ∧ rs1.extractLsb' 4 1 = 0#1 ∧ rd.extractLsb' 4 1 = 0#1 then .ok (.vrsqrt (rd.extractLsb' 0 4) (rs1.extractLsb' 0 4) (f7.extractLsb' 0 3))
    else if f7.extractLsb' 3 4 = 4#4 ∧ rs2 = 0#5 ∧ rs1.extractLsb' 4 1 = 0#1 ∧ rd.extractLsb' 4 1 = 0#1 then .ok (.vtanh (rd.extractLsb' 0 4) (rs1.extractLsb' 0 4) (f7.extractLsb' 0 3))
    else .error .noRow

/-- custom-3, funct3 011 (R23, R24). -/
noncomputable def decode_custom33 (f7 : BitVec 7) (rs2 rs1 rd : BitVec 5) : Except Reject Instr :=
  if f7.extractLsb' 3 4 = 0#4 ∧ rs2 = 0#5 ∧ rs1.extractLsb' 4 1 = 0#1 then .ok (.vredsum rd (rs1.extractLsb' 0 4) (f7.extractLsb' 0 3))
    else if f7.extractLsb' 3 4 = 1#4 ∧ rs2 = 0#5 ∧ rs1.extractLsb' 4 1 = 0#1 then .ok (.vfredsum rd (rs1.extractLsb' 0 4) (f7.extractLsb' 0 3))
    else if f7.extractLsb' 3 4 = 2#4 ∧ rs2 = 0#5 ∧ rs1.extractLsb' 4 1 = 0#1 then .ok (.vredmax rd (rs1.extractLsb' 0 4) (f7.extractLsb' 0 3))
    else if f7.extractLsb' 3 4 = 3#4 ∧ rs2 = 0#5 ∧ rs1.extractLsb' 4 1 = 0#1 then .ok (.vfredmax rd (rs1.extractLsb' 0 4) (f7.extractLsb' 0 3))
    else if f7.extractLsb' 3 4 = 4#4 ∧ rs2 = 0#5 ∧ rs1.extractLsb' 4 1 = 0#1 then .ok (.vfredamax rd (rs1.extractLsb' 0 4) (f7.extractLsb' 0 3))
    else .error .noRow

/-- custom-3, funct3 100 (R23, R24). -/
noncomputable def decode_custom34 (f7 : BitVec 7) (rs2 rs1 rd : BitVec 5) : Except Reject Instr :=
  if f7.extractLsb' 3 4 = 0#4 ∧ rs1.extractLsb' 4 1 = 0#1 ∧ rd.extractLsb' 4 1 = 0#1 then .ok (.vslideup (rd.extractLsb' 0 4) (rs1.extractLsb' 0 4) rs2 (f7.extractLsb' 0 3))
    else if f7.extractLsb' 3 4 = 1#4 ∧ rs1.extractLsb' 4 1 = 0#1 ∧ rd.extractLsb' 4 1 = 0#1 then .ok (.vslidedown (rd.extractLsb' 0 4) (rs1.extractLsb' 0 4) rs2 (f7.extractLsb' 0 3))
    else if f7.extractLsb' 3 4 = 2#4 ∧ rs2.extractLsb' 4 1 = 0#1 ∧ rs1.extractLsb' 4 1 = 0#1 ∧ rd.extractLsb' 4 1 = 0#1 then .ok (.vgather (rd.extractLsb' 0 4) (rs1.extractLsb' 0 4) (rs2.extractLsb' 0 4) (f7.extractLsb' 0 3))
    else if f7.extractLsb' 3 4 = 3#4 ∧ rs2 = 0#5 ∧ rd.extractLsb' 4 1 = 0#1 then .ok (.vbcast (rd.extractLsb' 0 4) rs1 (f7.extractLsb' 0 3))
    else if f7 = 32#7 ∧ rs1.extractLsb' 4 1 = 0#1 then .ok (.vext rd (rs1.extractLsb' 0 4) rs2)
    else if f7 = 40#7 ∧ rs2.extractLsb' 3 2 = 0#2 ∧ rs1.extractLsb' 4 1 = 0#1 ∧ rd.extractLsb' 4 1 = 0#1 then .ok (.vcompress (rd.extractLsb' 0 4) (rs1.extractLsb' 0 4) (rs2.extractLsb' 0 3))
    else .error .noRow

/-- custom-3, funct3 101 (R23, R24). -/
noncomputable def decode_custom35 (f7 : BitVec 7) (rs2 rs1 rd : BitVec 5) : Except Reject Instr :=
  if f7 = 0#7 ∧ rs2.extractLsb' 3 2 = 0#2 ∧ rs1.extractLsb' 3 2 = 0#2 ∧ rd.extractLsb' 3 2 = 0#2 then .ok (.vmand (rd.extractLsb' 0 3) (rs1.extractLsb' 0 3) (rs2.extractLsb' 0 3))
    else if f7 = 8#7 ∧ rs2.extractLsb' 3 2 = 0#2 ∧ rs1.extractLsb' 3 2 = 0#2 ∧ rd.extractLsb' 3 2 = 0#2 then .ok (.vmor (rd.extractLsb' 0 3) (rs1.extractLsb' 0 3) (rs2.extractLsb' 0 3))
    else if f7 = 16#7 ∧ rs2 = 0#5 ∧ rs1.extractLsb' 3 2 = 0#2 ∧ rd.extractLsb' 3 2 = 0#2 then .ok (.vmnot (rd.extractLsb' 0 3) (rs1.extractLsb' 0 3))
    else if f7 = 24#7 ∧ rs2 = 0#5 ∧ rs1.extractLsb' 3 2 = 0#2 then .ok (.vmpop rd (rs1.extractLsb' 0 3))
    else if f7 = 32#7 ∧ rs2 = 0#5 ∧ rs1.extractLsb' 3 2 = 0#2 then .ok (.vmfirst rd (rs1.extractLsb' 0 3))
    else if f7.extractLsb' 3 4 = 5#4 ∧ rs2.extractLsb' 4 1 = 0#1 ∧ rs1.extractLsb' 4 1 = 0#1 ∧ rd.extractLsb' 4 1 = 0#1 then .ok (.vmerge (rd.extractLsb' 0 4) (rs1.extractLsb' 0 4) (rs2.extractLsb' 0 4) (f7.extractLsb' 0 3))
    else .error .noRow

/-- custom-3, funct3 110 (R23, R24). -/
noncomputable def decode_custom36 (f7 : BitVec 7) (rs2 rs1 rd : BitVec 5) : Except Reject Instr :=
  if f7 = 0#7 ∧ rs2 = 0#5 then .ok (.vcfg rd rs1)
    else .error .noRow

/-- custom-3 by funct3 (R23, R24). -/
noncomputable def decode_custom3 (f : Fields) : Except Reject Instr :=
  if f.f3 = 0#3 then decode_custom30 f.f7 f.rs2 f.rs1 f.rd
  else if f.f3 = 1#3 then decode_custom31 f.f7 f.rs2 f.rs1 f.rd
  else if f.f3 = 2#3 then decode_custom32 f.f7 f.rs2 f.rs1 f.rd
  else if f.f3 = 3#3 then decode_custom33 f.f7 f.rs2 f.rs1 f.rd
  else if f.f3 = 4#3 then decode_custom34 f.f7 f.rs2 f.rs1 f.rd
  else if f.f3 = 5#3 then decode_custom35 f.f7 f.rs2 f.rs1 f.rd
  else if f.f3 = 6#3 then decode_custom36 f.f7 f.rs2 f.rs1 f.rd
  else .error .noRow

/-- The row of the opcode map that the fields select (R15), before the checks of `Instr.wf`. -/
noncomputable def decodeFields (f : Fields) : Except Reject Instr :=
  if f.op = 3#7 then decode_load f
  else if f.op = 15#7 then decode_miscMem f
  else if f.op = 19#7 then decode_opImm f
  else if f.op = 23#7 then decode_auipcOp f
  else if f.op = 55#7 then decode_luiOp f
  else if f.op = 27#7 then decode_opImm32 f
  else if f.op = 35#7 then decode_store f
  else if f.op = 47#7 then decode_amo f
  else if f.op = 51#7 then decode_op f
  else if f.op = 59#7 then decode_op32 f
  else if f.op = 99#7 then decode_branch f
  else if f.op = 103#7 then decode_jalrOp f
  else if f.op = 111#7 then decode_jalOp f
  else if f.op = 115#7 then decode_system f
  else if f.op = 11#7 then decode_custom0 f
  else if f.op = 43#7 then decode_custom1 f
  else if f.op = 91#7 then decode_custom2 f
  else if f.op = 123#7 then decode_custom3 f
  else .error .majorOpcode

/-- The decoder: the instruction a 32-bit word is, or why it is illegal (R9, R15 to R24). -/
noncomputable def decode (w : BitVec 32) : Except Reject Instr :=
  if w.extractLsb' 0 2 ≠ 3#2 then .error .notInstruction
  else if w.extractLsb' 2 3 = 7#3 then .error .longForm
  else
    match decodeFields (splitWord w) with
    | .ok i => if i.wf then .ok i else .error .illegalField
    | .error r => .error r

/-- The fields of an instruction's word, from the same tables (R16, R18, R20, R22, R23). An event has no word; it gives the
all-zero fields, which R9 makes illegal. -/
def encodeFields : Instr → Fields
  | .illegalInstruction _ => ⟨0#7, 0#5, 0#5, 0#3, 0#5, 0#7⟩
  | .wtmoLimit _ _ _ => ⟨0#7, 0#5, 0#5, 0#3, 0#5, 0#7⟩
  | .globalLoadData _ => ⟨0#7, 0#5, 0#5, 0#3, 0#5, 0#7⟩
  | .storeAck _ => ⟨0#7, 0#5, 0#5, 0#3, 0#5, 0#7⟩
  | .homeAccess _ => ⟨0#7, 0#5, 0#5, 0#3, 0#5, 0#7⟩
  | .bankGrant _ => ⟨0#7, 0#5, 0#5, 0#3, 0#5, 0#7⟩
  | .sfuServiceStart _ => ⟨0#7, 0#5, 0#5, 0#3, 0#5, 0#7⟩
  | .sfuResult _ => ⟨0#7, 0#5, 0#5, 0#3, 0#5, 0#7⟩
  | .tlbRefill _ _ => ⟨0#7, 0#5, 0#5, 0#3, 0#5, 0#7⟩
  | .faultRecordPendingPost _ => ⟨0#7, 0#5, 0#5, 0#3, 0#5, 0#7⟩
  | .trapRecordPendingPost _ => ⟨0#7, 0#5, 0#5, 0#3, 0#5, 0#7⟩
  | .depositDepart _ _ => ⟨0#7, 0#5, 0#5, 0#3, 0#5, 0#7⟩
  | .depositLanding _ => ⟨0#7, 0#5, 0#5, 0#3, 0#5, 0#7⟩
  | .postedAtomicLanding _ => ⟨0#7, 0#5, 0#5, 0#3, 0#5, 0#7⟩
  | .globalPostedAtomic _ => ⟨0#7, 0#5, 0#5, 0#3, 0#5, 0#7⟩
  | .wakeRLanding _ => ⟨0#7, 0#5, 0#5, 0#3, 0#5, 0#7⟩
  | .counterRaise _ => ⟨0#7, 0#5, 0#5, 0#3, 0#5, 0#7⟩
  | .landingReceipt _ => ⟨0#7, 0#5, 0#5, 0#3, 0#5, 0#7⟩
  | .sendRelease _ _ _ => ⟨0#7, 0#5, 0#5, 0#3, 0#5, 0#7⟩
  | .offer _ => ⟨0#7, 0#5, 0#5, 0#3, 0#5, 0#7⟩
  | .ack _ => ⟨0#7, 0#5, 0#5, 0#3, 0#5, 0#7⟩
  | .recv _ => ⟨0#7, 0#5, 0#5, 0#3, 0#5, 0#7⟩
  | .withdraw _ => ⟨0#7, 0#5, 0#5, 0#3, 0#5, 0#7⟩
  | .withdrawn _ => ⟨0#7, 0#5, 0#5, 0#3, 0#5, 0#7⟩
  | .broken _ => ⟨0#7, 0#5, 0#5, 0#3, 0#5, 0#7⟩
  | .receiveTimeout _ _ _ => ⟨0#7, 0#5, 0#5, 0#3, 0#5, 0#7⟩
  | .probeTimer _ _ _ => ⟨0#7, 0#5, 0#5, 0#3, 0#5, 0#7⟩
  | .probe _ => ⟨0#7, 0#5, 0#5, 0#3, 0#5, 0#7⟩
  | .reply _ => ⟨0#7, 0#5, 0#5, 0#3, 0#5, 0#7⟩
  | .wbarArrivalSignal _ _ _ => ⟨0#7, 0#5, 0#5, 0#3, 0#5, 0#7⟩
  | .wbarPhaseRelease _ _ _ => ⟨0#7, 0#5, 0#5, 0#3, 0#5, 0#7⟩
  | .mmaStart _ => ⟨0#7, 0#5, 0#5, 0#3, 0#5, 0#7⟩
  | .mmaSliceEnd _ => ⟨0#7, 0#5, 0#5, 0#3, 0#5, 0#7⟩
  | .mmaComplete _ => ⟨0#7, 0#5, 0#5, 0#3, 0#5, 0#7⟩
  | .mloadComplete _ _ => ⟨0#7, 0#5, 0#5, 0#3, 0#5, 0#7⟩
  | .drainComplete _ _ => ⟨0#7, 0#5, 0#5, 0#3, 0#5, 0#7⟩
  | .amaxUpdate _ _ => ⟨0#7, 0#5, 0#5, 0#3, 0#5, 0#7⟩
  | .gleanerEntryStart _ _ => ⟨0#7, 0#5, 0#5, 0#3, 0#5, 0#7⟩
  | .gleanerTranslate _ _ => ⟨0#7, 0#5, 0#5, 0#3, 0#5, 0#7⟩
  | .gleanerEntryComplete _ _ _ => ⟨0#7, 0#5, 0#5, 0#3, 0#5, 0#7⟩
  | .gleanerListEnd _ _ => ⟨0#7, 0#5, 0#5, 0#3, 0#5, 0#7⟩
  | .thresherOperationStart _ => ⟨0#7, 0#5, 0#5, 0#3, 0#5, 0#7⟩
  | .sourceRead _ _ _ => ⟨0#7, 0#5, 0#5, 0#3, 0#5, 0#7⟩
  | .eround _ => ⟨0#7, 0#5, 0#5, 0#3, 0#5, 0#7⟩
  | .up _ => ⟨0#7, 0#5, 0#5, 0#3, 0#5, 0#7⟩
  | .header _ => ⟨0#7, 0#5, 0#5, 0#3, 0#5, 0#7⟩
  | .plane _ => ⟨0#7, 0#5, 0#5, 0#3, 0#5, 0#7⟩
  | .planeCounterRaise _ _ => ⟨0#7, 0#5, 0#5, 0#3, 0#5, 0#7⟩
  | .cancel _ => ⟨0#7, 0#5, 0#5, 0#3, 0#5, 0#7⟩
  | .thresherOperationEnd _ _ => ⟨0#7, 0#5, 0#5, 0#3, 0#5, 0#7⟩
  | .thresherFault _ => ⟨0#7, 0#5, 0#5, 0#3, 0#5, 0#7⟩
  | .launchAccept _ => ⟨0#7, 0#5, 0#5, 0#3, 0#5, 0#7⟩
  | .placementStart => ⟨0#7, 0#5, 0#5, 0#3, 0#5, 0#7⟩
  | .sheafLoad _ => ⟨0#7, 0#5, 0#5, 0#3, 0#5, 0#7⟩
  | .startWave _ => ⟨0#7, 0#5, 0#5, 0#3, 0#5, 0#7⟩
  | .startRelease _ _ => ⟨0#7, 0#5, 0#5, 0#3, 0#5, 0#7⟩
  | .sowerSuspend _ => ⟨0#7, 0#5, 0#5, 0#3, 0#5, 0#7⟩
  | .sowerResume _ => ⟨0#7, 0#5, 0#5, 0#3, 0#5, 0#7⟩
  | .sowerKill _ => ⟨0#7, 0#5, 0#5, 0#3, 0#5, 0#7⟩
  | .quiescenceRound _ => ⟨0#7, 0#5, 0#5, 0#3, 0#5, 0#7⟩
  | .combineRoundRestart _ => ⟨0#7, 0#5, 0#5, 0#3, 0#5, 0#7⟩
  | .retirement _ => ⟨0#7, 0#5, 0#5, 0#3, 0#5, 0#7⟩
  | .generationSweep _ => ⟨0#7, 0#5, 0#5, 0#3, 0#5, 0#7⟩
  | .flitReceive _ _ _ => ⟨0#7, 0#5, 0#5, 0#3, 0#5, 0#7⟩
  | .flitReplay _ _ _ => ⟨0#7, 0#5, 0#5, 0#3, 0#5, 0#7⟩
  | .replayLimit _ => ⟨0#7, 0#5, 0#5, 0#3, 0#5, 0#7⟩
  | .moduleDrained _ => ⟨0#7, 0#5, 0#5, 0#3, 0#5, 0#7⟩
  | .trainDone _ => ⟨0#7, 0#5, 0#5, 0#3, 0#5, 0#7⟩
  | .messageDiscard _ _ => ⟨0#7, 0#5, 0#5, 0#3, 0#5, 0#7⟩
  | .lossNotice _ => ⟨0#7, 0#5, 0#5, 0#3, 0#5, 0#7⟩
  | .accessTimeout _ => ⟨0#7, 0#5, 0#5, 0#3, 0#5, 0#7⟩
  | .moduleHold _ => ⟨0#7, 0#5, 0#5, 0#3, 0#5, 0#7⟩
  | .moduleUnhold _ => ⟨0#7, 0#5, 0#5, 0#3, 0#5, 0#7⟩
  | .retrain _ _ => ⟨0#7, 0#5, 0#5, 0#3, 0#5, 0#7⟩
  | .stolonRetrain _ => ⟨0#7, 0#5, 0#5, 0#3, 0#5, 0#7⟩
  | .stolonHold _ => ⟨0#7, 0#5, 0#5, 0#3, 0#5, 0#7⟩
  | .stolonEnable _ => ⟨0#7, 0#5, 0#5, 0#3, 0#5, 0#7⟩
  | .wgdata _ _ _ => ⟨0#7, 0#5, 0#5, 0#3, 0#5, 0#7⟩
  | .invAll _ => ⟨0#7, 0#5, 0#5, 0#3, 0#5, 0#7⟩
  | .invAsid _ _ => ⟨0#7, 0#5, 0#5, 0#3, 0#5, 0#7⟩
  | .invAsidPage _ _ _ => ⟨0#7, 0#5, 0#5, 0#3, 0#5, 0#7⟩
  | .invPage _ _ => ⟨0#7, 0#5, 0#5, 0#3, 0#5, 0#7⟩
  | .invComplete _ => ⟨0#7, 0#5, 0#5, 0#3, 0#5, 0#7⟩
  | .wtrapqPop _ => ⟨0#7, 0#5, 0#5, 0#3, 0#5, 0#7⟩
  | .wdmapWrite _ _ => ⟨0#7, 0#5, 0#5, 0#3, 0#5, 0#7⟩
  | .wwindata _ _ _ => ⟨0#7, 0#5, 0#5, 0#3, 0#5, 0#7⟩
  | .asidEntryWrite _ _ => ⟨0#7, 0#5, 0#5, 0#3, 0#5, 0#7⟩
  | .clkoff _ _ => ⟨0#7, 0#5, 0#5, 0#3, 0#5, 0#7⟩
  | .clkrate _ _ => ⟨0#7, 0#5, 0#5, 0#3, 0#5, 0#7⟩
  | .sqDoorbell _ => ⟨0#7, 0#5, 0#5, 0#3, 0#5, 0#7⟩
  | .sqConsume => ⟨0#7, 0#5, 0#5, 0#3, 0#5, 0#7⟩
  | .sqCompletion => ⟨0#7, 0#5, 0#5, 0#3, 0#5, 0#7⟩
  | .hostMemAccess _ _ _ _ => ⟨0#7, 0#5, 0#5, 0#3, 0#5, 0#7⟩
  | .hostWindowWrite _ _ => ⟨0#7, 0#5, 0#5, 0#3, 0#5, 0#7⟩
  | .panelReset => ⟨0#7, 0#5, 0#5, 0#3, 0#5, 0#7⟩
  | .dieReset _ => ⟨0#7, 0#5, 0#5, 0#3, 0#5, 0#7⟩
  | .sigreq => ⟨0#7, 0#5, 0#5, 0#3, 0#5, 0#7⟩
  | .mext => ⟨0#7, 0#5, 0#5, 0#3, 0#5, 0#7⟩
  | .mextComplete => ⟨0#7, 0#5, 0#5, 0#3, 0#5, 0#7⟩
  | .attgo => ⟨0#7, 0#5, 0#5, 0#3, 0#5, 0#7⟩
  | .attestComplete => ⟨0#7, 0#5, 0#5, 0#3, 0#5, 0#7⟩
  | .pcap _ => ⟨0#7, 0#5, 0#5, 0#3, 0#5, 0#7⟩
  | .powerMeasure _ => ⟨0#7, 0#5, 0#5, 0#3, 0#5, 0#7⟩
  | .sensorAlarm _ => ⟨0#7, 0#5, 0#5, 0#3, 0#5, 0#7⟩
  | .registerWrite _ _ => ⟨0#7, 0#5, 0#5, 0#3, 0#5, 0#7⟩
  | .wrsStoTimeout _ _ _ => ⟨0#7, 0#5, 0#5, 0#3, 0#5, 0#7⟩
  | .partnerCopyRefresh _ => ⟨0#7, 0#5, 0#5, 0#3, 0#5, 0#7⟩
  | .sweepMarkerReturn _ => ⟨0#7, 0#5, 0#5, 0#3, 0#5, 0#7⟩
  | .reservationMessage _ => ⟨0#7, 0#5, 0#5, 0#3, 0#5, 0#7⟩
  | .lb rd rs1 imm =>
    ⟨(imm.extractLsb' 5 7), (imm.extractLsb' 0 5), rs1, 0#3, rd, 3#7⟩
  | .lh rd rs1 imm =>
    ⟨(imm.extractLsb' 5 7), (imm.extractLsb' 0 5), rs1, 1#3, rd, 3#7⟩
  | .lw rd rs1 imm =>
    ⟨(imm.extractLsb' 5 7), (imm.extractLsb' 0 5), rs1, 2#3, rd, 3#7⟩
  | .ld rd rs1 imm =>
    ⟨(imm.extractLsb' 5 7), (imm.extractLsb' 0 5), rs1, 3#3, rd, 3#7⟩
  | .lbu rd rs1 imm =>
    ⟨(imm.extractLsb' 5 7), (imm.extractLsb' 0 5), rs1, 4#3, rd, 3#7⟩
  | .lhu rd rs1 imm =>
    ⟨(imm.extractLsb' 5 7), (imm.extractLsb' 0 5), rs1, 5#3, rd, 3#7⟩
  | .lwu rd rs1 imm =>
    ⟨(imm.extractLsb' 5 7), (imm.extractLsb' 0 5), rs1, 6#3, rd, 3#7⟩
  | .sb rs1 rs2 imm =>
    ⟨(imm.extractLsb' 5 7), rs2, rs1, 0#3, (imm.extractLsb' 0 5), 35#7⟩
  | .sh rs1 rs2 imm =>
    ⟨(imm.extractLsb' 5 7), rs2, rs1, 1#3, (imm.extractLsb' 0 5), 35#7⟩
  | .sw rs1 rs2 imm =>
    ⟨(imm.extractLsb' 5 7), rs2, rs1, 2#3, (imm.extractLsb' 0 5), 35#7⟩
  | .sd rs1 rs2 imm =>
    ⟨(imm.extractLsb' 5 7), rs2, rs1, 3#3, (imm.extractLsb' 0 5), 35#7⟩
  | .fence fm pred succ =>
    ⟨(BitVec.ofBool fm ++ 0#3 ++ pred.extractLsb' 1 3), (pred.extractLsb' 0 1 ++ succ), 0#5, 0#3, 0#5, 15#7⟩
  | .fenceI =>
    ⟨0#7, 0#5, 0#5, 1#3, 0#5, 15#7⟩
  | .addi rd rs1 imm =>
    ⟨(imm.extractLsb' 5 7), (imm.extractLsb' 0 5), rs1, 0#3, rd, 19#7⟩
  | .slti rd rs1 imm =>
    ⟨(imm.extractLsb' 5 7), (imm.extractLsb' 0 5), rs1, 2#3, rd, 19#7⟩
  | .sltiu rd rs1 imm =>
    ⟨(imm.extractLsb' 5 7), (imm.extractLsb' 0 5), rs1, 3#3, rd, 19#7⟩
  | .xori rd rs1 imm =>
    ⟨(imm.extractLsb' 5 7), (imm.extractLsb' 0 5), rs1, 4#3, rd, 19#7⟩
  | .ori rd rs1 imm =>
    ⟨(imm.extractLsb' 5 7), (imm.extractLsb' 0 5), rs1, 6#3, rd, 19#7⟩
  | .andi rd rs1 imm =>
    ⟨(imm.extractLsb' 5 7), (imm.extractLsb' 0 5), rs1, 7#3, rd, 19#7⟩
  | .slli rd rs1 sh =>
    ⟨(0#6 ++ sh.extractLsb' 5 1), (sh.extractLsb' 0 5), rs1, 1#3, rd, 19#7⟩
  | .srli rd rs1 sh =>
    ⟨(0#6 ++ sh.extractLsb' 5 1), (sh.extractLsb' 0 5), rs1, 5#3, rd, 19#7⟩
  | .srai rd rs1 sh =>
    ⟨(16#6 ++ sh.extractLsb' 5 1), (sh.extractLsb' 0 5), rs1, 5#3, rd, 19#7⟩
  | .auipc rd imm =>
    ⟨(imm.extractLsb' 13 7), (imm.extractLsb' 8 5), (imm.extractLsb' 3 5), (imm.extractLsb' 0 3), rd, 23#7⟩
  | .lui rd imm =>
    ⟨(imm.extractLsb' 13 7), (imm.extractLsb' 8 5), (imm.extractLsb' 3 5), (imm.extractLsb' 0 3), rd, 55#7⟩
  | .addiw rd rs1 imm =>
    ⟨(imm.extractLsb' 5 7), (imm.extractLsb' 0 5), rs1, 0#3, rd, 27#7⟩
  | .slliw rd rs1 sh =>
    ⟨0#7, sh, rs1, 1#3, rd, 27#7⟩
  | .srliw rd rs1 sh =>
    ⟨0#7, sh, rs1, 5#3, rd, 27#7⟩
  | .sraiw rd rs1 sh =>
    ⟨32#7, sh, rs1, 5#3, rd, 27#7⟩
  | .lrW rd rs1 aq rl =>
    ⟨(2#5 ++ (BitVec.ofBool aq) ++ (BitVec.ofBool rl)), 0#5, rs1, 2#3, rd, 47#7⟩
  | .lrD rd rs1 aq rl =>
    ⟨(2#5 ++ (BitVec.ofBool aq) ++ (BitVec.ofBool rl)), 0#5, rs1, 3#3, rd, 47#7⟩
  | .scW rd rs1 rs2 aq rl =>
    ⟨(3#5 ++ (BitVec.ofBool aq) ++ (BitVec.ofBool rl)), rs2, rs1, 2#3, rd, 47#7⟩
  | .scD rd rs1 rs2 aq rl =>
    ⟨(3#5 ++ (BitVec.ofBool aq) ++ (BitVec.ofBool rl)), rs2, rs1, 3#3, rd, 47#7⟩
  | .amoswapW rd rs1 rs2 aq rl =>
    ⟨(1#5 ++ (BitVec.ofBool aq) ++ (BitVec.ofBool rl)), rs2, rs1, 2#3, rd, 47#7⟩
  | .amoswapD rd rs1 rs2 aq rl =>
    ⟨(1#5 ++ (BitVec.ofBool aq) ++ (BitVec.ofBool rl)), rs2, rs1, 3#3, rd, 47#7⟩
  | .amoaddW rd rs1 rs2 aq rl =>
    ⟨(0#5 ++ (BitVec.ofBool aq) ++ (BitVec.ofBool rl)), rs2, rs1, 2#3, rd, 47#7⟩
  | .amoaddD rd rs1 rs2 aq rl =>
    ⟨(0#5 ++ (BitVec.ofBool aq) ++ (BitVec.ofBool rl)), rs2, rs1, 3#3, rd, 47#7⟩
  | .amoxorW rd rs1 rs2 aq rl =>
    ⟨(4#5 ++ (BitVec.ofBool aq) ++ (BitVec.ofBool rl)), rs2, rs1, 2#3, rd, 47#7⟩
  | .amoxorD rd rs1 rs2 aq rl =>
    ⟨(4#5 ++ (BitVec.ofBool aq) ++ (BitVec.ofBool rl)), rs2, rs1, 3#3, rd, 47#7⟩
  | .amoandW rd rs1 rs2 aq rl =>
    ⟨(12#5 ++ (BitVec.ofBool aq) ++ (BitVec.ofBool rl)), rs2, rs1, 2#3, rd, 47#7⟩
  | .amoandD rd rs1 rs2 aq rl =>
    ⟨(12#5 ++ (BitVec.ofBool aq) ++ (BitVec.ofBool rl)), rs2, rs1, 3#3, rd, 47#7⟩
  | .amoorW rd rs1 rs2 aq rl =>
    ⟨(8#5 ++ (BitVec.ofBool aq) ++ (BitVec.ofBool rl)), rs2, rs1, 2#3, rd, 47#7⟩
  | .amoorD rd rs1 rs2 aq rl =>
    ⟨(8#5 ++ (BitVec.ofBool aq) ++ (BitVec.ofBool rl)), rs2, rs1, 3#3, rd, 47#7⟩
  | .amominW rd rs1 rs2 aq rl =>
    ⟨(16#5 ++ (BitVec.ofBool aq) ++ (BitVec.ofBool rl)), rs2, rs1, 2#3, rd, 47#7⟩
  | .amominD rd rs1 rs2 aq rl =>
    ⟨(16#5 ++ (BitVec.ofBool aq) ++ (BitVec.ofBool rl)), rs2, rs1, 3#3, rd, 47#7⟩
  | .amomaxW rd rs1 rs2 aq rl =>
    ⟨(20#5 ++ (BitVec.ofBool aq) ++ (BitVec.ofBool rl)), rs2, rs1, 2#3, rd, 47#7⟩
  | .amomaxD rd rs1 rs2 aq rl =>
    ⟨(20#5 ++ (BitVec.ofBool aq) ++ (BitVec.ofBool rl)), rs2, rs1, 3#3, rd, 47#7⟩
  | .amominuW rd rs1 rs2 aq rl =>
    ⟨(24#5 ++ (BitVec.ofBool aq) ++ (BitVec.ofBool rl)), rs2, rs1, 2#3, rd, 47#7⟩
  | .amominuD rd rs1 rs2 aq rl =>
    ⟨(24#5 ++ (BitVec.ofBool aq) ++ (BitVec.ofBool rl)), rs2, rs1, 3#3, rd, 47#7⟩
  | .amomaxuW rd rs1 rs2 aq rl =>
    ⟨(28#5 ++ (BitVec.ofBool aq) ++ (BitVec.ofBool rl)), rs2, rs1, 2#3, rd, 47#7⟩
  | .amomaxuD rd rs1 rs2 aq rl =>
    ⟨(28#5 ++ (BitVec.ofBool aq) ++ (BitVec.ofBool rl)), rs2, rs1, 3#3, rd, 47#7⟩
  | .add rd rs1 rs2 =>
    ⟨0#7, rs2, rs1, 0#3, rd, 51#7⟩
  | .sub rd rs1 rs2 =>
    ⟨32#7, rs2, rs1, 0#3, rd, 51#7⟩
  | .sll rd rs1 rs2 =>
    ⟨0#7, rs2, rs1, 1#3, rd, 51#7⟩
  | .slt rd rs1 rs2 =>
    ⟨0#7, rs2, rs1, 2#3, rd, 51#7⟩
  | .sltu rd rs1 rs2 =>
    ⟨0#7, rs2, rs1, 3#3, rd, 51#7⟩
  | .xor rd rs1 rs2 =>
    ⟨0#7, rs2, rs1, 4#3, rd, 51#7⟩
  | .srl rd rs1 rs2 =>
    ⟨0#7, rs2, rs1, 5#3, rd, 51#7⟩
  | .sra rd rs1 rs2 =>
    ⟨32#7, rs2, rs1, 5#3, rd, 51#7⟩
  | .or rd rs1 rs2 =>
    ⟨0#7, rs2, rs1, 6#3, rd, 51#7⟩
  | .and rd rs1 rs2 =>
    ⟨0#7, rs2, rs1, 7#3, rd, 51#7⟩
  | .mul rd rs1 rs2 =>
    ⟨1#7, rs2, rs1, 0#3, rd, 51#7⟩
  | .mulh rd rs1 rs2 =>
    ⟨1#7, rs2, rs1, 1#3, rd, 51#7⟩
  | .mulhsu rd rs1 rs2 =>
    ⟨1#7, rs2, rs1, 2#3, rd, 51#7⟩
  | .mulhu rd rs1 rs2 =>
    ⟨1#7, rs2, rs1, 3#3, rd, 51#7⟩
  | .div rd rs1 rs2 =>
    ⟨1#7, rs2, rs1, 4#3, rd, 51#7⟩
  | .divu rd rs1 rs2 =>
    ⟨1#7, rs2, rs1, 5#3, rd, 51#7⟩
  | .rem rd rs1 rs2 =>
    ⟨1#7, rs2, rs1, 6#3, rd, 51#7⟩
  | .remu rd rs1 rs2 =>
    ⟨1#7, rs2, rs1, 7#3, rd, 51#7⟩
  | .addw rd rs1 rs2 =>
    ⟨0#7, rs2, rs1, 0#3, rd, 59#7⟩
  | .subw rd rs1 rs2 =>
    ⟨32#7, rs2, rs1, 0#3, rd, 59#7⟩
  | .sllw rd rs1 rs2 =>
    ⟨0#7, rs2, rs1, 1#3, rd, 59#7⟩
  | .srlw rd rs1 rs2 =>
    ⟨0#7, rs2, rs1, 5#3, rd, 59#7⟩
  | .sraw rd rs1 rs2 =>
    ⟨32#7, rs2, rs1, 5#3, rd, 59#7⟩
  | .mulw rd rs1 rs2 =>
    ⟨1#7, rs2, rs1, 0#3, rd, 59#7⟩
  | .divw rd rs1 rs2 =>
    ⟨1#7, rs2, rs1, 4#3, rd, 59#7⟩
  | .divuw rd rs1 rs2 =>
    ⟨1#7, rs2, rs1, 5#3, rd, 59#7⟩
  | .remw rd rs1 rs2 =>
    ⟨1#7, rs2, rs1, 6#3, rd, 59#7⟩
  | .remuw rd rs1 rs2 =>
    ⟨1#7, rs2, rs1, 7#3, rd, 59#7⟩
  | .beq rs1 rs2 imm =>
    ⟨(imm.extractLsb' 11 1 ++ imm.extractLsb' 4 6), rs2, rs1, 0#3, (imm.extractLsb' 0 4 ++ imm.extractLsb' 10 1), 99#7⟩
  | .bne rs1 rs2 imm =>
    ⟨(imm.extractLsb' 11 1 ++ imm.extractLsb' 4 6), rs2, rs1, 1#3, (imm.extractLsb' 0 4 ++ imm.extractLsb' 10 1), 99#7⟩
  | .blt rs1 rs2 imm =>
    ⟨(imm.extractLsb' 11 1 ++ imm.extractLsb' 4 6), rs2, rs1, 4#3, (imm.extractLsb' 0 4 ++ imm.extractLsb' 10 1), 99#7⟩
  | .bge rs1 rs2 imm =>
    ⟨(imm.extractLsb' 11 1 ++ imm.extractLsb' 4 6), rs2, rs1, 5#3, (imm.extractLsb' 0 4 ++ imm.extractLsb' 10 1), 99#7⟩
  | .bltu rs1 rs2 imm =>
    ⟨(imm.extractLsb' 11 1 ++ imm.extractLsb' 4 6), rs2, rs1, 6#3, (imm.extractLsb' 0 4 ++ imm.extractLsb' 10 1), 99#7⟩
  | .bgeu rs1 rs2 imm =>
    ⟨(imm.extractLsb' 11 1 ++ imm.extractLsb' 4 6), rs2, rs1, 7#3, (imm.extractLsb' 0 4 ++ imm.extractLsb' 10 1), 99#7⟩
  | .jalr rd rs1 imm =>
    ⟨(imm.extractLsb' 5 7), (imm.extractLsb' 0 5), rs1, 0#3, rd, 103#7⟩
  | .jal rd imm =>
    ⟨(imm.extractLsb' 19 1 ++ imm.extractLsb' 4 6), (imm.extractLsb' 0 4 ++ imm.extractLsb' 10 1), (imm.extractLsb' 14 5), (imm.extractLsb' 11 3), rd, 111#7⟩
  | .ecall =>
    ⟨0#7, 0#5, 0#5, 0#3, 0#5, 115#7⟩
  | .ebreak =>
    ⟨0#7, 1#5, 0#5, 0#3, 0#5, 115#7⟩
  | .sret =>
    ⟨8#7, 2#5, 0#5, 0#3, 0#5, 115#7⟩
  | .mret =>
    ⟨24#7, 2#5, 0#5, 0#3, 0#5, 115#7⟩
  | .wfi =>
    ⟨8#7, 5#5, 0#5, 0#3, 0#5, 115#7⟩
  | .wrsNto =>
    ⟨0#7, 13#5, 0#5, 0#3, 0#5, 115#7⟩
  | .wrsSto =>
    ⟨0#7, 29#5, 0#5, 0#3, 0#5, 115#7⟩
  | .sfenceVma rs1 rs2 =>
    ⟨9#7, rs2, rs1, 0#3, 0#5, 115#7⟩
  | .csrrw rd rs1 csr =>
    ⟨(csr.extractLsb' 5 7), (csr.extractLsb' 0 5), rs1, 1#3, rd, 115#7⟩
  | .csrrs rd rs1 csr =>
    ⟨(csr.extractLsb' 5 7), (csr.extractLsb' 0 5), rs1, 2#3, rd, 115#7⟩
  | .csrrc rd rs1 csr =>
    ⟨(csr.extractLsb' 5 7), (csr.extractLsb' 0 5), rs1, 3#3, rd, 115#7⟩
  | .csrrwi rd uimm csr =>
    ⟨(csr.extractLsb' 5 7), (csr.extractLsb' 0 5), uimm, 5#3, rd, 115#7⟩
  | .csrrsi rd uimm csr =>
    ⟨(csr.extractLsb' 5 7), (csr.extractLsb' 0 5), uimm, 6#3, rd, 115#7⟩
  | .csrrci rd uimm csr =>
    ⟨(csr.extractLsb' 5 7), (csr.extractLsb' 0 5), uimm, 7#3, rd, 115#7⟩
  | .park =>
    ⟨0#7, 0#5, 0#5, 0#3, 0#5, 11#7⟩
  | .wake rs1 =>
    ⟨8#7, 0#5, rs1, 0#3, 0#5, 11#7⟩
  | .wakeR rs1 =>
    ⟨16#7, 0#5, rs1, 0#3, 0#5, 11#7⟩
  | .pfence scope pred succ =>
    ⟨(6#5 ++ (scopeBits scope)), succ, pred, 0#3, 0#5, 11#7⟩
  | .stop =>
    ⟨32#7, 0#5, 0#5, 0#3, 0#5, 11#7⟩
  | .feEmpty reg =>
    ⟨(0#5 ++ (regRefClass reg)), 0#5, (regRefField reg), 1#3, 0#5, 11#7⟩
  | .feTest rd reg =>
    ⟨(2#5 ++ (regRefClass reg)), 0#5, (regRefField reg), 1#3, rd, 11#7⟩
  | .feWait reg =>
    ⟨(4#5 ++ (regRefClass reg)), 0#5, (regRefField reg), 1#3, 0#5, 11#7⟩
  | .dsb rs1 rs2 rel =>
    ⟨(0#2 ++ (relBit rel) ++ (relScopeBits rel) ++ 0#2), rs2, rs1, 2#3, 0#5, 11#7⟩
  | .dsh rs1 rs2 rel =>
    ⟨(1#2 ++ (relBit rel) ++ (relScopeBits rel) ++ 0#2), rs2, rs1, 2#3, 0#5, 11#7⟩
  | .dsw rs1 rs2 rel =>
    ⟨(2#2 ++ (relBit rel) ++ (relScopeBits rel) ++ 0#2), rs2, rs1, 2#3, 0#5, 11#7⟩
  | .dsd rs1 rs2 rel =>
    ⟨(3#2 ++ (relBit rel) ++ (relScopeBits rel) ++ 0#2), rs2, rs1, 2#3, 0#5, 11#7⟩
  | .dsv rs1 vs2 rel =>
    ⟨(3#2 ++ (relBit rel) ++ (relScopeBits rel) ++ 1#2), (0#1 ++ vs2), rs1, 2#3, 0#5, 11#7⟩
  | .daddW rs1 rs2 rel =>
    ⟨(0#4 ++ (relBit rel) ++ (relScopeBits rel)), rs2, rs1, 3#3, 0#5, 11#7⟩
  | .daddD rs1 rs2 rel =>
    ⟨(1#4 ++ (relBit rel) ++ (relScopeBits rel)), rs2, rs1, 3#3, 0#5, 11#7⟩
  | .dmaxW rs1 rs2 rel =>
    ⟨(2#4 ++ (relBit rel) ++ (relScopeBits rel)), rs2, rs1, 3#3, 0#5, 11#7⟩
  | .dmaxD rs1 rs2 rel =>
    ⟨(3#4 ++ (relBit rel) ++ (relScopeBits rel)), rs2, rs1, 3#3, 0#5, 11#7⟩
  | .dminW rs1 rs2 rel =>
    ⟨(4#4 ++ (relBit rel) ++ (relScopeBits rel)), rs2, rs1, 3#3, 0#5, 11#7⟩
  | .dminD rs1 rs2 rel =>
    ⟨(5#4 ++ (relBit rel) ++ (relScopeBits rel)), rs2, rs1, 3#3, 0#5, 11#7⟩
  | .dmaxuW rs1 rs2 rel =>
    ⟨(6#4 ++ (relBit rel) ++ (relScopeBits rel)), rs2, rs1, 3#3, 0#5, 11#7⟩
  | .dmaxuD rs1 rs2 rel =>
    ⟨(7#4 ++ (relBit rel) ++ (relScopeBits rel)), rs2, rs1, 3#3, 0#5, 11#7⟩
  | .dandW rs1 rs2 rel =>
    ⟨(8#4 ++ (relBit rel) ++ (relScopeBits rel)), rs2, rs1, 3#3, 0#5, 11#7⟩
  | .dandD rs1 rs2 rel =>
    ⟨(9#4 ++ (relBit rel) ++ (relScopeBits rel)), rs2, rs1, 3#3, 0#5, 11#7⟩
  | .dorW rs1 rs2 rel =>
    ⟨(10#4 ++ (relBit rel) ++ (relScopeBits rel)), rs2, rs1, 3#3, 0#5, 11#7⟩
  | .dorD rs1 rs2 rel =>
    ⟨(11#4 ++ (relBit rel) ++ (relScopeBits rel)), rs2, rs1, 3#3, 0#5, 11#7⟩
  | .dxorW rs1 rs2 rel =>
    ⟨(12#4 ++ (relBit rel) ++ (relScopeBits rel)), rs2, rs1, 3#3, 0#5, 11#7⟩
  | .dxorD rs1 rs2 rel =>
    ⟨(13#4 ++ (relBit rel) ++ (relScopeBits rel)), rs2, rs1, 3#3, 0#5, 11#7⟩
  | .cntSet c rs1 =>
    ⟨(0#6 ++ (c.extractLsb' 5 1)), (c.extractLsb' 0 5), rs1, 4#3, 0#5, 11#7⟩
  | .cntAdd c rs1 =>
    ⟨(4#6 ++ (c.extractLsb' 5 1)), (c.extractLsb' 0 5), rs1, 4#3, 0#5, 11#7⟩
  | .cntRd rd c =>
    ⟨(8#6 ++ (c.extractLsb' 5 1)), (c.extractLsb' 0 5), 0#5, 4#3, rd, 11#7⟩
  | .cntWait rd c =>
    ⟨(12#6 ++ (c.extractLsb' 5 1)), (c.extractLsb' 0 5), 0#5, 4#3, rd, 11#7⟩
  | .cntPoll rd c =>
    ⟨(16#6 ++ (c.extractLsb' 5 1)), (c.extractLsb' 0 5), 0#5, 4#3, rd, 11#7⟩
  | .cntMode c rs1 =>
    ⟨(20#6 ++ (c.extractLsb' 5 1)), (c.extractLsb' 0 5), rs1, 4#3, 0#5, 11#7⟩
  | .chs ch rs1 =>
    ⟨(0#4 ++ (ch.extractLsb' 5 3)), (ch.extractLsb' 0 5), rs1, 5#3, 0#5, 11#7⟩
  | .chsv ch vs1 =>
    ⟨(1#4 ++ (ch.extractLsb' 5 3)), (ch.extractLsb' 0 5), (0#1 ++ vs1), 5#3, 0#5, 11#7⟩
  | .chr rd ch =>
    ⟨(2#4 ++ (ch.extractLsb' 5 3)), (ch.extractLsb' 0 5), 0#5, 5#3, rd, 11#7⟩
  | .chrv vd ch =>
    ⟨(3#4 ++ (ch.extractLsb' 5 3)), (ch.extractLsb' 0 5), 0#5, 5#3, (0#1 ++ vd), 11#7⟩
  | .altOn n ch =>
    ⟨(4#4 ++ (ch.extractLsb' 5 3)), (ch.extractLsb' 0 5), 0#5, 5#3, (0#2 ++ n), 11#7⟩
  | .altOff n =>
    ⟨40#7, 0#5, 0#5, 5#3, (0#2 ++ n), 11#7⟩
  | .altWait rd tmo skip =>
    ⟨48#7, 0#5, (0#3 ++ (BitVec.ofBool skip) ++ (BitVec.ofBool tmo)), 5#3, rd, 11#7⟩
  | .altClr =>
    ⟨56#7, 0#5, 0#5, 5#3, 0#5, 11#7⟩
  | .chprobe rd ch =>
    ⟨(8#4 ++ (ch.extractLsb' 5 3)), (ch.extractLsb' 0 5), 0#5, 5#3, rd, 11#7⟩
  | .wbarA b =>
    ⟨(0#4 ++ b), 0#5, 0#5, 6#3, 0#5, 11#7⟩
  | .wbarW rd b =>
    ⟨(1#4 ++ b), 0#5, 0#5, 6#3, rd, 11#7⟩
  | .grpPut g rs1 =>
    ⟨16#7, (0#1 ++ g), rs1, 6#3, 0#5, 11#7⟩
  | .grpGet rd g =>
    ⟨24#7, (0#1 ++ g), 0#5, 6#3, rd, 11#7⟩
  | .mmaFp8 acc rs1 rs2 z =>
    ⟨(0#4 ++ (BitVec.ofBool z) ++ 0#2), rs2, rs1, 0#3, (0#2 ++ acc), 43#7⟩
  | .mmaBf16 acc rs1 rs2 z =>
    ⟨(1#4 ++ (BitVec.ofBool z) ++ 0#2), rs2, rs1, 0#3, (0#2 ++ acc), 43#7⟩
  | .mmaFp16 acc rs1 rs2 z =>
    ⟨(2#4 ++ (BitVec.ofBool z) ++ 0#2), rs2, rs1, 0#3, (0#2 ++ acc), 43#7⟩
  | .mmaMxf8 acc rs1 rs2 z =>
    ⟨(3#4 ++ (BitVec.ofBool z) ++ 0#2), rs2, rs1, 0#3, (0#2 ++ acc), 43#7⟩
  | .mmaMxf4 acc rs1 rs2 z =>
    ⟨(4#4 ++ (BitVec.ofBool z) ++ 0#2), rs2, rs1, 0#3, (0#2 ++ acc), 43#7⟩
  | .mmaDxb8 acc rs1 rs2 z =>
    ⟨(5#4 ++ (BitVec.ofBool z) ++ 0#2), rs2, rs1, 0#3, (0#2 ++ acc), 43#7⟩
  | .mmaDxb4 acc rs1 rs2 z =>
    ⟨(6#4 ++ (BitVec.ofBool z) ++ 0#2), rs2, rs1, 0#3, (0#2 ++ acc), 43#7⟩
  | .mmaI8 acc rs1 rs2 z =>
    ⟨(7#4 ++ (BitVec.ofBool z) ++ 0#2), rs2, rs1, 0#3, (0#2 ++ acc), 43#7⟩
  | .macq acc =>
    ⟨0#7, 0#5, 0#5, 1#3, (0#2 ++ acc), 43#7⟩
  | .mrel acc =>
    ⟨8#7, 0#5, 0#5, 1#3, (0#2 ++ acc), 43#7⟩
  | .mzero acc =>
    ⟨16#7, 0#5, 0#5, 1#3, (0#2 ++ acc), 43#7⟩
  | .mload acc rs1 =>
    ⟨24#7, 0#5, rs1, 1#3, (0#2 ++ acc), 43#7⟩
  | .mdrain acc rs1 rs2 amax =>
    ⟨(4#4 ++ (BitVec.ofBool amax) ++ 0#2), rs2, rs1, 1#3, (0#2 ++ acc), 43#7⟩
  | .mdrainD acc rs1 rs2 amax =>
    ⟨(5#4 ++ (BitVec.ofBool amax) ++ 0#2), rs2, rs1, 1#3, (0#2 ++ acc), 43#7⟩
  | .mdrainQ acc rs1 rs2 amax =>
    ⟨(6#4 ++ (BitVec.ofBool amax) ++ 0#2), rs2, rs1, 1#3, (0#2 ++ acc), 43#7⟩
  | .ceGo rd rs1 =>
    ⟨0#7, 0#5, rs1, 2#3, rd, 43#7⟩
  | .ceWait rd rs1 =>
    ⟨8#7, 0#5, rs1, 2#3, rd, 43#7⟩
  | .ceStat rd rs1 =>
    ⟨16#7, 0#5, rs1, 2#3, rd, 43#7⟩
  | .ceAbort rd rs1 =>
    ⟨24#7, 0#5, rs1, 2#3, rd, 43#7⟩
  | .plGo rd rs1 =>
    ⟨0#7, 0#5, rs1, 3#3, rd, 43#7⟩
  | .plWait rd rs1 =>
    ⟨8#7, 0#5, rs1, 3#3, rd, 43#7⟩
  | .plCancel rd rs1 =>
    ⟨16#7, 0#5, rs1, 3#3, rd, 43#7⟩
  | .plStat rd rs1 =>
    ⟨24#7, 0#5, rs1, 3#3, rd, 43#7⟩
  | .sow rd rs1 =>
    ⟨0#7, 0#5, rs1, 4#3, rd, 43#7⟩
  | .sstop rd rs1 =>
    ⟨8#7, 0#5, rs1, 4#3, rd, 43#7⟩
  | .sresume rd rs1 =>
    ⟨16#7, 0#5, rs1, 4#3, rd, 43#7⟩
  | .skill rd rs1 =>
    ⟨24#7, 0#5, rs1, 4#3, rd, 43#7⟩
  | .ssave rd rs1 rs2 =>
    ⟨32#7, rs2, rs1, 4#3, rd, 43#7⟩
  | .sload rd rs1 rs2 =>
    ⟨40#7, rs2, rs1, 4#3, rd, 43#7⟩
  | .vaddVv vd vs1 vs2 m =>
    ⟨(0#4 ++ m), (0#1 ++ vs2), (0#1 ++ vs1), 0#3, (0#1 ++ vd), 91#7⟩
  | .vaddVx vd vs1 rs2 m =>
    ⟨(0#4 ++ m), rs2, (0#1 ++ vs1), 1#3, (0#1 ++ vd), 91#7⟩
  | .vsubVv vd vs1 vs2 m =>
    ⟨(1#4 ++ m), (0#1 ++ vs2), (0#1 ++ vs1), 0#3, (0#1 ++ vd), 91#7⟩
  | .vsubVx vd vs1 rs2 m =>
    ⟨(1#4 ++ m), rs2, (0#1 ++ vs1), 1#3, (0#1 ++ vd), 91#7⟩
  | .vmulVv vd vs1 vs2 m =>
    ⟨(2#4 ++ m), (0#1 ++ vs2), (0#1 ++ vs1), 0#3, (0#1 ++ vd), 91#7⟩
  | .vmulVx vd vs1 rs2 m =>
    ⟨(2#4 ++ m), rs2, (0#1 ++ vs1), 1#3, (0#1 ++ vd), 91#7⟩
  | .vmulhVv vd vs1 vs2 m =>
    ⟨(3#4 ++ m), (0#1 ++ vs2), (0#1 ++ vs1), 0#3, (0#1 ++ vd), 91#7⟩
  | .vmulhVx vd vs1 rs2 m =>
    ⟨(3#4 ++ m), rs2, (0#1 ++ vs1), 1#3, (0#1 ++ vd), 91#7⟩
  | .vminVv vd vs1 vs2 m =>
    ⟨(4#4 ++ m), (0#1 ++ vs2), (0#1 ++ vs1), 0#3, (0#1 ++ vd), 91#7⟩
  | .vminVx vd vs1 rs2 m =>
    ⟨(4#4 ++ m), rs2, (0#1 ++ vs1), 1#3, (0#1 ++ vd), 91#7⟩
  | .vmaxVv vd vs1 vs2 m =>
    ⟨(5#4 ++ m), (0#1 ++ vs2), (0#1 ++ vs1), 0#3, (0#1 ++ vd), 91#7⟩
  | .vmaxVx vd vs1 rs2 m =>
    ⟨(5#4 ++ m), rs2, (0#1 ++ vs1), 1#3, (0#1 ++ vd), 91#7⟩
  | .vminuVv vd vs1 vs2 m =>
    ⟨(6#4 ++ m), (0#1 ++ vs2), (0#1 ++ vs1), 0#3, (0#1 ++ vd), 91#7⟩
  | .vminuVx vd vs1 rs2 m =>
    ⟨(6#4 ++ m), rs2, (0#1 ++ vs1), 1#3, (0#1 ++ vd), 91#7⟩
  | .vmaxuVv vd vs1 vs2 m =>
    ⟨(7#4 ++ m), (0#1 ++ vs2), (0#1 ++ vs1), 0#3, (0#1 ++ vd), 91#7⟩
  | .vmaxuVx vd vs1 rs2 m =>
    ⟨(7#4 ++ m), rs2, (0#1 ++ vs1), 1#3, (0#1 ++ vd), 91#7⟩
  | .vsaddVv vd vs1 vs2 m =>
    ⟨(8#4 ++ m), (0#1 ++ vs2), (0#1 ++ vs1), 0#3, (0#1 ++ vd), 91#7⟩
  | .vsaddVx vd vs1 rs2 m =>
    ⟨(8#4 ++ m), rs2, (0#1 ++ vs1), 1#3, (0#1 ++ vd), 91#7⟩
  | .vssubVv vd vs1 vs2 m =>
    ⟨(9#4 ++ m), (0#1 ++ vs2), (0#1 ++ vs1), 0#3, (0#1 ++ vd), 91#7⟩
  | .vssubVx vd vs1 rs2 m =>
    ⟨(9#4 ++ m), rs2, (0#1 ++ vs1), 1#3, (0#1 ++ vd), 91#7⟩
  | .vmaccVv vd vs1 vs2 m =>
    ⟨(10#4 ++ m), (0#1 ++ vs2), (0#1 ++ vs1), 0#3, (0#1 ++ vd), 91#7⟩
  | .vmaccVx vd vs1 rs2 m =>
    ⟨(10#4 ++ m), rs2, (0#1 ++ vs1), 1#3, (0#1 ++ vd), 91#7⟩
  | .vfaddVv vd vs1 vs2 m =>
    ⟨(0#4 ++ m), (0#1 ++ vs2), (0#1 ++ vs1), 2#3, (0#1 ++ vd), 91#7⟩
  | .vfaddVx vd vs1 rs2 m =>
    ⟨(0#4 ++ m), rs2, (0#1 ++ vs1), 3#3, (0#1 ++ vd), 91#7⟩
  | .vfsubVv vd vs1 vs2 m =>
    ⟨(1#4 ++ m), (0#1 ++ vs2), (0#1 ++ vs1), 2#3, (0#1 ++ vd), 91#7⟩
  | .vfsubVx vd vs1 rs2 m =>
    ⟨(1#4 ++ m), rs2, (0#1 ++ vs1), 3#3, (0#1 ++ vd), 91#7⟩
  | .vfmulVv vd vs1 vs2 m =>
    ⟨(2#4 ++ m), (0#1 ++ vs2), (0#1 ++ vs1), 2#3, (0#1 ++ vd), 91#7⟩
  | .vfmulVx vd vs1 rs2 m =>
    ⟨(2#4 ++ m), rs2, (0#1 ++ vs1), 3#3, (0#1 ++ vd), 91#7⟩
  | .vfminVv vd vs1 vs2 m =>
    ⟨(3#4 ++ m), (0#1 ++ vs2), (0#1 ++ vs1), 2#3, (0#1 ++ vd), 91#7⟩
  | .vfminVx vd vs1 rs2 m =>
    ⟨(3#4 ++ m), rs2, (0#1 ++ vs1), 3#3, (0#1 ++ vd), 91#7⟩
  | .vfmaxVv vd vs1 vs2 m =>
    ⟨(4#4 ++ m), (0#1 ++ vs2), (0#1 ++ vs1), 2#3, (0#1 ++ vd), 91#7⟩
  | .vfmaxVx vd vs1 rs2 m =>
    ⟨(4#4 ++ m), rs2, (0#1 ++ vs1), 3#3, (0#1 ++ vd), 91#7⟩
  | .vfmaccVv vd vs1 vs2 m =>
    ⟨(8#4 ++ m), (0#1 ++ vs2), (0#1 ++ vs1), 2#3, (0#1 ++ vd), 91#7⟩
  | .vfmaccVx vd vs1 rs2 m =>
    ⟨(8#4 ++ m), rs2, (0#1 ++ vs1), 3#3, (0#1 ++ vd), 91#7⟩
  | .vfnmsacVv vd vs1 vs2 m =>
    ⟨(9#4 ++ m), (0#1 ++ vs2), (0#1 ++ vs1), 2#3, (0#1 ++ vd), 91#7⟩
  | .vfnmsacVx vd vs1 rs2 m =>
    ⟨(9#4 ++ m), rs2, (0#1 ++ vs1), 3#3, (0#1 ++ vd), 91#7⟩
  | .vmseqVv md vs1 vs2 m =>
    ⟨(0#4 ++ m), (0#1 ++ vs2), (0#1 ++ vs1), 4#3, (0#2 ++ md), 91#7⟩
  | .vmseqVx md vs1 rs2 m =>
    ⟨(0#4 ++ m), rs2, (0#1 ++ vs1), 5#3, (0#2 ++ md), 91#7⟩
  | .vmsneVv md vs1 vs2 m =>
    ⟨(1#4 ++ m), (0#1 ++ vs2), (0#1 ++ vs1), 4#3, (0#2 ++ md), 91#7⟩
  | .vmsneVx md vs1 rs2 m =>
    ⟨(1#4 ++ m), rs2, (0#1 ++ vs1), 5#3, (0#2 ++ md), 91#7⟩
  | .vmsltVv md vs1 vs2 m =>
    ⟨(2#4 ++ m), (0#1 ++ vs2), (0#1 ++ vs1), 4#3, (0#2 ++ md), 91#7⟩
  | .vmsltVx md vs1 rs2 m =>
    ⟨(2#4 ++ m), rs2, (0#1 ++ vs1), 5#3, (0#2 ++ md), 91#7⟩
  | .vmsltuVv md vs1 vs2 m =>
    ⟨(3#4 ++ m), (0#1 ++ vs2), (0#1 ++ vs1), 4#3, (0#2 ++ md), 91#7⟩
  | .vmsltuVx md vs1 rs2 m =>
    ⟨(3#4 ++ m), rs2, (0#1 ++ vs1), 5#3, (0#2 ++ md), 91#7⟩
  | .vmfeqVv md vs1 vs2 m =>
    ⟨(4#4 ++ m), (0#1 ++ vs2), (0#1 ++ vs1), 4#3, (0#2 ++ md), 91#7⟩
  | .vmfeqVx md vs1 rs2 m =>
    ⟨(4#4 ++ m), rs2, (0#1 ++ vs1), 5#3, (0#2 ++ md), 91#7⟩
  | .vmfltVv md vs1 vs2 m =>
    ⟨(5#4 ++ m), (0#1 ++ vs2), (0#1 ++ vs1), 4#3, (0#2 ++ md), 91#7⟩
  | .vmfltVx md vs1 rs2 m =>
    ⟨(5#4 ++ m), rs2, (0#1 ++ vs1), 5#3, (0#2 ++ md), 91#7⟩
  | .vmfleVv md vs1 vs2 m =>
    ⟨(6#4 ++ m), (0#1 ++ vs2), (0#1 ++ vs1), 4#3, (0#2 ++ md), 91#7⟩
  | .vmfleVx md vs1 rs2 m =>
    ⟨(6#4 ++ m), rs2, (0#1 ++ vs1), 5#3, (0#2 ++ md), 91#7⟩
  | .vandVv vd vs1 vs2 m =>
    ⟨(0#4 ++ m), (0#1 ++ vs2), (0#1 ++ vs1), 6#3, (0#1 ++ vd), 91#7⟩
  | .vandVx vd vs1 rs2 m =>
    ⟨(0#4 ++ m), rs2, (0#1 ++ vs1), 7#3, (0#1 ++ vd), 91#7⟩
  | .vorVv vd vs1 vs2 m =>
    ⟨(1#4 ++ m), (0#1 ++ vs2), (0#1 ++ vs1), 6#3, (0#1 ++ vd), 91#7⟩
  | .vorVx vd vs1 rs2 m =>
    ⟨(1#4 ++ m), rs2, (0#1 ++ vs1), 7#3, (0#1 ++ vd), 91#7⟩
  | .vxorVv vd vs1 vs2 m =>
    ⟨(2#4 ++ m), (0#1 ++ vs2), (0#1 ++ vs1), 6#3, (0#1 ++ vd), 91#7⟩
  | .vxorVx vd vs1 rs2 m =>
    ⟨(2#4 ++ m), rs2, (0#1 ++ vs1), 7#3, (0#1 ++ vd), 91#7⟩
  | .vsllVv vd vs1 vs2 m =>
    ⟨(3#4 ++ m), (0#1 ++ vs2), (0#1 ++ vs1), 6#3, (0#1 ++ vd), 91#7⟩
  | .vsllVx vd vs1 rs2 m =>
    ⟨(3#4 ++ m), rs2, (0#1 ++ vs1), 7#3, (0#1 ++ vd), 91#7⟩
  | .vsrlVv vd vs1 vs2 m =>
    ⟨(4#4 ++ m), (0#1 ++ vs2), (0#1 ++ vs1), 6#3, (0#1 ++ vd), 91#7⟩
  | .vsrlVx vd vs1 rs2 m =>
    ⟨(4#4 ++ m), rs2, (0#1 ++ vs1), 7#3, (0#1 ++ vd), 91#7⟩
  | .vsraVv vd vs1 vs2 m =>
    ⟨(5#4 ++ m), (0#1 ++ vs2), (0#1 ++ vs1), 6#3, (0#1 ++ vd), 91#7⟩
  | .vsraVx vd vs1 rs2 m =>
    ⟨(5#4 ++ m), rs2, (0#1 ++ vs1), 7#3, (0#1 ++ vd), 91#7⟩
  | .vle vd rs1 m =>
    ⟨(0#4 ++ m), 0#5, rs1, 0#3, (0#1 ++ vd), 123#7⟩
  | .vlse vd rs1 rs2 m =>
    ⟨(1#4 ++ m), rs2, rs1, 0#3, (0#1 ++ vd), 123#7⟩
  | .vlxe vd rs1 vs2 m =>
    ⟨(2#4 ++ m), (0#1 ++ vs2), rs1, 0#3, (0#1 ++ vd), 123#7⟩
  | .vse vs rs1 m =>
    ⟨(4#4 ++ m), 0#5, rs1, 0#3, (0#1 ++ vs), 123#7⟩
  | .vsse vs rs1 rs2 m =>
    ⟨(5#4 ++ m), rs2, rs1, 0#3, (0#1 ++ vs), 123#7⟩
  | .vsxe vs rs1 vs2 m =>
    ⟨(6#4 ++ m), (0#1 ++ vs2), rs1, 0#3, (0#1 ++ vs), 123#7⟩
  | .vcvt vd vs1 code m =>
    ⟨(0#4 ++ m), code, (0#1 ++ vs1), 1#3, (0#1 ++ vd), 123#7⟩
  | .vqnt vd vs1 code =>
    ⟨8#7, code, (0#1 ++ vs1), 1#3, (0#1 ++ vd), 123#7⟩
  | .vdeq vd vs1 code =>
    ⟨16#7, code, (0#1 ++ vs1), 1#3, (0#1 ++ vd), 123#7⟩
  | .vfcvti vd vs1 m =>
    ⟨(3#4 ++ m), 0#5, (0#1 ++ vs1), 1#3, (0#1 ++ vd), 123#7⟩
  | .vicvtf vd vs1 m =>
    ⟨(4#4 ++ m), 0#5, (0#1 ++ vs1), 1#3, (0#1 ++ vd), 123#7⟩
  | .vexp2 vd vs1 m =>
    ⟨(0#4 ++ m), 0#5, (0#1 ++ vs1), 2#3, (0#1 ++ vd), 123#7⟩
  | .vlog2 vd vs1 m =>
    ⟨(1#4 ++ m), 0#5, (0#1 ++ vs1), 2#3, (0#1 ++ vd), 123#7⟩
  | .vrcp vd vs1 m =>
    ⟨(2#4 ++ m), 0#5, (0#1 ++ vs1), 2#3, (0#1 ++ vd), 123#7⟩
  | .vrsqrt vd vs1 m =>
    ⟨(3#4 ++ m), 0#5, (0#1 ++ vs1), 2#3, (0#1 ++ vd), 123#7⟩
  | .vtanh vd vs1 m =>
    ⟨(4#4 ++ m), 0#5, (0#1 ++ vs1), 2#3, (0#1 ++ vd), 123#7⟩
  | .vredsum rd vs1 m =>
    ⟨(0#4 ++ m), 0#5, (0#1 ++ vs1), 3#3, rd, 123#7⟩
  | .vfredsum rd vs1 m =>
    ⟨(1#4 ++ m), 0#5, (0#1 ++ vs1), 3#3, rd, 123#7⟩
  | .vredmax rd vs1 m =>
    ⟨(2#4 ++ m), 0#5, (0#1 ++ vs1), 3#3, rd, 123#7⟩
  | .vfredmax rd vs1 m =>
    ⟨(3#4 ++ m), 0#5, (0#1 ++ vs1), 3#3, rd, 123#7⟩
  | .vfredamax rd vs1 m =>
    ⟨(4#4 ++ m), 0#5, (0#1 ++ vs1), 3#3, rd, 123#7⟩
  | .vslideup vd vs1 rs2 m =>
    ⟨(0#4 ++ m), rs2, (0#1 ++ vs1), 4#3, (0#1 ++ vd), 123#7⟩
  | .vslidedown vd vs1 rs2 m =>
    ⟨(1#4 ++ m), rs2, (0#1 ++ vs1), 4#3, (0#1 ++ vd), 123#7⟩
  | .vgather vd vs1 vs2 m =>
    ⟨(2#4 ++ m), (0#1 ++ vs2), (0#1 ++ vs1), 4#3, (0#1 ++ vd), 123#7⟩
  | .vbcast vd rs1 m =>
    ⟨(3#4 ++ m), 0#5, rs1, 4#3, (0#1 ++ vd), 123#7⟩
  | .vext rd vs1 rs2 =>
    ⟨32#7, rs2, (0#1 ++ vs1), 4#3, rd, 123#7⟩
  | .vcompress vd vs1 ms2 =>
    ⟨40#7, (0#2 ++ ms2), (0#1 ++ vs1), 4#3, (0#1 ++ vd), 123#7⟩
  | .vmand md ms1 ms2 =>
    ⟨0#7, (0#2 ++ ms2), (0#2 ++ ms1), 5#3, (0#2 ++ md), 123#7⟩
  | .vmor md ms1 ms2 =>
    ⟨8#7, (0#2 ++ ms2), (0#2 ++ ms1), 5#3, (0#2 ++ md), 123#7⟩
  | .vmnot md ms1 =>
    ⟨16#7, 0#5, (0#2 ++ ms1), 5#3, (0#2 ++ md), 123#7⟩
  | .vmpop rd ms1 =>
    ⟨24#7, 0#5, (0#2 ++ ms1), 5#3, rd, 123#7⟩
  | .vmfirst rd ms1 =>
    ⟨32#7, 0#5, (0#2 ++ ms1), 5#3, rd, 123#7⟩
  | .vmerge vd vs1 vs2 m =>
    ⟨(5#4 ++ m), (0#1 ++ vs2), (0#1 ++ vs1), 5#3, (0#1 ++ vd), 123#7⟩
  | .vcfg rd rs1 =>
    ⟨0#7, 0#5, rs1, 6#3, rd, 123#7⟩

/-- The word of an instruction. -/
def encode (i : Instr) : BitVec 32 := joinWord (encodeFields i)

/-- The instruction whose `nbits` bits are `w`, numbered as the opcode table numbers them. Every encoded row is one 32-bit
little-endian word (R9), so bit 0 of the table is bit 0 of the word; a row without bits names no word. -/
noncomputable def decodeTableWord (nbits w : Nat) : Option Instr :=
  if nbits = 0 ∨ 32 < nbits then none
  else
    match decode (BitVec.ofNat 32 (w % 2 ^ nbits)) with
    | .ok i => some i
    | .error _ => none

end Sys2Proof
end

