-- ==== Sys2Proof/Machine/Fetch.lean ====
section
/-! DEFINITION. Fetching an instruction's word (R9, R44, R78, R79, R82, R344). -/

namespace Sys2Proof.Machine

/-- The instruction a word stands for; a word that decodes to none is the illegal-instruction event of that word (R25). -/
noncomputable def instrOf (w : BitVec 32) : Instr :=
  match decode w with
  | .ok i => i
  | .error _ => .illegalInstruction w

/-- A PARKED slot at its issue cycle: a `park` that has waited for the limit of `wtmo` reaches it (R51), in the runs of R180 and R181 too
(log 75). -/
def State.parkedTurn (s : State) (c i : Nat) : State :=
  let t := s.slot c i
  match t.wait with
  | some w =>
    if t.limit ≠ 0 ∧ w.since + t.limit ≤ s.cycle then s.schedule s.cycle 4 (.event (.wtmoLimit c i w.serial)) else s
  | none => s

/-- The issue cycle of a slot (R69 to R72): the next one is due a rotation later, unless the slot is STOPPED or its core halted; a
slot that may issue, and that no wake of this very cycle released (R56), fetches its word, and a fetch that fails raises cause 1. -/
noncomputable def State.turn (s : State) (c i : Nat) : Option Instr × State :=
  let t := s.slot c i
  if s.halted c ∨ t.st = .stopped then (none, s)
  else
    let s := s.schedule (s.cycle + 16) 3 (.issue c i)
    let s := { s with
      curCore := c
      curSlot := i }
    if t.hold then (none, s)
    else if s.cycle < t.issueFrom then (none, s)
    else if t.mem.isSome then (none, if t.st = .ready then s.modSlot c i fun t => { t with st := .blocked } else s)
    else
      match t.st with
      | .parked => (none, s.parkedTurn c i)
      | .ready | .blocked =>
        match s.fetchAt c i with
        | .error x => (none, s.trap 1 t.pc x)
        | .ok w => (some (instrOf w), { s.fillFetch c i with curWord := w })
      | _ => (none, s)

/-- The instruction at the pc of a slot whose restored wait is to be named (R230, R353), as if it issued. -/
noncomputable def State.retest (s : State) (c i : Nat) : Option Instr × State :=
  let t := s.slot c i
  if t.waitKind ≠ some .resumed ∨ t.st ≠ .blocked ∨ t.hold then (none, s)
  else
    match s.fetchAt c i with
    | .error _ => (none, s)
    | .ok w => (some (instrOf w), { s with curCore := c, curSlot := i, curWord := w })

/-- What a retest of a restored wait leaves: the wait it has named if that makes the slot a node and nothing else was done, and otherwise the
state before it, from which the slot goes on at its next issue cycle. The release has counted the return to the wait, so that naming it counts
nothing (R231; log 91). -/
def State.retested (s : State) (c i : Nat) (o : Out) : State :=
  match o with
  | .next u =>
    if (u.slot c i).nodeKey.isSome ∧ (u.core c).eps = (s.core c).eps then
      u.modSlot c i fun t => { t with bseq := (s.slot c i).bseq }
    else s
  | _ => s

end Sys2Proof.Machine
end

