-- ==== Sys2Proof/Machine/LoadStore.lean ====
section
/-! DEFINITION. Scalar loads and stores (R38 to R40), load-reserved and store-conditional (R42), AMOs (R41), `fence` (R44). -/

namespace Sys2Proof.Machine

/-- A load (R40): a local one reads at its bank grant, a global one leaves its destination EMPTY until its data returns. -/
def loadOp (n : Nat) (signed : Bool) (rd rs1 : BitVec 5) (imm : BitVec 12) (s : State) : State :=
  readWrite [.x rs1] (.x rd) s fun s =>
    let ea := s.x rs1 + imm12 imm
    if ea.toNat % n ≠ 0 then s.trap 4 ea
    else withAddress ea .read n 0 (n == 8) s
      (fun a s => localAccess (.load n signed rd) a [(a, n)] 0 s)
      (fun a s => globalAccess (if bitsOf a 48 8 = 15 then .mmioLoad else .load n signed) a
        (if rd = 0 then none else some (.x rd)) s State.retire)

/-- A store (R40): a global one is posted. -/
def storeOp (n : Nat) (rs1 rs2 : BitVec 5) (imm : BitVec 12) (s : State) : State :=
  reading [.x rs1, .x rs2] s fun s =>
    let ea := s.x rs1 + imm12 imm
    if ea.toNat % n ≠ 0 then s.trap 6 ea
    else withAddress ea .write n 1 (n == 8) s
      (fun a s => localAccess (.store n (s.x rs2)) a [(a, n)] 0 s)
      (fun a s => globalAccess (if bitsOf a 48 8 = 15 then .mmioStore (s.x rs2) else .store n (s.x rs2)) a none s State.retire)

/-- The hold of an `rl` (R41): the slot waits until its earlier accesses to targets within the scope are performed (log 17), without a
limit: the model's choice (log 109). -/
def releasing (rl : Bool) (sc : Scope) (s : State) (k : State → State) : State :=
  if rl ∧ s.me.accsWithin allPaths sc ≠ [] then s.block .unlimited else k s

/-- Load-reserved (R42): a global address raises cause 5. -/
def lrOp (n : Nat) (rd rs1 : BitVec 5) (rl : Bool) (s : State) : State :=
  readWrite [.x rs1] (.x rd) s fun s =>
    let ea := s.x rs1
    if ea.toNat % n ≠ 0 then s.trap 4 ea
    else if localSize ≤ ea.toNat then s.trap 5 ea
    else match s.localFault .read ea.toNat n with
      | some f => s.trap 5 (BitVec.ofNat 64 f)
      | none => releasing rl .core s fun s => localAccess (.lr n rd) ea.toNat [(ea.toNat, n)] 0 s

/-- Store-conditional (R42): a global address raises cause 7. -/
def scOp (n : Nat) (rd rs1 rs2 : BitVec 5) (rl : Bool) (s : State) : State :=
  readWrite [.x rs1, .x rs2] (.x rd) s fun s =>
    let ea := s.x rs1
    if ea.toNat % n ≠ 0 then s.trap 6 ea
    else if localSize ≤ ea.toNat then s.trap 7 ea
    else match s.localFault .write ea.toNat n with
      | some f => s.trap 7 (BitVec.ofNat 64 f)
      | none => releasing rl .core s fun s => localAccess (.sc n (s.x rs2) rd) ea.toNat [(ea.toNat, n)] 0 s

/-- Holds every later access of the issuing slot until its latest access is performed (R41). -/
def State.acquiring (s : State) (aq : Bool) : State :=
  if aq then s.modMe fun t => { t with aqs := t.aqs ++ (t.accs.getLast?.map (·.id)).toList } else s

/-- An AMO (R41): the local alias and HBM perform it where its target lives; elsewhere it raises cause 7. A local AMO is performed
before the slot's next issue, so its `aq` holds nothing. -/
def amoOp (op : AtomicOp) (n : Nat) (rd rs1 rs2 : BitVec 5) (aq rl : Bool) (s : State) : State :=
  readWrite [.x rs1, .x rs2] (.x rd) s fun s =>
    let ea := s.x rs1
    if ea.toNat % n ≠ 0 then s.trap 6 ea
    else withAddress ea .write n 1 false s
      (fun a s => releasing rl .core s fun s => localAccess (.amo n op (s.x rs2) rd) a [(a, n)] 0 s)
      (fun a s =>
        if bitsOf a 48 8 ≠ 1 then s.trap 7 ea
        else releasing rl (s.physScope a) s fun s =>
          globalAccess (.amo n op (s.x rs2)) a (if rd = 0 then none else some (.x rd)) s fun s =>
            (s.acquiring aq).retire)

/-- The fence of the issuing slot (R59): the accesses of the slot on the predecessor paths within the scope hold its later accesses
on the successor paths within it. One fence is pending at a time. -/
def fenceOp (scope : Scope) (pred succ : BitVec 5) (s : State) : State :=
  if s.me.fence.isSome then s.block .unlimited
  else
    let l := s.me.accsWithin pred scope
    (if l.isEmpty then s
     else s.modMe fun t => { t with fence := some { awaited := l, succ := succ, scope := scope } }).retire

/-- FENCE executes as `pfence.domain loc|glb, loc|glb`, whatever its masks (R44). -/
def execFence (_fm : Bool) (_pred _succ : BitVec 4) (s : State) : Out := ok (fenceOp .domain 3 3 s)

/-- LB (R40). -/
def execLb (rd rs1 : BitVec 5) (imm : BitVec 12) (s : State) : Out := ok (loadOp 1 true rd rs1 imm s)

/-- LH (R40). -/
def execLh (rd rs1 : BitVec 5) (imm : BitVec 12) (s : State) : Out := ok (loadOp 2 true rd rs1 imm s)

/-- LW (R40). -/
def execLw (rd rs1 : BitVec 5) (imm : BitVec 12) (s : State) : Out := ok (loadOp 4 true rd rs1 imm s)

/-- LD (R40). -/
def execLd (rd rs1 : BitVec 5) (imm : BitVec 12) (s : State) : Out := ok (loadOp 8 true rd rs1 imm s)

/-- LBU (R40). -/
def execLbu (rd rs1 : BitVec 5) (imm : BitVec 12) (s : State) : Out := ok (loadOp 1 false rd rs1 imm s)

/-- LHU (R40). -/
def execLhu (rd rs1 : BitVec 5) (imm : BitVec 12) (s : State) : Out := ok (loadOp 2 false rd rs1 imm s)

/-- LWU (R40). -/
def execLwu (rd rs1 : BitVec 5) (imm : BitVec 12) (s : State) : Out := ok (loadOp 4 false rd rs1 imm s)

/-- SB (R40). -/
def execSb (rs1 rs2 : BitVec 5) (imm : BitVec 12) (s : State) : Out := ok (storeOp 1 rs1 rs2 imm s)

/-- SH (R40). -/
def execSh (rs1 rs2 : BitVec 5) (imm : BitVec 12) (s : State) : Out := ok (storeOp 2 rs1 rs2 imm s)

/-- SW (R40). -/
def execSw (rs1 rs2 : BitVec 5) (imm : BitVec 12) (s : State) : Out := ok (storeOp 4 rs1 rs2 imm s)

/-- SD (R40). -/
def execSd (rs1 rs2 : BitVec 5) (imm : BitVec 12) (s : State) : Out := ok (storeOp 8 rs1 rs2 imm s)

/-- LR_W (R42). -/
def execLrW (rd rs1 : BitVec 5) (_aq rl : Bool) (s : State) : Out := ok (lrOp 4 rd rs1 rl s)

/-- SC_W (R42). -/
def execScW (rd rs1 rs2 : BitVec 5) (_aq rl : Bool) (s : State) : Out := ok (scOp 4 rd rs1 rs2 rl s)

/-- LR_D (R42). -/
def execLrD (rd rs1 : BitVec 5) (_aq rl : Bool) (s : State) : Out := ok (lrOp 8 rd rs1 rl s)

/-- SC_D (R42). -/
def execScD (rd rs1 rs2 : BitVec 5) (_aq rl : Bool) (s : State) : Out := ok (scOp 8 rd rs1 rs2 rl s)

/-- AMOSWAP_W (R41). -/
def execAmoswapW (rd rs1 rs2 : BitVec 5) (aq rl : Bool) (s : State) : Out := ok (amoOp .swap 4 rd rs1 rs2 aq rl s)

/-- AMOSWAP_D (R41). -/
def execAmoswapD (rd rs1 rs2 : BitVec 5) (aq rl : Bool) (s : State) : Out := ok (amoOp .swap 8 rd rs1 rs2 aq rl s)

/-- AMOADD_W (R41). -/
def execAmoaddW (rd rs1 rs2 : BitVec 5) (aq rl : Bool) (s : State) : Out := ok (amoOp .add 4 rd rs1 rs2 aq rl s)

/-- AMOADD_D (R41). -/
def execAmoaddD (rd rs1 rs2 : BitVec 5) (aq rl : Bool) (s : State) : Out := ok (amoOp .add 8 rd rs1 rs2 aq rl s)

/-- AMOXOR_W (R41). -/
def execAmoxorW (rd rs1 rs2 : BitVec 5) (aq rl : Bool) (s : State) : Out := ok (amoOp .xor 4 rd rs1 rs2 aq rl s)

/-- AMOXOR_D (R41). -/
def execAmoxorD (rd rs1 rs2 : BitVec 5) (aq rl : Bool) (s : State) : Out := ok (amoOp .xor 8 rd rs1 rs2 aq rl s)

/-- AMOAND_W (R41). -/
def execAmoandW (rd rs1 rs2 : BitVec 5) (aq rl : Bool) (s : State) : Out := ok (amoOp .and 4 rd rs1 rs2 aq rl s)

/-- AMOAND_D (R41). -/
def execAmoandD (rd rs1 rs2 : BitVec 5) (aq rl : Bool) (s : State) : Out := ok (amoOp .and 8 rd rs1 rs2 aq rl s)

/-- AMOOR_W (R41). -/
def execAmoorW (rd rs1 rs2 : BitVec 5) (aq rl : Bool) (s : State) : Out := ok (amoOp .or 4 rd rs1 rs2 aq rl s)

/-- AMOOR_D (R41). -/
def execAmoorD (rd rs1 rs2 : BitVec 5) (aq rl : Bool) (s : State) : Out := ok (amoOp .or 8 rd rs1 rs2 aq rl s)

/-- AMOMIN_W (R41). -/
def execAmominW (rd rs1 rs2 : BitVec 5) (aq rl : Bool) (s : State) : Out := ok (amoOp .min 4 rd rs1 rs2 aq rl s)

/-- AMOMIN_D (R41). -/
def execAmominD (rd rs1 rs2 : BitVec 5) (aq rl : Bool) (s : State) : Out := ok (amoOp .min 8 rd rs1 rs2 aq rl s)

/-- AMOMAX_W (R41). -/
def execAmomaxW (rd rs1 rs2 : BitVec 5) (aq rl : Bool) (s : State) : Out := ok (amoOp .max 4 rd rs1 rs2 aq rl s)

/-- AMOMAX_D (R41). -/
def execAmomaxD (rd rs1 rs2 : BitVec 5) (aq rl : Bool) (s : State) : Out := ok (amoOp .max 8 rd rs1 rs2 aq rl s)

/-- AMOMINU_W (R41). -/
def execAmominuW (rd rs1 rs2 : BitVec 5) (aq rl : Bool) (s : State) : Out := ok (amoOp .minu 4 rd rs1 rs2 aq rl s)

/-- AMOMINU_D (R41). -/
def execAmominuD (rd rs1 rs2 : BitVec 5) (aq rl : Bool) (s : State) : Out := ok (amoOp .minu 8 rd rs1 rs2 aq rl s)

/-- AMOMAXU_W (R41). -/
def execAmomaxuW (rd rs1 rs2 : BitVec 5) (aq rl : Bool) (s : State) : Out := ok (amoOp .maxu 4 rd rs1 rs2 aq rl s)

/-- AMOMAXU_D (R41). -/
def execAmomaxuD (rd rs1 rs2 : BitVec 5) (aq rl : Bool) (s : State) : Out := ok (amoOp .maxu 8 rd rs1 rs2 aq rl s)

end Sys2Proof.Machine
end

