-- ==== Sys2Proof/Machine/SlotCtl.lean ====
section
/-! DEFINITION. Slot control (R43, R56 to R61): parking and waking, the path fence, `stop`, the full/empty instructions, the waits on a
reservation. -/

namespace Sys2Proof.Machine

/-- `park` and `wfi` (R45, R56): a token completes them, otherwise the slot is PARKED. -/
def parkOp (s : State) : State :=
  if s.me.token then (s.modMe fun t => { t with token := false }).retire
  else
    let (n, s) := s.fresh
    s.modMe fun t => { t with
      st := .parked
      wait := some { kind := .park, since := s.cycle, serial := n } }

/-- PARK (R56). -/
def execPark (s : State) : Out := ok (parkOp s)

/-- WFI executes as `park` (R45). -/
def execWfi (s : State) : Out := ok (parkOp s)

/-- WAKE (R57): user code cannot wake the service slot. -/
def execWake (rs1 : BitVec 5) (s : State) : Out :=
  ok (reading [.x rs1] s fun s =>
    let t := field (s.x rs1) 0 4
    let user := s.me.mode == .u
    let s := s.retire
    if user ∧ t = 15 then s else s.wake s.curCore t)

/-- PFENCE (R59). -/
def execPfence (scope : Scope) (pred succ : BitVec 5) (s : State) : Out := ok (fenceOp scope pred succ s)

/-- Whether the tensor unit or a drain buffer still works for a slot (R60). -/
def Core.tensorBusy (k : Core) (i : Nat) : Bool :=
  k.tq.any (fun o => o.slot == i) || k.trun.any (fun r => r.op.slot == i) || k.drains.any fun d => d.slot == i && d.left != 0

/-- STOP (R60): it waits for the slot's fence, its GLB accesses, its `mma` and its drains, and ends the process. -/
def execStop (s : State) : Out :=
  ok (if s.curSlot = 15 then s.illegal
    else if s.me.fence.isSome ∨ (s.me.accs.any fun a => a.path == .glb) ∨ s.here.tensorBusy s.curSlot then s.block .unlimited
    else s.endProcess s.curCore s.curSlot)

/-- An instruction that names a register without reading it: an accumulator must be the slot's own (R61). -/
def naming (r : RegRef) (s : State) (k : State → State) : State :=
  match r with
  | .acc n => if (s.here.getAcc n).owner = some s.curSlot then k s else s.trap 28 (n.setWidth 64)
  | _ => k s

/-- FE_EMPTY (R61): once no producer is outstanding the register is EMPTY with its value kept. -/
def execFeEmpty (reg : RegRef) (s : State) : Out :=
  ok (naming reg s fun s =>
    writing reg s fun s => (s.markReg s.curCore s.curSlot reg { fe := .empty, prod := none }).retire)

/-- The code of `fe.test` (R61). -/
def RegSt.testCode (g : RegSt) : Word :=
  BitVec.ofNat 64 ((match g.fe with | .full => 0 | .empty => 1 | .poisoned => 2) + bit g.prod.isSome * 4)

/-- FE_TEST (R61). -/
def execFeTest (rd : BitVec 5) (reg : RegRef) (s : State) : Out :=
  ok (naming reg s fun s => writing (.x rd) s fun s => s.finishX rd (s.regState reg).testCode)

/-- FE_WAIT (R61). -/
def execFeWait (reg : RegRef) (s : State) : Out :=
  ok (naming reg s fun s => if (s.regState reg).fe = .empty then s.block (.feWait reg) else s.retire)

/-- WRS_NTO (R43): it completes when the slot holds no reservation, or at the limit. -/
def execWrsNto (s : State) : Out := ok (if s.me.resv.isNone then s.retire else s.block .wrsNto)

/-- WRS_STO (R43): as WRS_NTO, or when 1,024 cycles have passed. -/
def execWrsSto (s : State) : Out := ok (if s.me.resv.isNone then s.retire else s.block .wrsSto)

end Sys2Proof.Machine
end

