-- ==== Sys2Proof/Machine/SlotSys.lean ====
section
/-! DEFINITION. The service slot's control of other slots (R72, R278, R294, R296, R297): hold, release, kill, save and load. -/

namespace Sys2Proof.Machine

/-- A slot instruction (R294): illegal in U-mode; its sources are read and its destination is written; the target must not be the
service slot or the issuing slot (code 2) and must hold a process (code 1). -/
def slotsys (rd : BitVec 5) (srcs : List RegRef) (rs1 : BitVec 5) (s : State) (k : Nat → State → State) : State :=
  if s.me.mode = .u then s.illegal
  else readWrite srcs (.x rd) s fun s =>
    let t := field (s.x rs1) 0 4
    if t = 15 ∨ t = s.curSlot then s.finishX rd 2
    else if (s.slot s.curCore t).st = .stopped then s.finishX rd 1
    else k t s

/-- Marks the accumulator of an abandoned `mma` EMPTY, with no producer (R296). -/
def Core.abandonAcc (k : Core) (n : Nat) : Core :=
  k.modAcc (BitVec.ofNat 3 n) fun a => { a with reg := { fe := .empty, prod := none } }

/-! ### Hold and release -/

/-- `sstop` of a slot (R72, R278, R296). A queued `mma` that was stopped before and has not restarted keeps the slices it has done:
its accumulator holds their sum. -/
def State.holdSlot (s : State) (c i : Nat) : State :=
  if (s.slot c i).hold then s
  else
    let mine := (s.core c).tq.filter fun o => o.slot == i
    let s := s.modNode c i fun t => { t with
      hold := true
      resv := none
      stopped := t.stopped ++ mine }
    s.modCore c fun k => { k with
      tq := k.tq.filter fun o => o.slot != i
      trun := k.trun.map fun r => if r.op.slot = i then { r with cut := some s.cycle } else r }

/-- SSTOP (R296). -/
def execSstop (rd rs1 : BitVec 5) (s : State) : Out :=
  ok (slotsys rd [.x rs1] rs1 s fun t s => (s.finishX rd 0).holdSlot s.curCore t)

/-- SRESUME (R296): after the trap-queue records of its cycle (R73 step 3). -/
def execSresume (rd rs1 : BitVec 5) (s : State) : Out :=
  ok (slotsys rd [.x rs1] rs1 s fun t s =>
    if (s.slot s.curCore t).hold ∨ (s.slot s.curCore t).st = .faulted then ((s.finishX rd 0).recordsFirst s.curCore).releaseSlot s.curCore t s.cycle
    else s.finishX rd 3)

/-! ### Kill -/

/-- `skill` of a slot (R296): its `mma`s are abandoned, a running one at the end of its slice, and its process ends. -/
def State.killSlot (s : State) (c i : Nat) : State :=
  let gone := ((s.core c).tq.filter fun o => o.slot == i) ++ (s.slot c i).stopped
  let s := s.modCore c fun k =>
    let k := gone.foldl (fun k o => k.abandonAcc o.acc) k
    { k with
      tq := k.tq.filter fun o => o.slot != i
      trun := k.trun.map fun r => if r.op.slot = i then { r with abandon := some s.cycle } else r }
  (gone.foldl (fun s o => s.known c i o.access) s).endProcess c i

/-- SKILL (R296): after the trap-queue records of its cycle (R73 step 3). -/
def execSkill (rd rs1 : BitVec 5) (s : State) : Out :=
  ok (slotsys rd [.x rs1] rs1 s fun t s => ((s.finishX rd 0).recordsFirst s.curCore).killSlot s.curCore t)

/-! ### Save and load -/

/-- The bytes of a context. -/
def contextSize : Nat := 4096

/-- `ssave` and `sload` of a held or FAULTED slot (code 3) at an area that the issuing slot may access (code 4). -/
def contextOp (perm : Perm) (rd rs1 rs2 : BitVec 5) (s : State) (k : Nat → Nat → State → State) : State :=
  slotsys rd [.x rs1, .x rs2] rs1 s fun t s =>
    let a := (s.x rs2).toNat
    if !(s.slot s.curCore t).hold ∧ (s.slot s.curCore t).st ≠ .faulted then s.finishX rd 3
    else if a % 64 ≠ 0 ∨ localSize < a + contextSize ∨ (s.ownFault perm a contextSize).isSome then s.finishX rd 4
    else k t a s

/-- Whether a request is an outstanding global load or AMO of a slot (R297). -/
def Req.readOf (r : Req) (c i : Nat) : Bool :=
  r.core == c && r.slot == i && r.posted.isNone
    && match r.op with
       | .load _ _ => true
       | .amo _ _ _ => true
       | .mmioLoad => true
       | _ => false

/-- What `ssave` waits for (R297, R354): the target's fence, SFU request, global loads and AMOs, `mload`, local access, and the end of
its `mma`'s slice, or without HOLD the end of its `mma`s. -/
def State.saveWaits (s : State) (c i : Nat) : Bool :=
  let t := s.slot c i
  let k := s.core c
  t.fence.isSome || t.mem.isSome || k.sfuq.any (fun q => q.slot == i && !q.discarded) || s.reqs.any (fun r => r.2.readOf c i)
    || k.mloads.any (fun m => m.2.slot == i) || k.trun.any (fun r => r.op.slot == i)
    || (!t.hold && k.tq.any fun o => o.slot == i)

/-- SSAVE (R297): the context goes to the area row by row. The slot's receives stay outstanding (R354). -/
def execSsave (rd rs1 rs2 : BitVec 5) (s : State) : Out :=
  ok (contextOp .write rd rs1 rs2 s fun t a s =>
    if s.saveWaits s.curCore t then s.block .unlimited
    else
      let x := (s.slot s.curCore t).context s.here.sid t
      localAccess (.save rd x) a [(a, contextSize)] 0 s)

/-- SLOAD (R297). -/
def execSload (rd rs1 rs2 : BitVec 5) (s : State) : Out :=
  ok (contextOp .read rd rs1 rs2 s fun t a s => localAccess (.restore rd t) a [(a, contextSize)] 0 s)

end Sys2Proof.Machine
end

