-- ==== Sys2Proof/Machine/Sower.lean ====
section
/-! DEFINITION. The Sower: launches, tickets and predecessors (R199 to R202), sowing images (R192 to R194), queues and placement
(R203 to R206), the ASID table (R198) and group generations (R221 to R223). -/

namespace Sys2Proof.Machine

/-! ### Sowing images (R192 to R194) -/

/-- The bytes of a signature of a sowing image (R193). -/
def signatureSize : Nat := 29792

/-- The end of a sheaf's region of a scratchpad (R78). -/
def sheafRegion : Nat := 0x1E0000

/-- The count and the offset of each section of a header, the count 1 for one that may be absent (R193). -/
def imageSections (x : BitVec 512) : List (Nat × Nat) :=
  [(field x 224 32, field x 320 32), (field x 256 32, field x 352 32), (field x 288 16, field x 384 32)]

/-- The offsets of the sections that are there. -/
def imageOffsets (x : BitVec 512) : List Nat := ([320, 352, 384, 416, 448, 480].map fun b => field x b 32).filter (· != 0)

/-- Whether a header is well-formed (R193, R194): magic, version, reserved fields, sections at multiples of 64 that do not meet and
lie within the image. That an offset that is no multiple of 64, a count that disagrees with a zero offset and a signature that does not end the image
reject it is the model's choice (log 113). -/
def headerOk (x : BitVec 512) : Bool :=
  let len := field x 192 32
  let offs := imageOffsets x
  let sig := field x 480 32
  field x 0 32 == 0x574F532E && field x 32 16 == 1 && field x 51 13 == 0 && field x 74 6 == 0 && field x 93 3 == 0
    && field x 100 28 == 0 && field x 304 16 == 0
    && ((imageSections x).all fun p => (p.1 == 0) == (p.2 == 0))
    && (offs.all fun o => o % 64 == 0 && decide (o < len)) && (offs.eraseDups.length == offs.length) && decide (64 ≤ len)
    && (field x 416 32 == 0 || decide (field x 416 32 + 8 ≤ len))
    && (sig == 0 || (sig + signatureSize == len && offs.all fun o => decide (o ≤ sig)))

/-- The sections of an image that are there, as offsets and sizes: crews, channels, groups, wire contexts, symbols, signature (R193). -/
def imageExtents (x : BitVec 512) (sizes : List Nat) : List (Nat × Nat) :=
  let size (i : Nat) : Nat := (sizes[i]?).getD 0
  [(field x 320 32, size 0), (field x 352 32, size 1), (field x 384 32, size 2), (field x 416 32, 8), (field x 448 32, max 4 (size 3)),
   (field x 480 32, signatureSize)].filter fun e => e.1 != 0

/-- Whether the sections of an image overlap neither one another nor the header and end within it (R194). -/
def extentsOk (l : List (Nat × Nat)) (len : Nat) : Bool :=
  (l.all fun e => decide (64 ≤ e.1 ∧ e.1 + e.2 ≤ len))
    && (below l.length).all fun i => (below i).all fun j =>
      match l[i]?, l[j]? with
      | some a, some b => decide (a.1 + a.2 ≤ b.1) || decide (b.1 + b.2 ≤ a.1)
      | _, _ => true

/-- The image that its bytes make: the header as R193 lays it out, the crews, channels and groups as `Config.imageBody` reads them. -/
def imageOf (x : BitVec 512) (bytes : List Byte) : Option Image :=
  match Config.imageBody bytes with
  | none => none
  | some b =>
    let off := field x 416 32
    let wire := if off = 0 then 0 else leNat ((bytes.drop off).take 8)
    if extentsOk (imageExtents x b.sizes) (field x 192 32) = false then none
    else if 256 ≤ wire ∨ b.crews.length ≠ field x 224 32 ∨ b.chans.length ≠ field x 256 32 ∨ b.groups.length ≠ field x 288 16 then none
    else some {
      prio := field x 48 3, asid := field x 64 10, dies := field x 80 8 + 1, rows := field x 88 5 + 1, cols := field x 96 4 + 1,
      nameHash := BitVec.ofNat 64 (field x 128 64), length := field x 192 32, signed := field x 480 32 != 0, crews := b.crews,
      chans := b.chans, groups := b.groups, wireMask := BitVec.ofNat 8 wire }

/-- Whether a crew's selector takes in a core of the shape. -/
def Crew.selects (k : Crew) (d r c : Nat) : Bool :=
  decide (k.dieLo ≤ d ∧ d ≤ k.dieHi) && decide (k.rowLo ≤ r ∧ r ≤ k.rowHi) && decide (k.colLo ≤ c ∧ c ≤ k.colHi)

/-- The cores of a shape in the order of (die index, row, col). -/
def shapeCores (dies rows cols : Nat) : List (Nat × Nat × Nat) :=
  (below dies).flatMap fun d => (below rows).flatMap fun r => (below cols).map fun c => (d, r, c)

/-- The cores of an image's shape. -/
def Image.cores (i : Image) : List (Nat × Nat × Nat) := shapeCores i.dies i.rows i.cols

/-- The crew of a core of the shape. -/
def Image.crewOf (i : Image) (d r c : Nat) : Option Crew := i.crews.find? fun k => k.selects d r c

/-- Whether a group request takes in a core. -/
def GroupReq.selects (g : GroupReq) (d r c : Nat) : Bool :=
  decide (g.dieLo ≤ d ∧ d ≤ g.dieHi) && decide (g.rowLo ≤ r ∧ r ≤ g.rowHi) && decide (g.colLo ≤ c ∧ c ≤ g.colHi)

/-- The offset of a crew's `.data`: the first multiple of 4 KiB at or above the end of `.text` (R37). -/
def Crew.dataAt (k : Crew) : Nat := (k.text.length + 4095) / 4096 * 4096

/-- A window of an image within its range (R145, R194): no ASID, within the sheaf region, CLO at most CHI. -/
def windowOk (w : Word) : Bool :=
  field w 60 3 == 0 && field w 50 10 == 0 && bitAt w 37 == false && field w 0 6 == 0
    && decide (field w 6 15 * 64 + field w 21 16 * 64 ≤ sheafRegion) && decide (field w 38 6 ≤ field w 44 6)

/-- Whether the `wfmt` and `wscl` of a slot in an image hold no reserved bit (R6, R194, R272). An image with a SPREAD of 0, of which R315 says only what a
write of it does, is rejected: the model's choice (log 99). -/
def formatsOk (wfmt wscl : Word) : Bool := writeFmt 0 wfmt == wfmt && field wfmt 8 4 != 0 && wscl &&& 0xFFFFFF#64 == wscl

/-- Whether a crew is within its ranges (R37, R194). -/
def Crew.ok (k : Crew) : Bool :=
  decide (k.dataAt + k.data.length ≤ sheafRegion) && decide (k.text.length ≤ sheafRegion)
    && decide (k.windows.length ≤ 8) && k.windows.all windowOk
    && decide (k.counters.length ≤ 64) && (k.counters.all fun p => p.2.2 != 3)
    && (k.slots.all fun p => decide (p.1 < 15) && formatsOk p.2.2.1 p.2.2.2) && (k.slots.map fun p => p.1).eraseDups.length == k.slots.length

/-- Whether a channel end names a slot that its crew starts. -/
def Image.endOk (i : Image) (e : ChanEnd) : Bool :=
  decide (e.die < i.dies ∧ e.row < i.rows ∧ e.col < i.cols) && decide (e.ep < 256)
    && (i.crewOf e.die e.row e.col).any fun k => k.slots.any fun p => p.1 == e.slot

/-- Whether the contents of an image are valid (R194). -/
def Image.ok (i : Image) : Bool :=
  let ends := i.chans.flatMap fun p => [p.1, p.2]
  i.crews.all Crew.ok
    && (i.cores.all fun p => (i.crews.filter fun k => k.selects p.1 p.2.1 p.2.2).length == 1)
    && ends.all i.endOk && ((ends.map fun e => (e.die, e.row, e.col, e.ep)).eraseDups.length == ends.length)
    && (i.groups.all fun g => decide (g.handle < 16) && g.op != .swap && g.op != .minu)
    && (below i.groups.length).all fun n => (below n).all fun m =>
        match i.groups[n]?, i.groups[m]? with
        | some g, some h => g.handle != h.handle || i.cores.all fun p => !(g.selects p.1 p.2.1 p.2.2 && h.selects p.1 p.2.1 p.2.2)
        | _, _ => true

/-- Whether an image's signature satisfies the security processor (R194, R419). -/
def State.signatureOk (s : State) (x : BitVec 512) (bytes : List Byte) : Bool :=
  let sig := field x 480 32
  if sig = 0 then !(s.sec.sigreq || Config.sigFuse)
  else s.sec.imgKey.toList.any fun k => k != 0 && Config.verifies (bytes.take sig) (bytes.drop sig) k

/-- Reads and validates the image at an address: the image with its signed data, if it is valid (R194). One that cannot be read whole or holds
poison is rejected as well (log 81). -/
def State.readImage (s : State) (a : Nat) : Option (Image × List Byte) × State :=
  if s.physOk a .read .m 8 false = false then (none, s)
  else
    let (h, s) := s.readRow a 64
    match h with
    | none => (none, s)
    | some h =>
      let x : BitVec 512 := BitVec.ofNat 512 (leNat h)
      if headerOk x = false ∨ s.physOk (a + field x 192 32 - 1) .read .m 1 false = false then (none, s)
      else
        let (b, s) := s.readRow a (field x 192 32)
        match b with
        | none => (none, s)
        | some bytes =>
          match imageOf x bytes with
          | none => (none, s)
          | some i => if i.ok && s.signatureOk x bytes then (some (i, h ++ bytes.drop (field x 480 32)), s) else (none, s)

/-! ### Tickets that end (R201, R202, R218, R219) -/

/-- The outcomes of tickets that the Sower keeps (R202). -/
def outcomesKept : Nat := 65536

/-- How a predecessor stands (R202): it may still end, or has ended with a status; one older than every kept outcome counts as retired. -/
inductive PredState where
  | live | ended (status : Nat) | unknown
  deriving DecidableEq, Repr

/-- See `PredState`. -/
def State.predState (s : State) (p : Word) : PredState :=
  let w := s.sow
  if w.sheaves.any fun h => h.2.ticket == p then .live
  else
    match w.ended.find? fun e => e.1 == p with
    | some e => .ended e.2
    | none =>
      if w.ended.length = outcomesKept ∧ w.ended.all (fun e => decide (p.toNat < e.1.toNat)) then .ended 0 else .unknown

/-- Writes the completion record of a sheaf (R219), with the die clock of D0. -/
def State.completionRecord (s : State) (h : Sheaf) (status : Nat) : State :=
  if h.done = 0 then s
  else s.writeMem h.done.toNat
    (leBytes 16 (h.ticket.toNat + status * 2 ^ 64 + (s.clock 0).toNat % 2 ^ 48 * 2 ^ 80))

/-- A ticket ends with a status (R218 steps 3 and 4): its completion record is written and its record freed. -/
def State.endTicket (s : State) (t status : Nat) : State :=
  match s.sheaf t with
  | none => s
  | some h => (s.completionRecord h status).modSow fun w => { w with
      sheaves := KMap.del w.sheaves t
      ended := ((h.ticket, status) :: w.ended).take outcomesKept }

/-- Looks at the launches that wait on predecessors, at most `n` times (R202): one whose predecessor ended with another status than 0
ends with status 3, and one all of whose predecessors have retired joins its queue. -/
def State.recheck : Nat → State → State
  | 0, s => s
  | n + 1, s =>
    let stands (h : Sheaf) (f : PredState → Bool) : Bool := h.preds.any fun p => f (s.predState p)
    match s.sow.sheaves.find? fun p => p.2.st == .waiting && stands p.2 fun x => match x with | .ended k => k != 0 | _ => false with
    | some p => State.recheck n (s.endTicket p.1 3)
    | none => s.modSow fun w => { w with
        sheaves := w.sheaves.map fun p =>
          if p.2.st = .waiting ∧ stands p.2 (fun x => x == .live) = false then (p.1, { p.2 with st := .queued }) else p }

/-- Makes the start of a placement due, if a launch is queued and none is due (R203). -/
def State.kickPlacement (s : State) : State :=
  if (s.sow.sheaves.any fun p => p.2.st == .queued) ∧ ¬ s.agenda.any (fun d => d.act == .event .placementStart) then
    ((s.draw).2).at (s.cycle + Config.serviceTime s.free) .placementStart
  else s

/-- What follows the end of a ticket. -/
def State.afterEnd (s : State) : State := (s.recheck (s.sow.sheaves.length + 1)).kickPlacement

/-! ### Acceptance (R199 to R202) -/

/-- A word of a launch record. -/
def Launch.word (l : Launch) (i : Nat) : Word := (l.record[i]?).getD 0

/-- Whether a launch record is valid (R199). One whose DONE has the prefix 0x01 but lies in no HBM of the domain is not, with status 6: the model's
choice (log 97). -/
def State.recordOk (s : State) (l : Launch) : Bool :=
  let image := l.word 0
  let done := l.word 6
  (field image 48 16 == 1 || field image 48 16 == 2) && field image 0 12 == 0
    && field (l.word 1) 15 49 == 0 && l.word 7 == 0
    && (done == 0 || (field done 48 16 == 1 && field done 0 4 == 0 && s.physOk done.toNat .write .m 8 false))
    && !(l.user && (bitAt (l.word 1) 3 || bitAt (l.word 1) 14))

/-- The Culm dies of the domain (R194, R407). -/
def State.domainDies (s : State) : Nat :=
  32 * (1 + ((below 64).filter fun q => q != s.panel && s.panelOk q).length)

/-- The status of a launch whose image is valid (R194, R200 to R202): 0 when it is accepted. A predecessor that has ended with another status
than 0 rejects it: the model's choice (log 82). -/
def State.launchStatus (s : State) (l : Launch) (i : Image) (asid : Nat) : Nat :=
  let preds := (below 4).map fun k => l.word (2 + k)
  let good (p : Word) : Bool :=
    p == 0 || (field p 0 6 == s.panel && decide (field p 6 58 < s.sow.seq)
      && match s.predState p with | .live => true | .ended k => k == 0 | .unknown => false)
  if s.domainDies < i.dies then 2
  else if bitAt (s.asidEntry asid) 63 = false then 5
  else if preds.all good = false then 3
  else if 4096 ≤ s.sow.sheaves.length then 7
  else 0

/-- The lowest sheaf record that is free (R196). -/
def Sower.freeSid (w : Sower) : Nat := ((below 4096).find? fun k => w.sheaves.all fun h => h.2.sid != k).getD 0

/-- Reports the answer of a launch to its source (R200): to the `sow`, the host queue or the mailbox. -/
def State.answer (s : State) (l : Launch) (status : Nat) (ticket : Word) : State :=
  match l.source with
  | .slot c i =>
    if (s.slot c i).issued = some l.id ∨ (s.core c).sows.contains (i, l.id) then
      s.modSow fun w => { w with answers := KMap.put w.answers l.id (if status = 0 then ticket else BitVec.ofNat 64 status) }
    else s
  | .host seq =>
    (s.modHost fun h => { h with pending := h.pending ++ [(BitVec.ofNat 32 seq, if status = 0 then ticket else 0, status)] }).at
      s.cycle .sqCompletion
  | .mailbox i => s.modSow fun w => { w with
      mailbox := match KMap.get w.mailbox i with
        | some m => KMap.put w.mailbox i { m with lo := setField m.lo 48 8 status }
        | none => w.mailbox }

/-- The record of an accepted launch. -/
def State.newSheaf (s : State) (l : Launch) (i : Image) (asid : Nat) (ticket : Word) : Sheaf :=
  { here := s.panel, sat := false, others := [], sid := s.sow.freeSid, ticket := ticket, st := .waiting, source := l.source,
    prio := if bitAt (l.word 1) 3 then field (l.word 1) 0 3 else i.prio, asid := asid, imageAddr := (l.word 0).toNat, image := i,
    preds := ((below 4).map fun k => l.word (2 + k)).filter (· != 0), done := l.word 6, places := [], wires := [], groups := [],
    area := 0, status := 0, round := 0, roundStart := 0, sums := [], resumed := false, starting := 0, awaits := [], stopped := [], settled := true,
    saved := [], ops := [] }

/-- LAUNCH_ACCEPT: the Sower checks a launch in the step in which it arrives, and issues a ticket or a status (R200). Every accepted
signed image is extended into MEAS2 first (R419). -/
def execLaunchAccept (cmd : Nat) (s : State) : Out :=
  ok (match s.sow.inbox.find? fun l => l.id == cmd with
    | none => s
    | some l =>
      let s := s.modSow fun w => { w with inbox := w.inbox.filter fun x => x.id != cmd }
      if s.recordOk l = false then s.answer l 6 0
      else
        match s.readImage (l.word 0).toNat with
        | (none, s) => s.answer l 1 0
        | (some (i, data), s) =>
          let asid := if bitAt (l.word 1) 14 then field (l.word 1) 4 10 else i.asid
          let st := s.launchStatus l i asid
          if st ≠ 0 then s.answer l st 0
          else
            let s := if i.signed then s.modSec fun x => { x with meas := vecSet x.meas 2 (extendMeas (vecGet x.meas 2 0) data) } else s
            let seq := s.sow.seq
            let ticket := BitVec.ofNat 64 (seq * 64 + s.panel)
            let h := s.newSheaf l i asid ticket
            ((s.modSow fun w => { w with
              seq := seq + 1
              sheaves := KMap.put w.sheaves seq h }).answer l 0 ticket).afterEnd)

/-! ### Placement (R203 to R206) -/

/-- Whether a core holds no sheaf, of this panel or another one, and may be placed: its die is offered and it has not halted (R204, R343,
R402). What a placement that has not committed has reserved is free in this sense: it is met by the yield rule (R205, R206). -/
def State.freeCore (s : State) (c : Nat) : Bool := (s.core c).ticket.isNone && !s.halted c && (s.die (dieOf c)).offered

/-- The cores of a rectangle of a die, by row and column. -/
def rectangle (die row0 col0 rows cols : Nat) : List Nat :=
  (below rows).flatMap fun r => (below cols).map fun c => coreAt die (row0 + r) (col0 + c)

/-- The free rectangle of a die with the least row, then the least column (R204). -/
def State.firstFit (s : State) (die rows cols : Nat) : Option Place :=
  ((below (33 - rows)).flatMap fun r => (below (17 - cols)).map fun c => (r, c)).findSome? fun p =>
    if (rectangle die p.1 p.2 rows cols).all s.freeCore then
      some { panel := s.panel, die := die, row0 := p.1, col0 := p.2 }
    else none

/-- The free physical wire contexts of a die (R117). -/
def State.freeWires (s : State) (die : Nat) : List Nat := (below 64).filter fun n => (KMap.get (s.die die).wires n).isNone

/-- The wire contexts an image names (R117). -/
def Image.contexts (i : Image) : List Nat := (below 8).filter fun b => bitAt i.wireMask b

/-- The dies from a die on, and their rectangles, that a placement finds on this panel, first fit (R204). -/
def State.choosePlaces (s : State) (rows cols wires frm : Nat) : List Place :=
  (rangeFrom (32 - frm) frm).filterMap fun d =>
    if (s.freeWires d).length < wires then none else s.firstFit d rows cols

/-- Updates a group identifier's entry. -/
def State.modGroup (s : State) (g : Nat) (f : Group → Group) : State :=
  s.modSow fun w => { w with groups := KMap.put w.groups g (f (s.group g)) }

/-- The lowest group identifier that is free on this panel, from one on, and none of some others (R204). -/
def State.freeGid (s : State) (others : List Nat) (least : Nat) : Option Nat :=
  (rangeFrom (4096 - least) least).find? fun g => !(s.group g).used && !others.contains g

/-- The home panel of a sheaf (R200). -/
def Sheaf.home (h : Sheaf) : Nat := field h.ticket 0 6

/-- The key of a sheaf on the panel of its record, by which its cores know it. -/
def Sheaf.key (h : Sheaf) : Nat := if h.home = h.here then h.ticket.toNat / 64 else foreignKey h.ticket

/-- Where a sheaf's core stands, as the panel of the record names it. -/
def Sheaf.coreOf (h : Sheaf) (d r c : Nat) : Nat :=
  match h.places[d]? with
  | some p => foreignTarget p.panel h.here (coreAt p.die (p.row0 + r) (p.col0 + c))
  | none => 0

/-- The cores of a placed sheaf on the panel of its record, each with its die index, row and column. -/
def Sheaf.cores (h : Sheaf) : List (Nat × Nat × Nat × Nat) :=
  if h.places = [] then []
  else (h.image.cores.map fun p => (h.coreOf p.1 p.2.1 p.2.2, p)).filter fun p => decide (p.1 < relayBase)

/-- The places of a sheaf on the panel of its record, with their die indexes. -/
def Sheaf.homePlaces (h : Sheaf) : List (Nat × Place) :=
  ((below h.places.length).zip h.places).filter fun p => p.2.panel == h.here

/-- The other panels on which a sheaf has places. -/
def Sheaf.otherPanels (h : Sheaf) : List Nat := ((h.places.filter fun p => p.panel != h.here).map fun p => p.panel).eraseDups

/-- The launch whose placement is next: the oldest of the highest non-empty queue (R203). -/
def State.queueHead (s : State) : Option (Nat × Sheaf) :=
  (s.sow.sheaves.filter fun p => p.2.st == .queued).foldl (fun b p =>
    match b with
    | none => some p
    | some q => if q.2.prio < p.2.prio then some p else some q) none

/-- Sends a message to the Sower of another panel (R205). -/
def State.sendSower (s : State) (panel : Nat) (b : Body) : State :=
  s.sendTo .chn relayBase (foreignTarget panel s.panel relayBase) b 0 4

/-- The ticket of a launch of this Sower by its sequence number. -/
def State.ticketWord (s : State) (seq : Nat) : Word := BitVec.ofNat 64 (seq * 64 + s.panel)

/-- Frees what a ticket has reserved here. -/
def State.unreserve (s : State) (ticket : Word) : State :=
  s.modSow fun w => { w with held := w.held.filter fun r => r.ticket != ticket }

/-- Tells the Sower of another panel to release what a ticket has there (R205), or that the placement of a ticket of its own yields (R206). -/
def State.sendRelease (s : State) (panel : Nat) (ticket : Word) (attempt : Nat) : State :=
  s.sendSower panel (.reserve 1 ticket attempt 0 0 0 0 0 0 0 [])

/-- The placement in flight releases every reservation it holds, here, on other panels and on the one it asks; its launch stays in its queue
(R205, R206), and a later placement is tried. -/
def State.abortPlacing (s : State) : State :=
  match s.sow.placing with
  | none => s
  | some p =>
    let ticket := s.ticketWord p.sheaf
    let s := (s.unreserve ticket).modSow fun w => { w with placing := none }
    (((p.panel :: p.places.map fun x => x.panel).filter (· != s.panel)).eraseDups.foldl (fun s q =>
      s.sendRelease q ticket p.attempt) s).kickPlacement

/-- The sheaf that a message between Sowers is about. -/
def Body.about : Body → Option Word
  | .reserve _ ticket _ _ _ _ _ _ _ _ _ => some ticket
  | .commit x => some x.ticket
  | .sower ticket _ => some ticket
  | _ => none

/-- A request waits here until younger placements have yielded (R206). -/
def State.defer (s : State) (b : Body) : State :=
  s.modSow fun w => { w with deferred := (w.deferred.filter fun d => d.about != b.about) ++ [b] }

/-- A placement yields (R206): one of this panel releases what it holds at once; the home of another is asked, once, and releases it, unless it has
committed. -/
def State.yieldTo (s : State) (y : Held) : State :=
  if s.sow.placing.any fun p => s.ticketWord p.sheaf == y.ticket then s.abortPlacing
  else if y.asked then s
  else
    (s.modSow fun w => { w with held := w.held.map fun h => if h.ticket = y.ticket then { h with asked := true } else h }).sendRelease
      (field y.ticket 0 6) y.ticket y.attempt

/-- Whether a reservation meets some cores, wire contexts or group identifiers. -/
def Held.meets (h : Held) (cores : List Nat) (wires : List (Nat × Nat)) (gids : List Nat) : Bool :=
  h.cores.any cores.contains || h.wires.any wires.contains || h.gids.any gids.contains

/-- What becomes of a request for resources of this panel (R206): they are reserved, an older placement holds some of them, or younger ones of other
panels have yet to yield. -/
inductive Grant where
  | done (s : State)
  | older
  | waits (s : State)

/-- A ticket reserves cores and wire contexts here beside those it has, and the group identifiers given (R206): younger placements that hold one
of them yield first, and with an older one there is no reservation. -/
def State.reserve (s : State) (ticket : Word) (attempt : Nat) (cores : List Nat) (wires : List (Nat × Nat)) (gids : List Nat) : Grant :=
  let clash (s : State) : List Held := s.sow.held.filter fun h => h.ticket != ticket && h.meets cores wires gids
  if (clash s).any fun h => decide (h.ticket.toNat < ticket.toNat) then .older
  else
    let s := (clash s).foldl (fun s h => s.yieldTo h) s
    if (clash s).isEmpty = false then .waits s
    else
      let mine := (s.sow.held.find? fun h => h.ticket == ticket).getD
        { ticket := ticket, attempt := attempt, cores := [], wires := [], gids := [], asked := false }
      .done ((s.unreserve ticket).modSow fun w => { w with
        held := w.held ++ [{ mine with
          cores := mine.cores ++ cores
          wires := mine.wires ++ wires
          gids := gids }] })

/-- The cores of some rectangles of this panel, and some of the free wire contexts of their dies (R204). -/
def placeCores (rows cols : Nat) (places : List Place) : List Nat := places.flatMap fun p => rectangle p.die p.row0 p.col0 rows cols
def State.placeWires (s : State) (wires : Nat) (places : List Place) : List (Nat × Nat) :=
  places.flatMap fun p => ((s.freeWires p.die).take wires).map fun n => (p.die, n)

/-- Reserves some rectangles of this panel with wire contexts of their dies (R205). -/
def State.reservePlaces (s : State) (ticket : Word) (attempt rows cols wires : Nat) (places : List Place) : Grant :=
  if places = [] then .done s else s.reserve ticket attempt (placeCores rows cols places) (s.placeWires wires places) []

/-- Binds the contexts of a sheaf to physical ones on one of its dies (R117), all at phase 0. -/
def State.bindWires (s : State) (t : Nat) (i : Image) (p : Place) (phys : List Nat) : List (Nat × Nat) × State :=
  let pairs := i.contexts.zip phys
  let cores := rectangle p.die p.row0 p.col0 i.rows i.cols
  let s := s.modDie p.die fun x => { x with wires := pairs.foldl (fun m b => KMap.put m b.2
    { ticket := t, context := b.1, phase := 0, members := cores, arrived := [], completed := none }) x.wires }
  (pairs, cores.foldl (fun s c => s.modCore c fun k => { k with
    ticket := some t
    wire := pairs
    wireArr := [] }) s)

/-- The panels that a group of an image spans, once its dies have places (R204). -/
def Image.groupPanels (i : Image) (places : List Place) (n : Nat) : List Nat :=
  match i.groups[n]? with
  | none => []
  | some g => ((i.cores.filter fun p => g.selects p.1 p.2.1 p.2.2).filterMap fun p => (places[p.1]?).map fun x => x.panel).eraseDups

/-- Where a path from a core leaves its panel by a port, and where it enters another panel by one on its way to a core, as nodes (R134, R406). -/
def exitNode (p core : Nat) : Nat := let e := exitPoint p core; if e < relayBase then e else portNode (e - relayBase)
def entryNode (p core : Nat) : Nat := let e := exitPoint p core; if e < relayBase then e else ((pathNodes e core).head?).getD e

/-- The node of another panel beyond the port that leads there, by that port's peer as its training found it (R408), or the core itself where the
port leads there over a third panel. -/
def State.beyondPort (s : State) (core : Nat) (node : Nat → Nat → Nat) : Nat :=
  let x := (s.port (s.portTo (panelTo core) false)).stat
  if bitAt x 31 ∧ field x 16 6 = panelTo core then foreignTarget (panelTo core) s.panel (node (field x 22 5) (localPoint core)) else core

/-- The part on this panel of the spanning tree of some members, the first of them its root (R221): the path of a member of this panel is its route
to the root, or to the port by which the root's panel is reached and on to the node beyond it; that of a member of another panel comes from the node
at which it leaves that panel by the port by which it is reached (log 31). -/
def State.treeHere (s : State) (members : List Nat) : Tree :=
  match members with
  | [] => []
  | root :: others =>
    let edge (n c : Nat) : Nat := exitPoint (s.portTo (panelTo n) false) c
    let inward (m : Nat) : List Nat :=
      let e := edge m root
      if e < relayBase then e :: pathNodes e root else pathNodes e root
    let before (m : Nat) (l : List Nat) : List Nat := if l.head? = some m then l else m :: l
    treeBy root (if isForeign root then
      ((others.filter fun m => !isForeign m).map fun m =>
        let e := edge root m
        (m :: if e = m then [] else pathNodes m e) ++ [s.beyondPort root entryNode, root].eraseDups)
    else others.map fun m => if isForeign m then before m (s.beyondPort m exitNode :: inward m) else m :: pathNodes m root)

/-- Allocates a group of a sheaf under a generation, its members in the order of (die index, row, col), the root of its tree first, and builds the
tree on this panel (R221). -/
def State.allotGroup (s : State) (h : Sheaf) (n gid generation : Nat) : State :=
  match h.image.groups[n]? with
  | none => s
  | some g =>
    let members := (h.image.cores.filter fun p => g.selects p.1 p.2.1 p.2.2).map fun p => h.coreOf p.1 p.2.1 p.2.2
    s.modGroup gid fun x => { x with
      used := true
      generation := generation
      members := members
      op := g.op
      ticket := h.key
      index := n
      tree := s.treeHere members }

/-- A sheaf takes what it has reserved on this panel: cores, wire contexts, and the groups that span it (R205). -/
def State.seat (s : State) (h : Sheaf) (wires : List (Nat × Nat)) : State :=
  let (bound, s) := h.homePlaces.foldl (fun (b : KMap (List (Nat × Nat)) × State) p =>
    let (w, s) := b.2.bindWires h.key h.image p.2 ((wires.filter fun x => x.1 == p.2.die).map fun x => x.2)
    (KMap.put b.1 p.1 w, s)) ([], s)
  let h := { h with wires := bound }
  ((h.groups.zip (below h.groups.length)).filter fun p => (h.image.groupPanels h.places p.2).contains s.panel).foldl (fun s p =>
    s.allotGroup h p.2 p.1.1 p.1.2) (s.modSheaf h.key fun _ => h)

/-- The wire contexts that a ticket has reserved here. -/
def State.heldWires (s : State) (ticket : Word) : List (Nat × Nat) := (s.sow.held.filter fun r => r.ticket == ticket).flatMap fun r => r.wires

/-- A placement commits (R205): its cores, wire contexts and groups become the sheaf's, on other panels by a report, and loading begins. -/
def State.commit (s : State) (p : Placing) (h : Sheaf) : State :=
  let wires := s.heldWires h.ticket
  let s := (s.unreserve h.ticket).modSow fun w => { w with placing := none }
  let h := { h with
    st := .loading
    places := p.places
    groups := p.gids }
  let h := { h with
    sat := h.sat || h.homePlaces != []
    others := (h.others ++ h.otherPanels).eraseDups
    awaits := h.here :: h.otherPanels
    stopped := [] }
  let share : Share := { sid := h.sid, ticket := h.ticket, prio := h.prio, asid := h.asid, image := h.image, places := h.places,
                         groups := h.groups, resumed := h.resumed, area := h.area, saved := h.saved, ops := h.ops }
  let s := h.otherPanels.foldl (fun s q => s.sendSower q (.commit share)) (s.seat h wires)
  (((s.draw).2).at (s.cycle + Config.serviceTime s.free) (.sheafLoad h.key)).kickPlacement

/-- Whether a generation of a group may still have packets in flight, so that it has to be swept before it is allocated (R223). -/
def Group.due (g : Group) (generation : Nat) : Bool := g.behind.any fun b => b.generation == generation

/-- Those of the identifiers chosen so far whose groups span a panel. -/
def Placing.gidsOn (p : Placing) (i : Image) (gids : List (Nat × Nat)) (panel : Nat) : List (Nat × Nat) :=
  ((gids.zip (below gids.length)).filter fun x => (i.groupPanels p.places x.2).contains panel).map fun x => x.1

/-- A placement that has reserved all it needs commits, unless a generation of one of its groups is due for a sweep here: it is swept first, and the
launch waits as for something that is not free (R223). -/
def State.finishPlacing (s : State) (p : Placing) (h : Sheaf) : State :=
  match (p.gidsOn h.image p.gids s.panel).find? fun g => (s.group g.1).due g.2 with
  | some g => ((s.modSow fun w => { w with placing := some p }).abortPlacing).at s.cycle (.generationSweep g.1)
  | none => s.commit p h

/-- The generation that a request leaves to the panel that is asked first (log 102). -/
def anyGeneration : Nat := 16

/-- Asks the next panel that has to agree to the identifier of the last group, and to its generation (R204, R223). -/
def State.askGid (s : State) (p : Placing) (h : Sheaf) : State :=
  let s := s.modSow fun w => { w with placing := some p }
  match p.agree with
  | [] => s
  | q :: _ =>
    s.sendSower q (.reserve 3 h.ticket p.attempt h.asid ((p.gids.getLast?.map fun g => g.2).getD 0) 0 0 0 0 0 ((p.gidsOn h.image p.gids q).map fun g => g.1))

/-- Finds identifiers for the groups of a placement from one of them on, `n` in all, the first of them not below `least` (R204): each is the
lowest that is free on every panel that its group spans. On this panel it is found and reserved at once, under its generation here, or once
younger placements have yielded; another one is asked; and when every group has its identifier the placement commits. -/
def State.settleGids : Nat → State → Placing → Sheaf → Nat → Nat → State
  | 0, s, p, h, _, _ => s.finishPlacing p h
  | n + 1, s, p, h, i, least =>
    let panels := h.image.groupPanels p.places i
    let settled := p.gids.take i
    let here := (p.gidsOn h.image settled s.panel).map fun g => g.1
    let mine := panels.contains s.panel
    let kept (s : State) : State := s.modSow fun w => { w with placing := some { p with gids := settled } }
    match if mine then s.freeGid here least else some least with
    | none => (kept s).abortPlacing
    | some g =>
      match if mine then s.reserve h.ticket p.attempt [] [] (here ++ [g]) else .done s with
      | .older => (kept s).abortPlacing
      | .waits s => (kept s).defer (.reserve 3 h.ticket p.attempt 0 least i 0 0 0 0 [])
      | .done s =>
        let p := { p with
          gids := settled ++ [(g, if mine then (s.group g).generation else anyGeneration)]
          agree := panels.filter (· != s.panel) }
        if p.agree.isEmpty then s.settleGids n p h (i + 1) 0 else s.askGid p h

/-- The panels of the domain that a placement asks after this one, in their order, above a panel (R204). -/
def State.panelsAfter (s : State) (q : Option Nat) : List Nat :=
  (below 64).filter fun n => n != s.panel && s.panelOk n && q.all fun q => decide (q < n)

/-- A placement goes on: with every die it turns to its groups, and otherwise it asks a panel for its first free rectangle from a die on, if there is
a panel to ask (R204, R205). -/
def State.seekPlaces (s : State) (p : Placing) (h : Sheaf) (panel : Option Nat) (die : Nat) : State :=
  if p.places.length = h.image.dies then s.settleGids h.image.groups.length p h 0 0
  else
    match panel with
    | none => (s.modSow fun w => { w with placing := some p }).abortPlacing
    | some q => (s.modSow fun w => { w with placing := some { p with panel := q } }).sendSower q
        (.reserve 0 h.ticket p.attempt h.asid die 0 0 h.image.rows h.image.cols h.image.contexts.length [])

/-- The Sower places the oldest launch of the highest queue, first fit, or leaves it at the head of its queue (R203 to R205). Reservations of younger
placements give way first, an older one sends this one back to its queue (R206). A sheaf that this panel cannot hold alone reserves what it
finds here, if its ASID is live here, and asks the other panels of the domain for the rest. -/
def State.startPlacement (s : State) : State :=
  match s.queueHead, s.sow.placing with
  | some (t, h), none =>
    let wires := h.image.contexts.length
    let found := if bitAt (s.asidEntry h.asid) 63 then s.choosePlaces h.image.rows h.image.cols wires 0 else []
    let places := found.take h.image.dies
    let others := s.panelsAfter none
    if places.length < h.image.dies ∧ others = [] then s
    else
      let (a, s) := s.fresh
      match s.reservePlaces h.ticket a h.image.rows h.image.cols wires places with
      | .older => s
      | .waits s => s.defer (.reserve 0 h.ticket a h.asid 0 0 0 h.image.rows h.image.cols wires [])
      | .done s' => s'.seekPlaces { sheaf := t, attempt := a, places := places, gids := [], panel := s.panel, agree := [] } h others.head? 0
  | _, _ => s

/-- PLACEMENT_START (R203). -/
def execPlacementStart (s : State) : Out := ok s.startPlacement

/-- The answer of a panel about a rectangle (R205): it is one more place, or with none the next panel is asked, and after the last every
reservation is released. -/
def State.placeAnswer (s : State) (p : Placing) (h : Sheaf) (die row col rows : Nat) : State :=
  if rows = 0 then s.seekPlaces p h (s.panelsAfter (some p.panel)).head? 0
  else s.seekPlaces { p with places := p.places ++ [{ panel := p.panel, die := die, row0 := row, col0 := col }] } h (some p.panel) (die + 1)

/-- The answer of a panel about the identifier of the last group (R204): the one asked for, to which, and to its generation, the next panel has to agree;
a higher one, which then all of them have to; or none. -/
def State.gidAnswer (s : State) (p : Placing) (h : Sheaf) (generation : Nat) (gids : List Nat) : State :=
  let i := p.gids.length - 1
  match gids, p.gids[i]? with
  | g :: _, some (asked, n) =>
    if g ≠ asked then s.settleGids (h.image.groups.length - i) p h i g
    else
      let p := { p with
        gids := p.gids.take i ++ [(g, if n = anyGeneration then generation else n)]
        agree := p.agree.drop 1 }
      if p.agree.isEmpty then s.settleGids (h.image.groups.length - (i + 1)) p h (i + 1) 0 else s.askGid p h
  | _, _ => s.abortPlacing

/-- The answer of a panel to the placement in flight, if it answers what was asked last; an older placement there (5) makes it yield (R206). -/
def State.placementAnswer (s : State) (ticket : Word) (attempt panel kind die row col rows : Nat) (gids : List Nat) : State :=
  match s.sow.placing with
  | none => s
  | some p =>
    if s.ticketWord p.sheaf ≠ ticket ∨ p.attempt ≠ attempt then s
    else
      match s.sheaf p.sheaf with
      | none => s
      | some h =>
        if kind = 5 then s.abortPlacing
        else if kind = 2 ∧ p.agree = [] ∧ panel = p.panel then s.placeAnswer p h die row col rows
        else if kind = 4 ∧ p.agree.head? = some panel then s.gidAnswer p h die gids
        else s

/-- Serves another panel's request for a rectangle from a die on (R204 to R206): the first free one is reserved with its wire contexts, and the
answer names it; it is empty without one, and where the ASID is not live. -/
def State.serveRectangle (s : State) (ticket : Word) (attempt asid die rows cols wires : Nat) : State :=
  let answer (s : State) (kind : Nat) (p : Option Place) : State :=
    s.sendSower (field ticket 0 6) (match p with
      | some p => .reserve kind ticket attempt asid p.die p.row0 p.col0 rows cols wires []
      | none => .reserve kind ticket attempt asid 0 0 0 0 0 0 [])
  match if bitAt (s.asidEntry asid) 63 then (s.choosePlaces rows cols wires die).head? else none with
  | none => answer s 2 none
  | some p => match s.reservePlaces ticket attempt rows cols wires [p] with
    | .older => answer s 5 none
    | .waits s => s.defer (.reserve 0 ticket attempt asid die 0 0 rows cols wires [])
    | .done s => answer s 2 (some p)

/-- Serves another panel's request for a group identifier, the last of those given, beside the others, and its generation (R204, R206): the lowest that is
free here from it on is reserved. While that generation has to be swept here, the request meets none (R223). -/
def State.serveGid (s : State) (ticket : Word) (attempt asid generation : Nat) (gids : List Nat) : State :=
  let answer (s : State) (kind n : Nat) (l : List Nat) : State :=
    s.sendSower (field ticket 0 6) (.reserve kind ticket attempt asid n 0 0 0 0 0 l)
  let others := gids.dropLast
  match s.freeGid others (gids.getLast?.getD 0) with
  | none => answer s 4 0 []
  | some g =>
    let n := if generation = anyGeneration then (s.group g).generation else generation
    if gids.getLast? = some g ∧ (s.group g).due n then (answer s 4 0 []).at s.cycle (.generationSweep g)
    else match s.reserve ticket attempt [] [] (others ++ [g]) with
      | .older => answer s 5 0 []
      | .waits s => s.defer (.reserve 3 ticket attempt asid generation 0 0 0 0 0 gids)
      | .done s => answer s 4 n [g]

/-- Serves a request that waited until younger placements had yielded (R206): another panel's, or this panel's own, which is placed anew or goes on
with its groups. -/
def State.serveDeferred (s : State) (b : Body) : State :=
  match b with
  | .reserve kind ticket attempt asid die row _ rows cols wires gids =>
    if field ticket 0 6 ≠ s.panel then
      if kind = 0 then s.serveRectangle ticket attempt asid die rows cols wires else s.serveGid ticket attempt asid die gids
    else if kind = 0 then s.startPlacement
    else
      match s.sow.placing with
      | none => s
      | some p =>
        match s.sheaf p.sheaf with
        | none => s
        | some h => if p.attempt = attempt then s.settleGids (h.image.groups.length - row) p h row die else s
  | _ => s

/-- Puts a request before the first one of a younger ticket. -/
def insertOldest (b : Body) : List Body → List Body
  | [] => [b]
  | c :: l => if (b.about.map (·.toNat)).getD 0 < (c.about.map (·.toNat)).getD 0 then b :: c :: l else c :: insertOldest b l

/-- What waits for reservations that are gone is served, the oldest ticket first, and a placement is tried (R206). -/
def State.afterRelease (s : State) : State :=
  let l := s.sow.deferred.foldl (fun l b => insertOldest b l) []
  (l.foldl (fun s b => s.serveDeferred b) (s.modSow fun w => { w with deferred := [] })).kickPlacement

/-- What a ticket of another panel has reserved here, or asks for, is released (R205). -/
def State.released (s : State) (ticket : Word) : State :=
  ((s.unreserve ticket).modSow fun w => { w with deferred := w.deferred.filter fun b => b.about != some ticket }).afterRelease

/-- A sheaf of another panel commits (R205): what it has reserved here becomes its own, and loading begins. Its record here has no launch. -/
def State.adopt (s : State) (x : Share) : State :=
  if (s.sow.held.any fun r => r.ticket == x.ticket) = false then s
  else
    let wires := s.heldWires x.ticket
    let h : Sheaf :=
      { here := s.panel, sat := true, others := [], sid := x.sid, ticket := x.ticket, st := .loading, source := .host 0, prio := x.prio,
        asid := x.asid, imageAddr := 0, image := x.image, preds := [], done := 0, places := x.places, wires := [], groups := x.groups,
        area := x.area, status := 0, round := 0, roundStart := 0, sums := [], resumed := x.resumed, starting := 0, awaits := [s.panel],
        stopped := [], settled := true, saved := x.saved, ops := x.ops }
    let h := { h with starting := h.homePlaces.length }
    let s := ((s.unreserve x.ticket).modSow fun w => { w with foreign := KMap.put w.foreign h.key h }).seat h wires
    (((s.draw).2).at (s.cycle + Config.serviceTime s.free) (.sheafLoad h.key)).afterRelease

/-! ### The ASID table (R198) -/

/-- ASID_ENTRY_WRITE: a write of an entry (R198): one with another MODE, or that would change the entry of sheaves that use it, is
ignored entirely. -/
def execAsidEntryWrite (index : Nat) (value : BitVec 64) (s : State) : Out :=
  ok (
    let old := s.asidEntry index
    let mode := field value 44 4
    let changes := (bitAt old 63 && !bitAt value 63) || field old 0 48 != field value 0 48
    if (mode ≠ 0 ∧ mode ≠ 9) ∨ (field old 48 13 ≠ 0 ∧ changes) then s
    else
      (s.modSow fun w => { w with
        asid := KMap.put w.asid index (BitVec.ofNat 64 (field value 0 48 + bit (bitAt value 63) * 2 ^ 63)) }).kickPlacement)

/-! ### Group generations (R221 to R223) -/

/-- Frees a group: its generation rises modulo 16, and the tree it had stays until a sweep (R222, R223). -/
def State.freeGroup (s : State) (g : Nat) : State :=
  s.modGroup g fun x => { x with
    used := false
    generation := (x.generation + 1) % 16
    behind := x.behind ++ [{ generation := x.generation, tree := x.tree, sweeping := false }]
    members := []
    tree := [] }

/-- The tree of a group under a generation, while it may have packets in flight. -/
def Group.treeUnder (g : Group) (generation : Nat) : Option Tree :=
  match g.behind.find? fun b => b.generation == generation with
  | some b => some b.tree
  | none => if g.used ∧ g.generation = generation then some g.tree else none

/-- The other panels that a tree reaches. -/
def Tree.panels (t : Tree) : List Nat := ((t.filter fun x => isForeign x.node).map fun x => panelTo x.node).eraseDups

/-- How many markers come back to a node: one from each leaf below it on this panel, and one from each panel entered below it (R223; log 33). -/
def Tree.returns (t : Tree) (n : Nat) : Nat :=
  (t.filter fun x => (t.path x.node).contains n && if isForeign x.node then x.parent.any fun p => !isForeign p else x.children.isEmpty).length

/-- Where a node's markers are counted. -/
def markerKey (n generation : Nat) : Nat := 16 * n + generation

/-- A generation has been swept: it has no packet in flight (R223 step 3). -/
def State.swept (s : State) (g generation : Nat) : State :=
  (s.modGroup g fun x => { x with
    behind := x.behind.filter fun b => b.generation != generation
    awaits := x.awaits.filter fun a => a.1 % 16 != generation }).kickPlacement

/-- The root's panel has swept a generation: the other panels of its tree hear of it (R223; log 33). -/
def State.sweptAll (s : State) (g generation : Nat) (t : Tree) : State :=
  t.panels.foldl (fun s q => s.sendSower q (.sweep g generation true)) (s.swept g generation)

/-- A marker of a sweep goes over a link of the tree (R223), behind what its link carries (R133), under the generation that is swept. -/
def State.sendMarker (s : State) (group generation a b : Nat) : State :=
  s.sendHop (16 * group + generation) { src := a, dst := b, body := .marker group, leave := nodeCycles a (.marker group), held := [] }

/-- A node sends a marker to each of its children, and counts those that will return. -/
def State.spreadMarkers (s : State) (group generation n : Nat) (t : Tree) : State :=
  let s := s.modGroup group fun x => { x with awaits := KMap.put x.awaits (markerKey n generation) (t.returns n) }
  (t.children n).foldl (fun s c => s.sendMarker group generation n c) s

/-- Sweeps a generation of a group (R223): a marker leaves the root of its tree toward every leaf; where the root lies on another panel, that panel is
asked to. -/
def State.sweepGeneration (s : State) (group generation : Nat) : State :=
  match (s.group group).behind.find? fun b => b.generation == generation with
  | none => s
  | some b =>
    if b.sweeping then s
    else
      match b.tree.root with
      | none => s.swept group generation
      | some r =>
        let s' := s.modGroup group fun x => { x with
          behind := x.behind.map fun b => if b.generation = generation then { b with sweeping := true } else b }
        if isForeign r then s'.sendSower (panelTo r) (.sweep group generation false)
        else if (b.tree.children r).isEmpty then s.swept group generation
        else s'.spreadMarkers group generation r b.tree

/-- GENERATION_SWEEP: the oldest generation of a group that may still have packets in flight is swept (R223). -/
def execGenerationSweep (group : Nat) (s : State) : Out :=
  ok (match (s.group group).behind with
    | [] => s
    | b :: _ => s.sweepGeneration group b.generation)

/-- A marker of a group that lands now. -/
def State.markerHere (s : State) (group : Nat) : Option (Nat × Msg) :=
  s.net.find? fun p => (match p.2.body with | .marker g => g == group | _ => false) && p.2.route.isEmpty && decide (p.2.due ≤ s.cycle)

/-- A marker that comes back up is at a node: one that counts the markers below it, the root or the node by which another panel's marker came, ends
the sweep, or sends that marker back, with the last of them; any other sends it on (R223). -/
def State.markerUp (s : State) (group generation n : Nat) (t : Tree) : State :=
  let up (s : State) : State :=
    match t.parent n with
    | some p => s.sendMarker group generation n p
    | none => s
  match KMap.get (s.group group).awaits (markerKey n generation) with
  | none => up s
  | some k =>
    if 1 < k then s.modGroup group fun x => { x with awaits := KMap.put x.awaits (markerKey n generation) (k - 1) }
    else
      let s := s.modGroup group fun x => { x with awaits := KMap.del x.awaits (markerKey n generation) }
      if (t.parent n).isNone then s.sweptAll group generation t else up s

/-- SWEEP_MARKER_RETURN: a marker is at a node of the tree of its generation: on its way down it goes on to every child, and at a leaf turns back; on its
way up it goes on to the parent, and the last one at the root ends the sweep (R223). -/
def execSweepMarkerReturn (group : Nat) (s : State) : Out :=
  ok (match s.markerHere group with
    | none => s
    | some (id, m) =>
      let s := s.drop id
      let generation := m.generation % 16
      match (s.group group).treeUnder generation with
      | none => s
      | some t =>
        let n := m.dst
        if t.parent n = some m.src ∧ ¬ (t.children n).isEmpty then
          if isForeign m.src then s.spreadMarkers group generation n t
          else (t.children n).foldl (fun s c => s.sendMarker group generation n c) s
        else s.markerUp group generation n t)

/-- A message about a sweep (R223): this panel, which has a tree's root, is asked to sweep a generation, which it answers at once if it has swept it
before, or it is told that a generation of a tree rooted at the sender's panel has been swept. One that asks while the group is still in use here
is looked at again. -/
def State.sweepMessage (s : State) (msg : Nat) (m : Msg) (group generation : Nat) (done : Bool) : State :=
  let g := s.group group
  let panel := panelTo m.src
  if done then
    let mine := (g.behind.find? fun b => b.generation == generation).any fun b => b.tree.root.any fun r => isForeign r && panelTo r == panel
    if mine then (s.drop msg).swept group generation else s.drop msg
  else if g.used ∧ g.generation = generation then s.at (s.cycle + 16) (.reservationMessage msg)
  else if g.due generation then (s.drop msg).sweepGeneration group generation
  else (s.drop msg).sendSower panel (.sweep group generation true)

/-! ### The instruction -/

/-- The launch whose answer the issuing slot waits for: its own, or, in a restored context, one that its context had made (R353). -/
def State.launchOf (s : State) : Option Nat :=
  match s.me.issued with
  | some id => some id
  | none =>
    if s.me.waitKind = some .resumed then (s.here.sows.find? fun p => p.1 == s.curSlot).map fun p => p.2 else none

/-- A slot waits for the answer of a launch. -/
def State.awaitLaunch (s : State) (id : Nat) : State := (s.block .unlimited).modMe fun t => { t with issued := some id }

/-- SOW (R209, R295): the slot waits until its earlier accesses are performed; then the record is read and sent, and the slot stays
BLOCKED until the Sower answers. A poisoned record is an invalid one (log 34). The record and its answer wait for the modules on their way, or
are lost on it, after which no answer comes (R391; log 57). -/
def execSow (rd rs1 : BitVec 5) (s : State) : Out :=
  ok (match s.launchOf with
    | some id =>
      let s := (s.modHere fun k => { k with sows := k.sows.erase (s.curSlot, id) })
      (match KMap.get s.sow.answers id with
      | some w =>
        let taken (s : State) : State := s.modSow fun x => { x with answers := KMap.del x.answers id }
        s.travels [route relayBase s.curCore true] (fun s => (taken s).finishX rd w) (fun s => s.awaitLaunch id) fun s => (taken s).awaitLaunch id
      | none => s.awaitLaunch id)
    | none =>
      readWrite [.x rs1] (.x rd) s fun s =>
        let a := s.x rs1
        withDescriptor a s fun s =>
          if s.me.accs ≠ [] then s.block .unlimited
          else if s.here.poisoned a.toNat 64 then s.finishX rd 6
          else
            let (id, s') := s.fresh
            let l : Launch :=
              { id := id, source := .slot s.curCore s.curSlot, user := s.me.mode == .u,
                record := (below 8).map fun k => BitVec.ofNat 64 (s.here.spad.load 8 (a.toNat + 8 * k)) }
            let time := Config.serviceTime s.free
            s'.travels [route s.curCore relayBase true]
              (fun s => (((s.draw).2.modSow fun w => { w with inbox := w.inbox ++ [l] }).at (s.cycle + 1 + time) (.launchAccept id)).awaitLaunch id)
              (fun s => s.block .unlimited) fun s => s.awaitLaunch id)

end Sys2Proof.Machine
end

