-- ==== Sys2Proof/Machine/Load.lean ====
section
/-! DEFINITION. Loading a sheaf onto its cores, at its launch (R75, R81, R195 to R198, R207) or from a save area (R216, R217, R355), and the
start wave (R208). -/

namespace Sys2Proof.Machine

/-! ### What a core gets at dispatch -/

/-- The `wsheaf` of a sheaf (R196). -/
def Sheaf.word (h : Sheaf) : Word :=
  BitVec.ofNat 64 (h.sid * 2 ^ 52 + h.prio * 2 ^ 45 + h.asid * 2 ^ 32 + (h.image.dies - 1) * 2 ^ 16 + (h.image.rows - 1) * 2 ^ 8
    + (h.image.cols - 1))

/-- The die map of a placed sheaf (R94). -/
def Sheaf.dieMap (h : Sheaf) : KMap (BitVec 32) :=
  ((below h.places.length).zip h.places).map fun p =>
    (p.1, BitVec.ofNat 32 (2 ^ 31 + p.2.panel * 2 ^ 25 + p.2.die * 2 ^ 20 + p.2.row0 * 2 ^ 15 + p.2.col0 * 2 ^ 11))

/-- The process id of slot 0 of a sheaf-relative core (R54). -/
def relPid (d r c : Nat) : Nat := d * 2 ^ 13 + r * 2 ^ 8 + c * 16

/-- The satp and `wasid` of a sheaf's dispatch: MODE and PPN of its ASID's entry with the ASID (R197, R198). -/
def State.dispatchSatp (s : State) (asid : Nat) : Word :=
  let e := s.asidEntry asid
  BitVec.ofNat 64 (field e 44 4 * 2 ^ 60 + asid * 2 ^ 44 + field e 0 44)

/-- The dispatch value of `wlocwin` for a crew (R81). -/
def Crew.locwin (k : Crew) : Word :=
  let t := max 1 ((k.text.length + 4095) / 4096)
  BitVec.ofNat 64 (2 ^ 62 + 2 ^ 61 + 479 * 2 ^ 48 + t * 2 ^ 32 + 2 ^ 31 + 2 ^ 29 + (t - 1) * 2 ^ 16)

/-- A slot that holds a process and has not started: its dispatch state (R75, R81, R195, R198). The start wave makes it READY. Its block sequence
number begins at 0, as after a sheaf's resume: the model's choice (log 114). -/
def Slot.dispatched (entry wfmt wscl satp locwin : Word) (pid : Nat) : Slot :=
  { Slot.reset with
    pc := entry
    pid := some pid
    u := { UCsrs.reset with
      wfmt := wfmt
      wscl := wscl
      wlocwin := locwin }
    c := { Csrs.reset with satp := satp } }

/-- Fills the sheaf region of a scratchpad: the parts given, zero elsewhere, no poison (R207, R345). -/
def Core.fillRegion (k : Core) (parts : List (Nat × List Byte)) : Core :=
  let k := { k with
    spad := parts.foldl (fun m (p : Nat × List Byte) => m.writeAll p.1 p.2) (k.spad.clear 0 sheafRegion)
    spadPoison := k.spadPoison.filter fun w => decide (sheafRegion ≤ 8 * w) }
  k.clearResv 0 sheafRegion

/-- A Gleaner without the lists of a sheaf: those of the service slot stay. -/
def Gleaner.emptied (g : Gleaner) : Gleaner :=
  { lists := g.lists.filter fun l => l.slot == 15, nextLid := g.nextLid, kept := [], lastBy := [], turn := 0, sentAt := g.sentAt, frozen := false }

/-- A Thresher without the operations of a sheaf. -/
def Thresher.emptied (h : Thresher) : Thresher :=
  let ops := h.ops.filter fun o => o.slot == 15
  { ops := ops, nextOid := h.nextOid, kept := [], lastBy := [],
    tiles := h.tiles.filter fun t => ops.any fun o => o.drainTile == some t.1 }

/-- A counter preset of an image (R104). -/
def presetOf (p : BitVec 32 × BitVec 32 × BitVec 2) : Counter :=
  { Counter.reset with
    value := p.1
    target := p.2.1
    mode := p.2.2 }

/-- What every core of a sheaf gets at dispatch and at resume (R94, R196). -/
def Core.identified (k : Core) (h : Sheaf) (d r c : Nat) : Core :=
  { k with
    wsheaf := h.word
    dmap := h.dieMap
    dmapSel := 0
    pidBase := relPid d r c }

/-- A core loaded from its crew (R207): region, counters, windows with the sheaf's ASID, `wasid`, accumulators zero and FULL (R328), list and
operation numbers from 1 (R287, R291), and the slots that the crew starts. -/
def Core.loaded (k : Core) (h : Sheaf) (satp : Word) (crew : Crew) (d r c : Nat) : Core :=
  let k := (k.fillRegion [(0, crew.text), (crew.dataAt, crew.data)]).identified h d r c
  { k with
    cnt := Vector.ofFn fun i => match crew.counters[i.val]? with
      | some p => presetOf p
      | none => Counter.reset
    win := Vector.ofFn fun i => match crew.windows[i.val]? with
      | some w => if w = 0 then 0 else setField w 50 10 h.asid
      | none => 0
    wasid := satp
    eps := []
    grp := Vector.replicate 16 0
    acc := Vector.replicate 8 Acc.reset
    gl := { k.gl.emptied with nextLid := 1 }
    th := { k.th.emptied with nextOid := 1 }
    issuedTotal := 0
    landedTotal := 0
    sentTotal := 0
    receivedTotal := 0
    slots := Vector.ofFn fun i =>
      if i.val = 15 then k.slot 15
      else
        match crew.slots.find? fun p => p.1 == i.val with
        | some (_, entry, wfmt, wscl) => Slot.dispatched entry wfmt wscl satp crew.locwin (relPid d r c + i.val)
        | none => Slot.reset }

/-- The endpoint of one end of a channel of a placed sheaf (R108). -/
def Sheaf.endpoint (h : Sheaf) (mine peer : ChanEnd) (sending : Bool) : Nat × Endpoint :=
  let c := h.coreOf mine.die mine.row mine.col
  let p := h.coreOf peer.die peer.row peer.col
  (c, { sending := sending, owner := mine.slot, peerCore := p, peerSlot := peer.slot, peerEp := peer.ep,
        peerPid := relPid peer.die peer.row peer.col + peer.slot, scope := coreScope c p, broken := false, offer := none,
        recvOut := none, recvRec := none, sendPending := false, ackKept := none, kept := none, withdrawing := false, victim := none })

/-- Binds an endpoint of a core. -/
def State.bindEnd (s : State) (c ep : Nat) (e : Endpoint) : State :=
  s.modCore c fun k => { k with eps := KMap.put k.eps ep e }

/-- Binds the ends of a channel that lie on this panel (R108). -/
def State.bindChannel (s : State) (h : Sheaf) (a b : ChanEnd) : State :=
  let (c, e) := h.endpoint a b true
  let (c', e') := h.endpoint b a false
  let s := if isForeign c then s else s.bindEnd c a.ep e
  if isForeign c' then s else s.bindEnd c' b.ep e'

/-- Sets the handle of a group of a sheaf at its members on this panel, which the group spans if its entry is the sheaf's (R120). -/
def State.loadHandle (s : State) (h : Sheaf) (handle index gid : Nat) : State :=
  let g := s.group gid
  if g.ticket ≠ h.key ∨ g.index ≠ index then s
  else (g.members.filter fun c => decide (c < relayBase)).foldl (fun s c => s.modCore c fun k => { k with grp := vecSet k.grp handle (handleWord index g.generation gid) }) s

/-- Loads a sheaf from its image (R207). -/
def State.loadFresh (s : State) (h : Sheaf) : State :=
  let satp := s.dispatchSatp h.asid
  let s := h.cores.foldl (fun s p => match h.image.crewOf p.2.1 p.2.2.1 p.2.2.2 with
    | some crew => s.modCore p.1 fun k => k.loaded h satp crew p.2.1 p.2.2.1 p.2.2.2
    | none => s) s
  let s := h.image.chans.foldl (fun s p => s.bindChannel h p.1 p.2) s
  (h.image.groups.zip (h.groups.zip (below h.groups.length))).foldl (fun s p => s.loadHandle h p.1.handle p.2.2 p.2.1.1) s

/-! ### The save area (R216, R355) -/

/-- The bytes of a core's block in a save area. -/
def blockSize : Nat := 0x210000

/-- Where the parts of a block that follow the scratchpad lie. -/
def saveCtx (i : Nat) : Nat := 0x200000 + 0xC00 * i

/-- A dword of a save block. -/
def State.saved (s : State) (base off : Nat) : Nat := s.mem.load 8 (base + off)

/-- The accumulator of a save block: values, owner, full/empty state and AFL. The flags that a stopped `mma` has raised so far are those the
suspend kept; restoring its record makes it the producer again (R278). -/
def State.savedAcc (s : State) (base n : Nat) (old : Acc) : Acc :=
  let w := s.saved base (0x20D400 + 8 * n)
  { words := BitVec.ofNat 8192 (s.mem.load 1024 (base + 0x20B400 + 0x400 * n)), reg := regStOf (bitsOf w 4 2),
    owner := if bitsOf w 0 4 = 15 then none else some (bitsOf w 0 4), afl := BitVec.ofNat 5 (bitsOf w 6 5), part := old.part }

/-- The counter of a save block. -/
def State.savedCounter (s : State) (base n : Nat) : Counter :=
  let a := s.saved base (0x20D800 + 16 * n)
  let w := s.saved base (0x20D808 + 16 * n)
  { value := BitVec.ofNat 32 (bitsOf a 0 32), target := BitVec.ofNat 32 (bitsOf a 32 32), mode := BitVec.ofNat 2 (bitsOf w 4 2),
    strict := bitsOf w 6 1 == 1, ovr := bitsOf w 1 1 == 1, loss := bitsOf w 2 1 == 1, cancel := bitsOf w 3 1 == 1 }

/-- The endpoint of a save block at its new core; `old` is the endpoint as it was saved, which gives the width of an outstanding receive
(the block holds it in the slot's context alone). -/
def State.savedEnd (s : State) (h : Sheaf) (c base n : Nat) (old : Option Endpoint) : Option Endpoint :=
  let w := s.saved base (0x20DC00 + 8 * n)
  if bitsOf w 29 1 = 0 then none
  else
    let d := bitsOf w 21 8
    let r := bitsOf w 16 5
    let k := bitsOf w 12 4
    let p := h.coreOf d r k
    some {
      sending := bitsOf w 30 1 == 1, owner := bitsOf w 36 4, peerCore := p, peerSlot := bitsOf w 8 4, peerEp := bitsOf w 0 8,
      peerPid := relPid d r k + bitsOf w 8 4, scope := coreScope c p, broken := bitsOf w 31 1 == 1, offer := none,
      recvOut := if bitsOf w 40 1 = 1 then some (((old.bind fun e => e.recvOut)).getD false) else none,
      recvRec := none, sendPending := bitsOf w 32 1 == 1, withdrawing := false, victim := old.bind fun e => e.victim,
      ackKept := if bitsOf w 33 1 = 1 then some (bitsOf w 34 2) else none, kept := none }

/-- A handle of a save block with its group's new identifier and generation (R217); its reserved bits read zero (R6, R120). -/
def State.savedHandle (s : State) (h : Sheaf) (base n : Nat) : Word :=
  let w : Word := BitVec.ofNat 64 (s.saved base (0x20E440 + 8 * n)) &&& 0x80000000FF0F0FFF#64
  match h.groups[field w 24 8]? with
  | some (gid, generation) => if bitAt w 63 then handleWord (field w 24 8) generation gid else w
  | none => w

/-- List `n` of a saved Gleaner: its LID, the address of its next descriptor and DONE come from the area (R355), the rest from what the suspend
kept. A descriptor that was read but not started is read again (R214 step 1, R217). -/
def State.savedList (s : State) (base n : Nat) (l : GList) : GList :=
  let w (i : Nat) : Nat := s.saved base (0x20E500 + 32 * n + 8 * i)
  { l with
    lid := w 0
    next := w 1
    done := w 2
    reading := false
    pending := none
    index := (l.pending.map fun e => e.index).getD l.index }

/-- Operation `n` of a saved Thresher: its OID, slot and tile come from the area (R355), the rest from what the suspend kept. -/
def State.savedOp (s : State) (base n : Nat) (o : ThOp) : ThOp :=
  let w (i : Nat) : Nat := s.saved base (0x20E900 + 128 * n + 64 + 8 * i)
  { o with
    oid := w 0
    slot := w 1
    drainTile := if w 2 = 0xFF then none else some (w 2) }

/-- The kept list statuses of a save block (R288, R355). -/
def State.savedKept (s : State) (base : Nat) : List (Nat × Word) :=
  (below 16).filterMap fun n =>
    let w : Word := BitVec.ofNat 64 (s.saved base (0x20E600 + 8 * n))
    if w = 0 then none else some (field w 16 16, w)

/-- A core of a resumed sheaf but for its slots (R216, R217): what R355 lays out comes from the area, as a write of the register would store it
(R6), the rest of its lists and operations from what the suspend kept. -/
def State.resumedCore (s : State) (h : Sheaf) (c base : Nat) (old k : Core) (d r col : Nat) : Core :=
  let w (off : Nat) : Nat := s.saved base off
  let k := (k.fillRegion []).identified h d r col
  { k with
    spad := (s.mem.filter fun b => decide (base ≤ b.1 ∧ b.1 < base + sheafRegion)).foldl
      (fun m b => m.write (b.1 - base) b.2) k.spad
    cnt := Vector.ofFn fun i => s.savedCounter base i.val
    win := Vector.ofFn fun i => (windowValue (BitVec.ofNat 64 (w (0x20E400 + 8 * i.val)))).getD 0
    acc := Vector.ofFn fun i => s.savedAcc base i.val (old.acc.get i)
    eps := (below 256).filterMap fun n => (s.savedEnd h c base n (KMap.get old.eps n)).map fun e => (n, e)
    grp := Vector.ofFn fun i => s.savedHandle h base i.val
    wasid := writeSatp 0 (BitVec.ofNat 64 (w 0x20FD00))
    gl := { old.gl with
      lists := (((below 8).zip (old.gl.lists.filter fun l => l.slot != 15)).map fun p => s.savedList base p.1 p.2) ++ k.gl.emptied.lists
      nextLid := w 0x20E680
      kept := s.savedKept base
      frozen := true }
    th := { old.th with
      ops := (((below 8).zip (old.th.ops.filter fun o => o.slot != 15)).map fun p => s.savedOp base p.1 p.2) ++ k.th.emptied.ops
      tiles := k.th.emptied.tiles.foldl (fun m t => KMap.put m t.1 t.2)
        ((old.th.tiles.filter fun t => old.th.ops.any fun o => o.slot != 15 && o.drainTile == some t.1).map fun t =>
          (t.1, BitVec.ofNat 8192 (s.mem.load 1024 (base + 0x20ED00 + 0x400 * t.1)), t.2.2))
      nextOid := w 0x20E688 }
    issuedTotal := w 0x20E690
    landedTotal := w 0x20E698
    sentTotal := old.sentTotal
    receivedTotal := old.receivedTotal
    wireArr := (below 8).filterMap fun b =>
      let x := w (0x20E4C0 + 8 * b)
      if bitsOf x 8 2 ≠ 0 then some (b, bitsOf x 0 8) else (KMap.get old.wireArr b).map fun p => (b, p)
    aside := (below 15).flatMap fun i => (old.slot i).stopped.map fun o => (i, o.acc, o.access)
    sows := old.sows
    slots := Vector.ofFn fun i => if i.val = 15 then k.slot 15 else Slot.reset }

/-- A slot whose CSRs of the context are as writes of their values store them: their reserved fields read zero (R6). -/
def Slot.csrsStored (t : Slot) : Slot :=
  let from_ : Slot := { t with
    u := { UCsrs.reset with
      wwinsel := t.u.wwinsel
      wgsel := t.u.wgsel }
    c := Csrs.reset }
  (t.csrList.zip ctxCsrs).foldl (fun (r : Slot) p => { r with
    u := r.u.write p.2 p.1
    c := r.c.write p.2 p.1 }) from_

/-- Restores a slot of a resumed sheaf from its context (R216, R217), held until the start wave: the registers of one that holds no process, and
of a process the whole; either with the accesses, the pending barrier arrivals (R118) and what is left of a pending fence (R164) that the suspend kept: the accesses of
engine and tensor work that goes on after the resume. -/
def State.resumeSlot (s : State) (c base : Nat) (old : Slot) (i : Nat) : State :=
  let x : BitVec 32768 := BitVec.ofNat 32768 (s.mem.load 3072 (base + saveCtx i) ||| 2 ^ 70)
  let s := s.modSlot c i fun t => { t with
    pid := old.pid
    accs := old.accs
    wbar := old.wbar }
  let s :=
    if old.pid.isNone then
      s.modSlot c i fun t => { t.restored x i s.cycle 0 with
        st := .stopped
        hold := false
        token := false
        wait := none
        stopped := []
        pendTrap := none
        pendFault := none
        recsHeld := false }
    else (s.restoreSlot c i x).modSlot c i fun t => { t with
      issued := old.issued
      fence := old.fence }
  s.modSlot c i Slot.csrsStored

/-- The RECV records of a resumed sheaf: an outstanding receive is recorded at the sending end (R227). -/
def State.recordRecvs (s : State) (c : Nat) : State :=
  (s.core c).eps.foldl (fun s p =>
    if p.2.recvOut.isSome ∧ p.2.sending = false then
      s.modEndpoint p.2.peerCore p.2.peerEp fun e => { e with recvRec := (s.slot c p.2.owner).pid }
    else s) s

/-- The phase of a wire context in a save block, with the cores that have arrived in it (R216, R217). A phase in which all of them have arrived
is released in its turn (R118). -/
def State.resumeWire (s : State) (die n : Nat) (w : WireCtx) (bases : KMap Nat) : State :=
  let saved (c : Nat) : Nat := s.saved ((KMap.get bases c).getD 0) (0x20E4C0 + 8 * w.context)
  let phase := match w.members with
    | c :: _ => bitsOf (saved c) 0 8
    | [] => 0
  let arrived := w.members.filter fun c => bitsOf (saved c) 8 1 == 1
  let s := s.modDie die fun x => { x with wires := KMap.put x.wires n { w with
    phase := phase
    arrived := arrived } }
  if arrived.length = w.members.length then s.at (s.cycle + 24) (.wbarPhaseRelease die n phase) else s

/-- A plane operation that had not started before the suspend, on its group's new identifier and cores, if the group spans this panel (R214 step 2, R217):
one of its group and tile that another panel had is the same operation. -/
def State.restoreOp (s : State) (h : Sheaf) (o : SavedOp) : State :=
  match h.groups[o.index]? with
  | none => s
  | some (gid, _) =>
    let g := s.group gid
    if g.ticket ≠ h.key ∨ g.index ≠ o.index then s
    else
      let place (m : Nat) : Nat := (g.members[m]?).getD 0
      let ranks : KMap Rank := o.ranks.map fun r => (r.1, { r.2 with core := place r.1 })
      let cancels := o.cancels.map fun m => (place m, place m)
      let same := s.planes.find? fun p =>
        p.2.group == gid && p.2.generation == g.generation && p.2.tile == o.tile && p.2.ref.isNone && o.joined.all fun m => (KMap.get p.2.ranks m).isNone
      let (p, s) := match same with
        | some (p, x) =>
          (p, { s with planes := KMap.put s.planes p { x with
            joined := x.joined ++ o.joined
            ranks := ranks.foldl (fun l (r : Nat × Rank) => KMap.put l r.1 r.2) x.ranks
            cancels := x.cancels ++ cancels } })
        | none =>
          let (p, s) := s.fresh
          (p, { s with planes := KMap.put s.planes p (PlaneOp.joining gid g o.tile o.joined ranks cancels) })
      ranks.foldl (fun (s : State) (r : Nat × Rank) =>
        if isForeign r.2.core then s else s.modThOp r.2.core r.2.oid fun t => { t with joined := some (p, r.1) }) s

/-- The descriptors from which the suspended operations of a core are restarted (R214 step 2, R355). -/
def State.resumeDescs (s : State) (c base : Nat) : State :=
  ((below 8).zip ((s.core c).th.ops.filter fun o => o.slot != 15)).foldl (fun s p =>
    match p.2.joined with
    | some j => s.modRank j.1 j.2 fun r => { r with
        desc := planeDesc (BitVec.ofNat 512 (s.mem.load 64 (base + 0x20E900 + 128 * p.1))) }
    | none => s) s

/-- A core of a sheaf's shape on this panel, with its place in the shape. -/
structure Block where
  core : Nat
  die : Nat
  row : Nat
  col : Nat
  index : Nat
  deriving DecidableEq, Repr

/-- The cores of a sheaf on the panel of its record, in their order, each with its block in a save area: all cores are numbered in the order of (die index,
row, col) (R216). -/
def Sheaf.blocks (h : Sheaf) : List Block :=
  h.cores.map fun p =>
    { core := p.1, die := p.2.1, row := p.2.2.1, col := p.2.2.2, index := (p.2.1 * h.image.rows + p.2.2.1) * h.image.cols + p.2.2.2 }

/-- Where a block lies in a sheaf's save area (R216). -/
def Sheaf.blockAt (h : Sheaf) (b : Block) : Nat := h.area + b.index * blockSize

/-- A core of a sheaf as the suspend saved it. -/
def Sheaf.savedCore (h : Sheaf) (b : Block) : Core := (KMap.get h.saved b.index).getD Core.reset

/-- Loads what a sheaf has on this panel from its save area (R217). -/
def State.loadSaved (s : State) (h : Sheaf) : State :=
  let bases : KMap Nat := h.blocks.foldl (fun m b => KMap.put m b.core (h.blockAt b)) []
  let s := h.blocks.foldl (fun (s : State) b =>
    s.modCore b.core fun k => s.resumedCore h b.core (h.blockAt b) (h.savedCore b) k b.die b.row b.col) s
  let s := h.blocks.foldl (fun (s : State) b =>
    (below 15).foldl (fun (s : State) i => s.resumeSlot b.core (h.blockAt b) ((h.savedCore b).slot i) i) s) s
  let s := h.blocks.foldl (fun (s : State) b => s.recordRecvs b.core) s
  let s := h.homePlaces.foldl (fun (s : State) p =>
    ((KMap.get h.wires p.1).getD []).foldl (fun (s : State) b =>
      match KMap.get (s.die p.2.die).wires b.2 with
      | some w => s.resumeWire p.2.die b.2 w bases
      | none => s) s) s
  let s := h.ops.foldl (fun (s : State) o => s.restoreOp h o) s
  h.blocks.foldl (fun (s : State) b => s.resumeDescs b.core (h.blockAt b)) s

/-! ### The start wave (R208, R217) -/

/-- The routes of what the Sower writes for a sheaf to its cores on this panel. -/
def Sheaf.loadRoutes (h : Sheaf) : List Route := h.cores.map fun p => route relayBase p.1 false

/-- The cores of a sheaf of this panel are loaded on every panel: the start wave follows (R208). -/
def State.loadsDone (s : State) (t : Nat) : State :=
  if (s.sheaf t).any fun h => h.st == .loading && h.awaits.isEmpty then
    ((s.draw).2).at (s.cycle + 1 + Config.serviceTime s.free) (.startWave t)
  else s

/-- A panel has done what a sheaf of this panel waits for. -/
def State.heard (s : State) (t panel : Nat) : State := s.modSheaf t fun h => { h with awaits := h.awaits.erase panel }

/-- SHEAF_LOAD: what a committed sheaf has on this panel is loaded (R207, R217); the start wave follows the last load of every panel (R208, R209), of
which a sheaf's home hears. The loads wait for the modules on their way, or are lost on it (R391; log 57). -/
def execSheafLoad (ticket : Nat) (s : State) : Out :=
  ok (match s.sheaf ticket with
    | none => s
    | some h =>
      if h.st ≠ .loading then s
      else
        s.travels h.loadRoutes
          (fun s =>
            let s := (if h.resumed then s.loadSaved h else s.loadFresh h).heard ticket h.here
            if h.home ≠ h.here then s.sendSower h.home (.sower h.ticket .loaded) else s.loadsDone ticket)
          (fun s => s.at (s.cycle + 1) (.sheafLoad ticket)) id)

/-- A sheaf that has started on its panel. -/
def Sheaf.begun (h : Sheaf) : Sheaf := { h with
  st := .started
  resumed := false
  saved := []
  ops := [] }

/-- START_WAVE: the home Sower sends START to each die of the sheaf, once every crew is loaded, at the router of its rectangle's origin (R208). -/
def execStartWave (ticket : Nat) (s : State) : Out :=
  ok (match s.sheaf ticket with
    | none => s
    | some h =>
      if h.st ≠ .loading ∨ h.awaits ≠ [] then s
      else
        let n := h.homePlaces.length
        let s := s.modSheaf ticket fun h => if n = 0 then h.begun else { h with starting := n }
        h.places.foldl (fun s p =>
          s.sendTo .chn relayBase (foreignTarget p.panel h.here (coreAt p.die p.row0 p.col0))
            (.start (if p.panel = h.here then ticket else foreignKey h.ticket)) 4 4) s)

/-- The value of the send that a slot's pc names, with its width: `chs` and `chsv` by their bits (R10, R13). -/
def State.sendValue (s : State) (c i : Nat) : Option (Bool × VWord) :=
  let t := s.slot c i
  let w := s.wordAt c i
  if field w 0 15 ≠ 0x500B then none
  else if field w 28 4 = 0 then some (false, (t.getX (BitVec.ofNat 5 (field w 15 5))).setWidth 1024)
  else if field w 28 4 = 1 then some (true, t.getV (BitVec.ofNat 4 (field w 15 4)))
  else none

/-- An endpoint with a pending send posts its offer again (R355). -/
def State.repost (s : State) (c n : Nat) (e : Endpoint) : State :=
  if e.sending ∧ e.sendPending then
    match s.sendValue c e.owner with
    | some (vec, v) => s.postOffer c n e { vec := vec, value := v, pid := (s.slot c e.owner).pidWord }
    | none => s
  else s

/-- A slot of a resumed sheaf is released (R217): it goes on in its saved state, and from WALK or PAGE reissues, the latter once its fault record
is posted (R348). Its barrier arrivals that wait for nothing are signalled (R118). -/
def State.resumeRelease (s : State) (c i : Nat) : State :=
  let t := s.slot c i
  let s :=
    if t.pid.isNone ∨ t.hold = false then s
    else (s.releaseSlot c i s.cycle).modSlot c i fun u => match t.st with
      | .faulted => { u with
          st := .faulted
          leaving := false }
      | .walk => { u with st := .ready }
      | .page => { u with
          st := .page
          leaving := true }.settled s.cycle
      | _ => u
  s.knownWbar c i

/-- A started slot is READY, and issues from its die's next rotation on (R208). -/
def State.startSlot (s : State) (c i : Nat) : State :=
  if (s.slot c i).pid.isSome ∧ (s.slot c i).st = .stopped then
    (s.modSlot c i fun t => { t with st := .ready }).ensureIssue c i (s.cycle - 1)
  else s

/-- A die of a sheaf releases its slots (R208, R217). -/
def State.releaseDie (s : State) (h : Sheaf) (die : Nat) : State :=
  let cores := (h.cores.map fun p => p.1).filter fun c => dieOf c == die
  if h.resumed then
    let s := cores.foldl (fun (s : State) c => (below 15).foldl (fun (s : State) i => s.resumeRelease c i) s) s
    let s := cores.foldl (fun (s : State) c => (s.core c).eps.foldl (fun s p => s.repost c p.1 p.2) s) s
    cores.foldl (fun (s : State) c => (s.modGl c fun g => { g with frozen := false }).kickGleaner c) s
  else cores.foldl (fun (s : State) c => (below 15).foldl (fun (s : State) i => s.startSlot c i) s) s

/-- The START of a sheaf that lands on a die now. -/
def State.startHere (s : State) (die ticket : Nat) : Option Nat :=
  (s.net.find? fun p => p.2.body == .start ticket && dieOf p.2.dst == die && p.2.route.isEmpty && decide (p.2.due ≤ s.cycle)).map
    fun p => p.1

/-- START_RELEASE: START lands on a die, and at the first rotation boundary at least 64 cycles later the die releases the sheaf's slots
(R208), none before the loads of its panel (R209). Once every die has, the sheaf has started. -/
def execStartRelease (die ticket : Nat) (s : State) : Out :=
  ok (match s.sheaf ticket with
    | none => s
    | some h =>
      match s.startHere die ticket with
      | some id =>
        let wait := 64 + (16 - (s.cycle + 64 - (s.die die).origin) % 16) % 16
        (s.drop id).at (s.cycle + wait) (.startRelease die ticket)
      | none =>
        if h.st ≠ .loading ∨ h.starting = 0 then s
        else if h.awaits.contains h.here then s.at (s.cycle + 16) (.startRelease die ticket)
        else
          let s := (s.releaseDie h die).modSheaf ticket fun h => { h with starting := h.starting - 1 }
          if h.starting ≤ 1 then
            (s.modSheaf ticket Sheaf.begun).at s.cycle (.quiescenceRound ticket)
          else s)

end Sys2Proof.Machine
end

