-- ==== Sys2Proof/Machine/Suspend.lean ====
section
/-! DEFINITION. Suspending, resuming, retiring and killing sheaves (R214 to R220, R355), and the rounds of counts (R215, R404). -/

namespace Sys2Proof.Machine

/-! ### Rounds (R215, R404) -/

/-- The cycles of 7 µs, after which an incomplete round starts again (R404). -/
def roundLimit : Nat := 12250

/-- The most cycles that a round takes: 1.2 µs on one panel, and less than 7 µs across a domain (R215). -/
def Sheaf.roundTime (h : Sheaf) : Nat := if h.otherPanels = [] then 2100 else roundLimit - 1

/-- The tree over which the counts of a sheaf combine: that of its cores on this panel (R215, R221). -/
def Sheaf.roundTree (h : Sheaf) : Tree := treeOf (h.cores.map fun p => p.1)

/-- The cycles that a combine adds at a node of a tree on the way up: 3 for the hop there and 40 more from a relay, and 2 where several operands
meet (R388). -/
def combineCycles (t : Tree) (n : Nat) : Nat :=
  let inputs := (t.children n).length + bit ((t.at n).any fun x => x.member)
  (if (t.parent n).isNone then 0 else if n < relayBase then 3 else 43) + if inputs ≤ 1 then 0 else 2

/-- The cycles of a combine over a tree, from its last leaf to the root (R388). -/
def Tree.combineTime (t : Tree) : Nat := (t.leaves.map fun n => (t.path n).foldl (fun k m => k + combineCycles t m) 0).foldl max 0

/-- The sums of counts, as the combine units form them (R215, R388). -/
def addSums (a b : List Int) : List Int := (a.zip b).map fun p => combineInts .add p.1 p.2

/-- The sums of the counts of a sheaf's cores on this panel now (R215): issued, landed, sent, received. -/
def State.roundSums (s : State) (h : Sheaf) : List Int :=
  let counts (k : Core) : List Int := [k.issuedTotal, k.landedTotal, k.sentTotal, k.receivedTotal].map fun n => ((n : Nat) : Int)
  h.cores.foldl (fun l p => addSums l (counts (s.core p.1))) [0, 0, 0, 0]

/-- What the home of a sheaf says to the Sowers of other panels. -/
def State.tellPanels (s : State) (panels : List Nat) (h : Sheaf) (m : SowerMsg) : State :=
  panels.foldl (fun s q => s.sendSower q (.sower h.ticket m)) s

/-- The home of a sheaf asks other panels for something, for which the sheaf then waits. -/
def State.askPanels (s : State) (t : Nat) (panels : List Nat) (h : Sheaf) (m : SowerMsg) : State :=
  (s.modSheaf t fun h => { h with awaits := panels }).tellPanels panels h m

/-- Whether rounds of counts of a sheaf run (R214, R218). -/
def Sheaf.counts (h : Sheaf) : Bool := h.st == .suspending || h.st == .retiring || h.st == .killing

/-- Begins a round of counts of a sheaf: its cores send their counts, which combine over its tree on each panel, and what reaches the Sower completes
the round after a time that is open but for its bound (R215, R388), or it is restarted (R404). The other panels are asked for theirs. -/
def State.beginRound (s : State) (t : Nat) : State :=
  match s.sheaf t with
  | none => s
  | some h =>
    let k := h.roundTree.combineTime
    let due := s.cycle + k + 1 + Config.serviceTime s.free % max 1 (h.roundTime - k)
    let sums := s.roundSums h
    let s := ((s.draw).2).modSheaf t fun h => { h with
      round := due
      roundStart := s.cycle
      sums := sums
      settled := true }
    ((s.at due (.quiescenceRound t)).at (s.cycle + roundLimit) (.combineRoundRestart t)).askPanels t h.otherPanels h (.count s.cycle)

/-- The sums of another panel join those of the round that began in a cycle (R215), which completes with the last of them. -/
def State.takeCounts (s : State) (t panel start : Nat) (sums : List Int) (settled : Bool) : State :=
  match s.sheaf t with
  | none => s
  | some h =>
    if h.roundStart ≠ start ∨ h.awaits.contains panel = false then s
    else
      let s := (s.modSheaf t fun h => { h with
        sums := addSums h.sums sums
        settled := h.settled && settled }).heard t panel
      if h.awaits.erase panel = [] ∧ h.round ≤ s.cycle then
        (s.modSheaf t fun h => { h with round := s.cycle }).at s.cycle (.quiescenceRound t)
      else s

/-- The routes of a round on this panel: those of its tree's links, over the control network, and from its root to the Sower (R215, R388). -/
def Sheaf.roundRoutes (h : Sheaf) : List Route :=
  let ends := h.homePlaces.map fun p => coreAt p.2.die p.2.row0 p.2.col0
  match ends with
  | [] => []
  | root :: others => (others.map fun c => route c root true) ++ [route root relayBase true]

/-- Whether the sums of a round agree (R215). -/
def Sheaf.sumsAgree (h : Sheaf) : Bool :=
  match h.sums with
  | [issued, landed, sent, received] => issued == landed && sent == received
  | _ => false

/-- Whether every started process of a sheaf on this panel has stopped and its engines hold no more work of it (R218; log 35). The processes of a
halted core count as stopped for a kill (R343). -/
def State.allStopped (s : State) (h : Sheaf) : Bool :=
  h.cores.all fun p =>
    let k := s.core p.1
    ((below 15).all fun i => (k.slot i).pid.isNone) && (k.th.ops.all fun o => o.slot == 15) && k.gl.lists.all fun l => l.slot == 15

/-- Whether the units of a core have finished what slots 0 to 14 started (R213, R214, R354). -/
def Core.unitsRest (k : Core) : Bool :=
  let mine (i : Nat) : Bool := i != 15
  (k.outq.all fun q => !q.2.counted) && !(k.trun.any fun r => mine r.op.slot) && !(k.mloads.any fun m => mine m.2.slot)
    && !(k.drains.any fun d => mine d.slot) && !(k.sfuq.any fun q => mine q.slot && !q.discarded)
    && (below 15).all fun i => (k.slot i).mem.isNone

/-- Whether a core of a suspending sheaf can be saved: besides, its slots' accesses but for those of engine work that waits for the resume
are performed, no entry of its Gleaner is in flight, and every plane operation of it that has started has ended (R214, R354). -/
def State.saveReady (s : State) (c : Nat) : Bool :=
  let k := s.core c
  k.unitsRest && (k.gl.lists.all fun l => l.slot == 15 || (l.inFlight.isEmpty && !l.reading))
    && (k.th.ops.all fun o => o.slot == 15 || match o.joined with
        | some j => (s.plane j.1).all fun p => p.ref.isNone && !p.faulted
        | none => false)
    && (s.sow.inbox.all fun l => match l.source with | .slot c' _ => c' != c | _ => true)
    && (below 15).all fun i => (k.slot i).accs.all fun a => a.path == .eng || a.path == .mx

/-- Whether the units of every core of a retiring sheaf are at rest. A sheaf that holds a halted core ends only by a kill (R343). -/
def State.retireReady (s : State) (h : Sheaf) : Bool :=
  s.allStopped h && h.cores.all fun p => (s.core p.1).unitsRest && (h.st == .killing || !(s.core p.1).halted)

/-! ### Freeing (R214 step 5, R218, R222) -/

/-- A core that a sheaf leaves: it holds no sheaf, no process and no endpoint. -/
def Core.left (k : Core) : Core :=
  { k with
    slots := Vector.ofFn fun i => if i.val = 15 then k.slot 15 else Slot.reset
    ticket := none
    wsheaf := 0
    pidBase := 0
    eps := []
    wire := []
    wireArr := []
    gl := k.gl.emptied
    th := k.th.emptied
    walks := k.walks.map fun w => { w with slots := w.slots.filter fun x => x.1 == 15 } }

/-- A core cleared as a sheaf leaves it, at retirement or suspend: region, counters and accumulators zero, windows closed, before it is
free, so that no sheaf sees another's data (R218; log 42). -/
def Core.cleared (k : Core) : Core :=
  { (k.fillRegion []).left with
    cnt := Vector.replicate 64 Counter.reset
    acc := Vector.replicate 8 Acc.reset
    win := Vector.replicate 8 0
    grp := Vector.replicate 16 0
    wasid := 0
    dmap := []
    issuedTotal := 0
    landedTotal := 0
    sentTotal := 0
    receivedTotal := 0 }

/-- Whether an entry of the agenda releases a phase of a wire context of a ticket. -/
def State.releasesWire (s : State) (t : Nat) (d : Due) : Bool :=
  match d.act with
  | .event (.wbarPhaseRelease die n _) => (KMap.get (s.die die).wires n).any fun w => w.ticket == t
  | _ => false

/-- Frees the cores of a sheaf on this panel, as `f` leaves them, its wire contexts with the releases of phases that are due, and those of its
groups that span the panel (R214, R218). -/
def State.freeSheaf (s : State) (h : Sheaf) (f : Core → Core) : State :=
  let s := h.cores.foldl (fun s p => (s.modCore p.1 f).kickGleaner p.1) s
  let s := { s with agenda := s.agenda.filter fun d => !s.releasesWire h.key d }
  let s := h.homePlaces.foldl (fun s p => s.modDie p.2.die fun x => { x with wires := x.wires.filter fun w => w.2.ticket != h.key }) s
  let mine := h.groups.filter fun g => (s.group g.1).used && (s.group g.1).ticket == h.key
  let s := { s with planes := s.planes.filter fun p => !mine.contains (p.2.group, p.2.generation) }
  mine.foldl (fun s g => s.freeGroup g.1) s

/-- A sheaf of another panel leaves this one: its cores, contexts and groups are freed, and its record too unless it is kept for USERS (R198). -/
def State.leaveHere (s : State) (ticket : Word) (keep : Bool) : State :=
  match s.sheaf (foreignKey ticket) with
  | none => s
  | some h =>
    let s := s.freeSheaf h Core.cleared
    (if keep then s.modSheaf h.key fun h => { h with
        st := .suspended
        places := []
        wires := []
        groups := [] }
      else s.modSow fun w => { w with foreign := KMap.del w.foreign h.key }).kickPlacement

/-! ### The save (R216, R355) -/

/-- A value kept at an endpoint for a saved receive goes to its destination register (R355). -/
def Core.foldKept (k : Core) (i : Nat) : Slot :=
  k.eps.foldl (fun (t : Slot) p =>
    match p.2.kept with
    | none => t
    | some v =>
      if p.2.owner ≠ i then t
      else
        let mine (g : RegSt) : Bool := g.prod == some (.receive p.1)
        match (below 32).find? fun n => mine (vecGet t.xs n RegSt.full), (below 16).find? fun n => mine (vecGet t.vs n RegSt.full) with
        | some n, _ => (match v with
            | some w => t.setX (BitVec.ofNat 5 n) (w.setWidth 64)
            | none => t.markX (BitVec.ofNat 5 n) { fe := .poisoned, prod := none })
        | none, some n => (match v with
            | some w => t.setV (BitVec.ofNat 4 n) w
            | none => t.markV (BitVec.ofNat 4 n) { fe := .poisoned, prod := none })
        | none, none => t) (k.slot i)

/-- A field of a save block: its offset, its bytes and its value. -/
abbrev SaveField := Nat × Nat × Nat

/-- The dword of an endpoint (R355). -/
def endWord (e : Endpoint) : Nat :=
  e.peerEp + e.peerSlot * 2 ^ 8 + bitsOf e.peerPid 4 4 * 2 ^ 12 + bitsOf e.peerPid 8 5 * 2 ^ 16 + bitsOf e.peerPid 13 8 * 2 ^ 21
    + 2 ^ 29 + bit e.sending * 2 ^ 30 + bit e.broken * 2 ^ 31 + bit e.sendPending * 2 ^ 32 + bit e.ackKept.isSome * 2 ^ 33
    + e.ackKept.getD 0 % 4 * 2 ^ 34 + e.owner * 2 ^ 36 + bit e.recvOut.isSome * 2 ^ 40

/-- The dword of a wire context at a core (R355). -/
def State.wireWord (s : State) (c b : Nat) : Nat :=
  match s.wireOf c b with
  | none => 0
  | some (_, w) =>
    let pending := (below 15).any fun i => ((s.core c).slot i).wbar.any fun a => a.1 == b
    w.phase + bit (w.arrived.contains c) * 2 ^ 8 + bit pending * 2 ^ 9

/-- The fields of an active list (R355): its WAIT state is that of the entry that waits to start. -/
def listFields (n : Nat) (l : GList) : List SaveField :=
  let a := 0x20E500 + 32 * n
  [(a, 8, l.lid), (a + 8, 8, if l.pending.isSome then l.next - 64 else l.next), (a + 16, 8, l.done),
   (a + 24, 8, bit (l.pending.any fun e => e.wait))]

/-- The fields of a Thresher operation (R355): 0xFF for no tile. -/
def State.opFields (s : State) (n : Nat) (o : ThOp) : List SaveField :=
  let a := 0x20E900 + 128 * n
  let raw := match o.joined.bind fun j => s.rank j.1 j.2 with
    | some r => r.desc.raw.toNat
    | none => 0
  [(a, 64, raw), (a + 64, 8, o.oid), (a + 72, 8, o.slot), (a + 80, 8, o.drainTile.getD 0xFF)]

/-- The part of a core's block that follows the mirror of its scratchpad (R355). -/
def State.blockFields (s : State) (c : Nat) : List SaveField :=
  let k := s.core c
  ((below 15).map fun i =>
      (saveCtx i, 3072, ((k.foldKept i).context k.sid i).toNat % 2 ^ 24576))
    ++ ((below 8).flatMap fun n =>
      let a := vecGet k.acc n Acc.reset
      [(0x20B400 + 0x400 * n, 1024, a.words.toNat),
       (0x20D400 + 8 * n, 8, a.owner.getD 15 + a.reg.code * 2 ^ 4 + a.afl.toNat * 2 ^ 6)])
    ++ ((below 64).flatMap fun n =>
      let x := vecGet k.cnt n Counter.reset
      [(0x20D800 + 16 * n, 8, x.target.toNat * 2 ^ 32 + x.value.toNat),
       (0x20D808 + 16 * n, 8, bitsOf (x.word false).toNat 1 6 * 2)])
    ++ (k.eps.map fun p => (0x20DC00 + 8 * p.1, 8, endWord p.2))
    ++ ((below 8).map fun n => (0x20E400 + 8 * n, 8, (vecGet k.win n 0).toNat))
    ++ ((below 16).map fun n => (0x20E440 + 8 * n, 8, (vecGet k.grp n 0).toNat))
    ++ ((below 8).map fun b => (0x20E4C0 + 8 * b, 8, s.wireWord c b))
    ++ (((below 8).zip (k.gl.lists.filter fun l => l.slot != 15)).flatMap fun p => listFields p.1 p.2)
    ++ (((below 16).zip k.gl.kept).map fun p => (0x20E600 + 8 * p.1, 8, p.2.2.toNat))
    ++ [(0x20E680, 8, k.gl.nextLid), (0x20E688, 8, k.th.nextOid), (0x20E690, 8, k.issuedTotal), (0x20E698, 8, k.landedTotal)]
    ++ (((below 8).zip (k.th.ops.filter fun o => o.slot != 15)).flatMap fun p => s.opFields p.1 p.2)
    ++ (k.th.tiles.map fun t => (0x20ED00 + 0x400 * t.1, 1024, t.2.1.toNat))
    ++ [(0x20FD00, 8, k.wasid.toNat)]

/-- Writes a core's block into a save area (R216): the mirror of its region, zeros where the service region would lie, the fields. -/
def State.saveBlock (s : State) (c base : Nat) : State :=
  let region := (s.core c).spad.filter fun b => decide (b.1 < sheafRegion)
  let m := region.foldl (fun m b => m.write (base + b.1) b.2) (s.mem.clear base blockSize)
  let m := (s.blockFields c).foldl (fun m f => m.store f.2.1 (base + f.1) f.2.2) m
  { s with
    mem := m
    poison := clearPoison s.poison base blockSize }

/-- The sheaf-record block at the end of an area (R216): the ticket first (log 36). -/
def State.saveRecord (s : State) (h : Sheaf) (base : Nat) : State :=
  s.writeMem base (leBytes 64 (h.ticket.toNat + h.prio * 2 ^ 64 + h.asid * 2 ^ 72 + h.image.dies * 2 ^ 88 + h.image.rows * 2 ^ 100
    + h.image.cols * 2 ^ 108 + h.imageAddr * 2 ^ 128))

/-- The bytes of the save area of a sheaf: a block for each core and the record block (R216). -/
def Sheaf.areaSize (h : Sheaf) : Nat := h.image.dies * h.image.rows * h.image.cols * blockSize + 64

/-- Where the record block of a save area lies. -/
def Sheaf.recordAt (h : Sheaf) (area : Nat) : Nat := area + h.areaSize - 64

/-- Whether a save area lies whole in HBM, 4 KiB aligned (R212). -/
def State.areaOk (s : State) (h : Sheaf) (a : Nat) : Bool :=
  bitsOf a 48 16 == 1 && bitsOf a 0 12 == 0 && s.physOk a .write .m 8 false && s.physOk (a + h.areaSize - 1) .write .m 1 false

/-- The number of a plane operation and its panel, as one. -/
def opKey (p panel : Nat) : Nat := 64 * p + panel

/-- The plane operations of a sheaf on this panel, which have not started (R214 step 2). -/
def State.suspendedOps (s : State) (h : Sheaf) : List SavedOp :=
  s.planes.filterMap fun p =>
    ((below h.groups.length).find? fun i => (h.groups[i]?).any fun g => g.1 == p.2.group && g.2 == p.2.generation).map fun i =>
      { op := opKey p.1 s.panel, index := i, tile := p.2.tile, joined := p.2.joined, ranks := p.2.ranks,
        cancels := p.2.cancels.filterMap fun c => (p.2.rankAt c.1).map fun r => r.1 }

/-- A core as a suspend keeps it: its operations name theirs with their panel. -/
def Core.kept (k : Core) (panel : Nat) : Core :=
  { k with th := { k.th with ops := k.th.ops.map fun o => { o with joined := o.joined.map fun j => (opKey j.1 panel, j.2) } } }

/-- What a suspend keeps of a sheaf's cores on this panel beside the save area (R355). -/
def State.keptCores (s : State) (h : Sheaf) : KMap Core := h.blocks.foldl (fun m b => KMap.put m b.index ((s.core b.core).kept s.panel)) []

/-- Writes the blocks of a sheaf's cores on this panel into its save area (R216). -/
def State.saveBlocks (s : State) (h : Sheaf) : State := h.blocks.foldl (fun (s : State) b => s.saveBlock b.core (h.blockAt b)) s

/-- The routes of a save of what a sheaf has on this panel. -/
def Sheaf.saveRoutes (h : Sheaf) : List Route := h.cores.map fun p => route p.1 relayBase false

/-! ### The steps of a suspend and of a retirement over all panels (R214, R218) -/

/-- The last panel has freed what a sheaf had there: a suspend ends with RESULT 0 (R214), a retirement with its completion record and its ticket marked
ended (R218). -/
def State.freed (s : State) (t : Nat) : State :=
  match s.sheaf t with
  | none => s
  | some h =>
    if h.awaits ≠ [] then s
    else if h.st = .freeing then
      ((s.modSheaf t fun x => { x with
        st := .suspended
        groups := []
        wires := [] }).modSow fun w => { w with
          busy := false
          result := 0 }).kickPlacement
    else if h.st = .leaving then (s.endTicket t h.status).afterEnd
    else s

/-- What a sheaf has on this panel is freed, and on other panels by their Sowers (R214 step 5, R218). -/
def State.freeAll (s : State) (t : Nat) (h : Sheaf) (panels : List Nat) (suspended : Bool) : State :=
  (((s.freeSheaf h Core.cleared).modSheaf t fun x => { x with st := if suspended then .freeing else .leaving }).askPanels t panels h
    (.leave suspended)).freed t

/-- The last panel has saved what a sheaf has there: the sheaf record is written, and everything is freed (R214 steps 4 and 5, R216). -/
def State.allSaved (s : State) (t : Nat) : State :=
  match s.sheaf t with
  | none => s
  | some h => if h.st ≠ .saving ∨ h.awaits ≠ [] then s else (s.saveRecord h (h.recordAt h.area)).freeAll t h h.otherPanels true

/-- The save (R214 step 4): of what a sheaf has on this panel, and on other panels by their Sowers. -/
def State.saveSheaf (s : State) (t : Nat) (h : Sheaf) : State :=
  ((((s.saveBlocks h).modSheaf t fun x => { x with
    st := .saving
    saved := s.keptCores h
    ops := s.suspendedOps h }).askPanels t h.otherPanels h (.save h.area))).allSaved t

/-! ### Rounds and retirement -/

/-- The next look at a sheaf's round is in a later cycle. -/
def State.roundAt (s : State) (t cycle : Nat) : State :=
  (s.modSheaf t fun h => { h with round := cycle }).at cycle (.quiescenceRound t)

/-- A round completes: with sums that agree, and every panel ready, a suspending sheaf is saved and a retiring one retires, and otherwise the next round
begins (R215). The save waits for the modules on its way; where one discards it, it is tried again with the next round (R391, R404; log 57). -/
def State.endRound (s : State) (t : Nat) (h : Sheaf) : State :=
  match h.st with
  | .suspending =>
    if h.sumsAgree ∧ h.settled ∧ h.cores.all fun p => s.saveReady p.1 then
      s.travels h.saveRoutes (fun s => s.saveSheaf t h) (fun s => s.roundAt t (s.cycle + 1)) fun s => s.modSheaf t fun h => { h with round := 0 }
    else s.beginRound t
  | .retiring => if h.sumsAgree ∧ h.settled ∧ s.retireReady h then s.at s.cycle (.retirement t) else s.beginRound t
  | .killing => if h.sumsAgree ∧ h.settled ∧ s.retireReady h then s.at s.cycle (.retirement t) else s.beginRound t
  | _ => s

/-- QUIESCENCE_ROUND: a round of counts completes (R215), once its traffic has crossed the modules on its way: it waits for one that is held,
and what a DOWN module discards ends it, until it is restarted (R391, R404). For a running sheaf it is the look that finds every process on this
panel stopped, of which its home hears, and which begins its rounds once that holds on every panel (R218). -/
def execQuiescenceRound (ticket : Nat) (s : State) : Out :=
  ok (match s.sheaf ticket with
    | none => s
    | some h =>
      let rests : Bool := s.allStopped h && h.cores.all fun p => !(s.core p.1).halted
      if h.home ≠ h.here then
        if h.st = .started ∧ rests then s.sendSower h.home (.sower h.ticket .stopped) else s
      else if h.st = .started then
        if rests ∧ h.otherPanels.all h.stopped.contains then
          (s.modSheaf ticket fun h => { h with st := .retiring }).beginRound ticket
        else s
      else if h.counts = false ∨ s.cycle ≠ h.round ∨ h.awaits ≠ [] then s
      else
        s.travels h.roundRoutes (fun s => s.endRound ticket h) (fun s => s.roundAt ticket (s.cycle + 1))
          fun s => s.modSheaf ticket fun h => { h with round := 0 })

/-- COMBINE_ROUND_RESTART: a round still incomplete 7 µs after it began is restarted (R404). -/
def execCombineRoundRestart (ticket : Nat) (s : State) : Out :=
  ok (match s.sheaf ticket with
    | none => s
    | some h =>
      if h.counts ∧ s.cycle = h.roundStart + roundLimit then s.beginRound ticket else s)

/-- RETIREMENT: a sheaf's cores are cleared and freed, on every panel, its completion record written and its ticket marked ended, in this order
(R218). -/
def execRetirement (ticket : Nat) (s : State) : Out :=
  ok (match s.sheaf ticket with
    | none => s
    | some h =>
      let retires : Bool := h.st == .retiring || h.st == .killing
      if retires = false ∨ h.sumsAgree = false ∨ h.settled = false ∨ s.retireReady h = false then s else s.freeAll ticket h h.others false)

/-! ### Commands (R212, R214, R217, R220) -/

/-- The first step of a suspend or a kill is done on this panel: the home of a sheaf asks the other panels for it, and begins the rounds once all of them
have answered (R215); another panel answers. -/
def State.stepped (s : State) (t : Nat) (h : Sheaf) (kill : Bool) : State :=
  if h.home ≠ h.here then s.sendSower h.home (.sower h.ticket .held)
  else if h.otherPanels = [] then s.beginRound t
  else
    (s.modSheaf t fun h => { h with
      round := 0
      roundStart := 0 }).askPanels t h.otherPanels h (.hold kill)

/-- SOWER_SUSPEND: at the end of a cycle (R73 step 3) every started slot on this panel is held and every Gleaner starts nothing new; the other panels,
rounds and the save follow (R214). -/
def execSowerSuspend (ticket : Nat) (s : State) : Out :=
  ok (match s.sheaf ticket with
    | none => s
    | some h =>
      if h.st ≠ .suspending then s
      else
        let s := h.cores.foldl (fun (s : State) p =>
          let s := (below 15).foldl (fun (s : State) i => if (s.slot p.1 i).pid.isSome then s.holdSlot p.1 i else s) s
          s.modGl p.1 fun g => { g with frozen := true }) s
        s.stepped ticket h false)

/-- SOWER_RESUME: a suspended sheaf joins its queue again with its original ticket (R217), and the command ends. -/
def execSowerResume (ticket : Nat) (s : State) : Out :=
  ok (match s.sheaf ticket with
    | none => s
    | some h =>
      if h.st ≠ .suspended then s
      else
        (((s.modSheaf ticket fun h => { h with
          st := .queued
          resumed := true }).modSow fun w => { w with
            busy := false
            result := 0 }).kickPlacement))

/-- Cancels an operation of a core's Thresher (R220). -/
def State.cancelOp (s : State) (c : Nat) (o : ThOp) : State :=
  match o.joined with
  | some (p, m) => (s.freezeRank p m).endRank p m 1
  | none => (s.endThOp c o.oid 1).known c o.slot o.access

/-- Aborts a list of a core's Gleaner. -/
def State.abortList (s : State) (c : Nat) (l : GList) : State :=
  ((s.dropUnstarted c l.lid).modList c l.lid fun x => { x with aborted := true }).checkList c l.lid

/-- Stops every process of a core as by `skill`, cancels its operations and aborts its lists (R220). -/
def State.killCore (s : State) (c : Nat) : State :=
  let k := s.core c
  let s := (below 15).foldl (fun (s : State) i => if (s.slot c i).pid.isSome then s.killSlot c i else s) s
  let s := (k.th.ops.filter fun o => o.slot != 15).foldl (fun (s : State) o => s.cancelOp c o) s
  (k.gl.lists.filter fun l => l.slot != 15).foldl (fun (s : State) l => s.abortList c l) s

/-- SOWER_KILL: a sheaf ends with status 4 in whatever state it is (R220): one on cores is stopped on every panel and retires; any other ends at once, but
for one that is about to. -/
def execSowerKill (ticket : Nat) (s : State) : Out :=
  ok (match s.sheaf ticket with
    | none => s
    | some h =>
      let mine : Bool := h.home == h.here
      let s := if mine then s.modSow fun w => { w with
          busy := false
          result := 0 } else s
      let s := if s.sow.placing.any fun p => mine && p.sheaf == ticket then s.abortPlacing else s
      let placed : Bool := h.st == .loading || h.st == .started || h.st == .retiring || h.st == .killing
      if placed then
        let s := h.cores.foldl (fun (s : State) p => s.killCore p.1) s
        (s.modSheaf ticket fun h => { h with
          st := .killing
          status := 4 }).stepped ticket h true
      else if h.st = .leaving ∨ mine = false then s
      else ((s.tellPanels h.others h (.leave false)).endTicket ticket 4).afterEnd)

/-! ### Messages between Sowers -/

/-- What a home hears from another panel about one of its sheaves. -/
def State.homeHears (s : State) (t panel : Nat) (m : SowerMsg) : State :=
  match s.sheaf t with
  | none => s
  | some h =>
    let awaited := h.awaits.contains panel
    let s' := s.heard t panel
    match m with
    | .loaded => if awaited ∧ h.st = .loading then s'.loadsDone t else s
    | .stopped => (s.modSheaf t fun h => { h with stopped := panel :: h.stopped.erase panel }).at s.cycle (.quiescenceRound t)
    | .held =>
      if awaited ∧ (h.st = .suspending ∨ h.st = .killing) then
        if h.awaits.erase panel = [] then s'.beginRound t else s'
      else s
    | .counts start sums settled => s.takeCounts t panel start sums settled
    | .saved cores ops =>
      if awaited ∧ h.st = .saving then
        (s'.modSheaf t fun h => { h with
          saved := cores.foldl (fun m k => KMap.put m k.1 k.2) h.saved
          ops := h.ops ++ ops }).allSaved t
      else s
    | .left => if awaited then s'.freed t else s
    | .hold _ => s
    | .count _ => s
    | .save _ => s
    | .leave _ => s

/-- Whether a sheaf of another panel is ready on this one for what follows its round. -/
def State.settledHere (s : State) (h : Sheaf) : Bool :=
  if h.st = .suspending then h.cores.all fun p => s.saveReady p.1 else s.retireReady h

/-- What a panel does as the home of a sheaf with cores there asks for it, as the sheaf's record there stands. A hold that finds the sheaf before its start
wave has landed here, and a save whose way is not open, are looked at again; the answer crosses the modules on its way, or the way of a round is
lost (R391, R404; log 57). -/
def State.panelDoes (s : State) (msg : Nat) (ticket : Word) (m : SowerMsg) : State :=
  let t := foreignKey ticket
  let home := field ticket 0 6
  let answer (m : SowerMsg) (s : State) : State := s.sendSower home (.sower ticket m)
  let again (n : Nat) (s : State) : State := s.at (s.cycle + n) (.reservationMessage msg)
  match s.sheaf t, m with
  | none, .leave _ => answer .left (s.drop msg)
  | none, _ => s.drop msg
  | some h, .hold kill =>
    if kill then (s.drop msg).at s.cycle (.sowerKill t)
    else if h.st = .loading then again 16 s
    else ((s.drop msg).modSheaf t fun h => { h with st := .suspending }).atEnd (.sowerSuspend t)
  | some h, .count start =>
    s.travels h.roundRoutes (fun s => answer (.counts start (s.roundSums h) (s.settledHere h)) (s.drop msg)) (again 1) fun s => s.drop msg
  | some h, .save area =>
    let h := { h with area := area }
    s.travels h.saveRoutes (fun s => answer (.saved (s.keptCores h) (s.suspendedOps h)) ((s.drop msg).saveBlocks h)) (again 1) (again roundLimit)
  | some _, .leave suspended => answer .left ((s.drop msg).leaveHere ticket suspended)
  | some _, _ => s.drop msg

/-- RESERVATION_MESSAGE: a message of another panel's Sower arrives (R200, R205, R206): the sequence number rises above its ticket's. It asks for a
rectangle (0) or a group identifier (3), answers this panel's placement in flight (2, 4, 5), releases what its ticket has here or makes
this panel's placement of that ticket yield (1), says that a sheaf commits, is about a sheaf that has committed, or about a sweep. -/
def execReservationMessage (msg : Nat) (s : State) : Out :=
  ok (match s.msg msg with
    | none => s
    | some m =>
      let seen (ticket : Word) (s : State) : State := s.modSow fun w => { w with seq := max w.seq (field ticket 6 58 + 1) }
      match m.body with
      | .commit x => (seen x.ticket (s.drop msg)).adopt x
      | .sweep group generation done => s.sweepMessage msg m group generation done
      | .sower ticket b =>
        if field ticket 0 6 = s.panel then (s.drop msg).homeHears (ticket.toNat / 64) (panelTo m.src) b
        else (seen ticket s).panelDoes msg ticket b
      | .reserve kind ticket attempt asid die row col rows cols wires gids =>
        let s := seen ticket (s.drop msg)
        if field ticket 0 6 = s.panel then
          if kind = 1 then
            (if s.sow.placing.any fun p => s.ticketWord p.sheaf == ticket && p.attempt == attempt then s.abortPlacing else s)
          else s.placementAnswer ticket attempt (panelTo m.src) kind die row col rows gids
        else if kind = 0 then s.serveRectangle ticket attempt asid die rows cols wires
        else if kind = 3 then s.serveGid ticket attempt asid die gids
        else if kind = 1 then s.released ticket
        else s
      | _ => s)

/-- A command written to the Sower's command register (R212): ignored while one runs or for another OP; with RESULT 1 or 2, or 3 for an
area that cannot serve, nothing else changes. A sheaf that is being killed is in the wrong state for a suspend: the model's choice (log 84). -/
def State.sowerCommand (s : State) (v : Word) : State :=
  let op := field v 60 4
  let done (r : Nat) : State := s.modSow fun w => { w with result := r }
  if s.sow.busy ∨ op = 0 ∨ 3 < op then s
  else
    match s.sow.sheaves.find? fun p => p.2.sid == field v 0 12 with
    | none => done 1
    | some (t, h) =>
      let area := s.sow.arg.toNat
      let start (e : Instr) (s : State) : State := (s.modSow fun w => { w with busy := true }).at s.cycle e
      if op = 1 then
        if h.st ≠ .started ∧ h.st ≠ .retiring then done 2
        else if s.areaOk h area = false then done 3
        else
          ((s.modSheaf t fun h => { h with
            st := .suspending
            area := area }).modSow fun w => { w with busy := true }).atEnd (.sowerSuspend t)
      else if op = 2 then
        if h.st ≠ .suspended then done 2
        else if s.areaOk h area = false ∨ s.memPoisoned area h.areaSize ∨ s.mem.load 8 (h.recordAt area) ≠ h.ticket.toNat then done 3
        else start (.sowerResume t) (s.modSheaf t fun h => { h with area := area })
      else start (.sowerKill t) s

end Sys2Proof.Machine
end

