-- ==== Sys2Proof/Machine/Register.lean ====
section
/-! DEFINITION. REGISTER_WRITE: a store to a register that has no row of its own sets its fields by their access codes (R6, R7). -/

namespace Sys2Proof.Machine

/-- A word with some fields, each a first bit and a length, taken from another; every other bit stays (R6, R7). -/
def takeFields {n : Nat} (old : BitVec n) (fs : List (Nat × Nat)) (v : Word) : BitVec n :=
  fs.foldl (fun w f => setField w f.1 f.2 (field v f.1 f.2)) old

/-- LERR after a clear: the lanes on which an error was seen in this very cycle stay set (R392). -/
def LinkEnd.clearErr (y : LinkEnd) (v : Word) (cycle : Nat) : LinkEnd :=
  { y with lerr := (y.lerr &&& ~~~v) ||| (if y.errCycle = cycle then y.errLanes &&& y.lerr else 0) }

/-- W1C: each 1 written clears its bit (R7). -/
def clearOnes {n : Nat} (old : BitVec n) (v : Word) : BitVec n := old &&& ~~~(v.setWidth n)

/-- A write of LCTL (R390, R392): ignored while the module trains; HOLD acts before GO. -/
def State.writeLctl (s : State) (m : Nat) (v : Word) : State :=
  let x := s.module m
  let y := vecGet x.ends 0 LinkEnd.reset
  if x.st = .train then s
  else
    let s := s.modModule m fun x => { x with ends := vecSet x.ends 0 { y with
      cmd := BitVec.ofNat 2 (field v 4 2)
      half := bitAt v 3
      width := bitAt v 2 } }
    let s := if bitAt v 63 then s.now (.retrain m 0) else s
    if bitAt v 0 = y.hold then s else s.now (if bitAt v 0 then .moduleHold m else .moduleUnhold m)

/-- A write of a register of a module at its Culm end (R390, R392). -/
def State.writeModule (s : State) (m r : Nat) (v : Word) : State :=
  let modEnd (e : Nat) (f : LinkEnd → LinkEnd) : State :=
    s.modModule m fun x => { x with ends := vecSet x.ends e (f (vecGet x.ends e LinkEnd.reset)) }
  if r = 0x08 then s.writeLctl m v
  else if r = 0x10 then modEnd 0 fun y => y.clearErr v s.cycle
  else if r = 0x18 then
    if (s.module m).st = .train then s
    else modEnd 0 fun y => { y with
      lremap := takeFields y.lremap ((below 4).flatMap fun k => [(16 * k + 15, 1), (16 * k, 6)]) v }
  else if r = 0x60 then
    s.modModule m fun x =>
      let a := vecGet x.ends 0 LinkEnd.reset
      let b := vecGet x.ends 1 LinkEnd.reset
      let b := b.clearErr v s.cycle
      { x with ends := vecSet (vecSet x.ends 0 { a with perr := clearOnes a.perr v ||| (b.lerr &&& v) }) 1 b }
  else s

/-- Every blocked node of a die starts its probe timer again after a change of the probe period (R232, R238). -/
def State.armDie (s : State) (d : Nat) : State :=
  (s.cores.filter fun p => dieOf p.1 == d).foldl (fun (s : State) p =>
    (below 16).foldl (fun (s : State) i => s.armProbe p.1 i) s) s

/-- A write of a register of a Culm die (R143, R238, R347, R390). -/
def State.writeDie (s : State) (d off : Nat) (v : Word) : State :=
  let put (f : Die → Die) : State := s.modDie d f
  if off = 0x08 then put fun x => { x with chaff := { x.chaff with head := field v 0 9 } }
  else if off = 0x18 then put fun x => { x with chaff := { x.chaff with ovf := clearOnes x.chaff.ovf v } }
  else if off = 0x28 then
    let t := field v 0 24
    (put fun x => { x with probeCfg := if 1 ≤ t ∧ t < 256 then 256 else t }).armDie d
  else if off = 0x30 then put fun x => { x with dlk := { x.dlk with head := field v 0 5 } }
  else if off = 0x40 then put fun x => { x with dlk := { x.dlk with ovf := clearOnes x.dlk.ovf v } }
  else if off = 0x48 then put fun x => { x with fltNotify := takeFields x.fltNotify [(15, 1), (8, 5), (4, 4)] v }
  else if off = 0x50 then
    (put fun x => { x with flt := { x.flt with head := field v 0 7 } }).at s.cycle (.faultRecordPendingPost d)
  else if 0x20000 ≤ off ∧ off < 0x21000 then
    s.modCore (d * 512 + (off - 0x20000) / 8) fun k => { k with refuse := v.setWidth 32 }
  else
    match moduleReg d off with
    | some (m, r) => s.writeModule m r v
    | none => s

/-- A write of SPCTL of a port (R392, R408, R423): ignored while it trains; HOLD acts before GO; a change of EN to 1 is asked for. -/
def State.writePort (s : State) (p : Nat) (v : Word) : State :=
  let x := s.port p
  if (s.module (portModule + p)).st = .train then s
  else
    let en := bitAt x.ctl 1 && bitAt v 1
    let s := s.modPort p fun y => { y with ctl := setField (takeFields y.ctl [(4, 2), (2, 2), (0, 1)] v) 1 1 (bit en) }
    let s := if bitAt v 63 then s.now (.stolonRetrain p) else s
    let s := if bitAt v 0 = bitAt x.ctl 0 then s else s.now (.stolonHold p)
    if bitAt v 1 && !bitAt x.ctl 1 then s.now (.stolonEnable p) else s

/-- A write of a mailbox (R210): FIRED clears by a 1, STATUS stays. -/
def Mailbox.write (m : Mailbox) (high : Bool) (v : Word) : Mailbox :=
  if high then { m with hi := takeFields m.hi [(0, 56)] v }
  else
    let w := takeFields m.lo [(63, 1), (62, 1), (24, 6), (16, 6), (8, 5), (4, 4)] v
    { m with lo := if bitAt v 61 then setField w 61 1 0 else w }

/-- A write of a Granary register (R198, R210, R212, R407, R408, R413). HWBASE and HWLEN ignore a device's store (R423). -/
def State.writeGranary (s : State) (off : Nat) (v : Word) : State :=
  if off = 0x100000 then s.sowerCommand v
  else if off = 0x100008 then s.modSow fun w => { w with arg := v }
  else if 0x101000 ≤ off ∧ off < 0x102000 then
    let i := (off - 0x101000) / 16
    s.modSow fun w => { w with
      mailbox := KMap.put w.mailbox i (((KMap.get w.mailbox i).getD { lo := 0, hi := 0 }).write (decide (off % 16 = 8)) v) }
  else if off = 0x120000 then s.modHost fun h => { h with sq := takeFields h.sq [(60, 4), (0, 56)] v }
  else if off = 0x120008 then s.modHost fun h => { h with cq := takeFields h.cq [(60, 4), (0, 56)] v }
  else if off = 0x120028 then (s.modHost fun h => { h with cqack := v.setWidth 32 }).at s.cycle .sqCompletion
  else if 0x130000 ≤ off ∧ off < 0x131C00 then s.writePort ((off - 0x130000) / 0x100) v
  else if 0x132000 ≤ off ∧ off < 0x132200 then
    s.modHost fun h => { h with route := KMap.put h.route ((off - 0x132000) / 8) (takeFields 0 [(15, 1), (8, 5), (0, 5)] v) }
  else if off = 0x133000 then s.modHost fun h => { h with domcfg := takeFields h.domcfg [(63, 1), (0, 6)] v }
  else s

/-- A write of a register of the security processor (R420). -/
def State.writeSecurity (s : State) (off : Nat) (v : Word) : State :=
  if 0x500 ≤ off ∧ off < 0x600 then
    let i := (off - 0x500) / 64
    s.modSec fun x => { x with imgKey := vecSet x.imgKey i (setField (vecGet x.imgKey i 0) (off % 64 * 8) 64 v.toNat) }
  else if off = 0x400 then s.modSec fun x => { x with mextAddr := v }
  else if off = 0x408 then s.modSec fun x => { x with mextLen := v.setWidth 32 }
  else if off = 0x410 then
    if bitAt v 63 && !s.sec.mextBusy then (s.modSec fun x => { x with mextIndex := field v 0 3 }).now .mext else s
  else if off = 0x600 then s.modSec fun x => { x with attAddr := v }
  else if off = 0x608 then if bitAt v 63 && !s.sec.attBusy then s.now .attgo else s
  else if off = 0x700 then s.modSec fun x => { x with alcount := clearOnes x.alcount v }
  else s

/-- REGISTER_WRITE (R7, R142). -/
def execRegisterWrite (addr : Nat) (value : BitVec 64) (s : State) : Out :=
  ok (match mmioKind addr with
    | 0 => s.writeDie (mmioIndex addr) (mmioOff addr) value
    | 1 => if mmioIndex addr = 0 then s.writeGranary (mmioOff addr) value else s
    | 2 => s.writeSecurity (mmioOff addr) value
    | _ => s)

end Sys2Proof.Machine
end

