-- ==== Sys2Proof/Machine/Secure.lean ====
section
/-! DEFINITION. The security processor: measurement (R418), image signatures (R419), attestation (R421), alarms (R422), power (R423, R425). -/

namespace Sys2Proof.Machine

/-- SIGREQ: signed images are required until panel reset (R419). -/
def execSigreq (s : State) : Out := ok (s.modSec fun x => { x with sigreq := true })

/-- MEXT: an extend starts; one of MEAS0, or of data that does not lie whole in HBM, is rejected (R418, R420). -/
def execMext (s : State) : Out :=
  ok (
    let x := s.sec
    let a := x.mextAddr.toNat
    let n := x.mextLen.toNat
    let good := x.mextIndex != 0 && decide (1 ≤ n ∧ n < 2 ^ 31) && bitsOf a 48 16 == 1 && s.physOk a .read .m 1 false
      && s.physOk (a + n - 1) .read .m 1 false
    if good then
      ((s.draw).2.modSec fun x => { x with
        mextBusy := true
        mextData := (a, n)
        mextResult := 0 }).at (s.cycle + 1 + Config.serviceTime s.free) .mextComplete
    else s.modSec fun x => { x with mextResult := 3 })

/-- MEXT_COMPLETE: the register is extended with the data that MEXT named, or poisoned data leave it as it was (R418, R420). -/
def execMextComplete (s : State) : Out :=
  ok (
    let x := s.sec
    let (a, n) := x.mextData
    if x.mextBusy = false then s
    else if s.memPoisoned a n then s.modSec fun x => { x with
      mextBusy := false
      mextResult := 2 }
    else s.modSec fun x => { x with
      mextBusy := false
      mextResult := 1
      meas := vecSet x.meas x.mextIndex (extendMeas (vecGet x.meas x.mextIndex 0) (s.mem.bytes n a)) })

/-- The bytes of the report area (R421). -/
def reportSize : Nat := 0x400 + 49856

/-- ATTGO: the nonce is read and the measurements taken in one step (R421); with the keys erased it is refused, and with a poisoned nonce
or an area that does not lie whole in HBM it ends at once (R420; log 39). -/
def execAttgo (s : State) : Out :=
  ok (
    let x := s.sec
    let a := x.attAddr.toNat
    let bad := bitsOf a 48 16 != 1 || a % 4096 != 0 || !s.physOk a .write .m 1 false || !s.physOk (a + reportSize - 1) .write .m 1 false
    if x.erased then s.modSec fun x => { x with attResult := 2 }
    else if bad ∨ s.memPoisoned a 64 then s.modSec fun x => { x with attResult := 3 }
    else
      ((s.draw).2.modSec fun x => { x with
        attBusy := true
        attArea := a
        attResult := 0
        attNonce := s.mem.bytes 64 a
        attMeas := Vector.ofFn fun k => x.measure k.val
        attClock := s.clock 0 }).at (s.cycle + 1 + Config.serviceTime s.free) .attestComplete)

/-- The signed bytes of a report (R421). -/
def Security.report (x : Security) : List Byte :=
  x.attNonce ++ (x.attMeas.toList.flatMap fun m => leBytes 64 m.toNat) ++ leBytes 16 Config.panelId.toNat ++ leBytes 8 x.attClock.toNat

/-- ATTEST_COMPLETE: the report and its signature are written where ATTGO read the nonce, and BUSY clears (R421). -/
def execAttestComplete (s : State) : Out :=
  ok (
    let x := s.sec
    if x.attBusy = false then s
    else
      let a := x.attArea
      let sig := (Config.attestation x.report ++ List.replicate 49856 0#8).take 49856
      ((s.writeMem a x.report).writeMem (a + 0x400) sig).modSec fun x => { x with
        attBusy := false
        attResult := 1 })

/-! ### Alarms (R422) -/

/-- The class of a sensor's alarms: 1 log, 2 halt, 3 halt with erase. -/
def alarmClass (code : Nat) : Nat := ([0, 1, 2, 2, 2, 3, 3, 3, 1, 2][code]?).getD 0

/-- The module numbers of a die's edges (R132, R390). -/
def dieModules (d : Nat) : List Nat :=
  (below 4).flatMap fun e =>
    if edgeFacesOut d e then [] else (below (if e % 2 = 1 then 18 else 9)).map fun m => d * 72 + e * 18 + m

/-- A module or port of a halted panel enters HELD, and stays there: what is not acknowledged yet drains first, and a training that runs
ends first (R394, R422). -/
def State.haltModule (s : State) (m : Nat) : State :=
  let s := s.modEnd m 0 fun y => { y with hold := true }
  match (s.module m).st with
  | .up => s.holdModule m
  | .down => s.modModule m fun x => { x with st := .held }
  | _ => s

/-- A halt (R422): every core stops as a double fault halts it, every module and port is HELD, an attestation ends with RESULT 3. -/
def State.haltPanel (s : State) : State :=
  let s := s.modSec fun x => { x with
    haltAll := true
    attResult := if x.attBusy then 3 else x.attResult
    attBusy := false }
  let s := s.haltPlanes fun _ => true
  (((below 32).flatMap dieModules) ++ (below 28).map fun p => portModule + p).foldl (fun (s : State) m => s.haltModule m) s

/-- A core whose scratchpad and accumulators are erased (R422). -/
def Core.erased (k : Core) : Core :=
  { k with
    spad := []
    spadPoison := []
    acc := vecMap (fun a => { a with words := 0 }) k.acc }

/-- What a halt with erase erases besides (R422). -/
def State.erase (s : State) : State :=
  { s.modSec fun x => { x with
      erased := true
      imgKey := Vector.replicate 4 0 } with cores := s.cores.map fun p => (p.1, p.2.erased) }

/-- SENSOR_ALARM: a sensor raises an alarm of its fused class (R422). -/
def execSensorAlarm (sensor : Nat) (s : State) : Out :=
  ok (
    let cls := alarmClass sensor
    if cls = 0 then s
    else
      let s := s.alarmLog sensor cls
      let s := if 2 ≤ cls then s.haltPanel else s
      if cls = 3 then s.erase else s)

/-! ### Power (R423, R425) -/

/-- PCAP: a write of the power cap, ignored outside 5,000 to 30,000 W (R420). -/
def execPcap (value : BitVec 64) (s : State) : Out :=
  ok (if 5000 ≤ field value 0 16 ∧ field value 0 16 ≤ 30000 then s.modSec fun x => { x with pcap := value.setWidth 16 } else s)

/-- The core whose tensor unit an entry of the agenda starts after the next cycle. -/
def Due.lateStart (d : Due) (cycle : Nat) : Option Nat :=
  match d.act with
  | .event (.mmaStart c) => if cycle + 1 < d.cycle then some c else none
  | _ => none

/-- The starts of an `mma` that the throttle level has put off are timed again under the level that now holds (R425). -/
def State.retimeStarts (s : State) : State :=
  let starts := s.agenda.filterMap fun d => d.lateStart s.cycle
  starts.foldl (fun s c => s.kickTensor c (s.cycle + 1)) { s with agenda := s.agenda.filter fun d => (d.lateStart s.cycle).isNone }

/-- POWER_MEASURE: every 10 µs the throttle level follows the input power (R425); 100 measurements in a row above 30 kW at level 7 raise
alarm code 9 (R422). -/
def execPowerMeasure (centiwatts : Nat) (s : State) : Out :=
  ok (
    let x := s.sec
    let cap := min x.pcap.toNat 30000
    let overs := if x.pthr = 7 ∧ 3000000 < centiwatts then x.overs + 1 else 0
    let level := if cap * 100 < centiwatts then min (x.pthr + 1) 7 else if centiwatts < cap * 95 then x.pthr - 1 else x.pthr
    let s := s.modSec fun x => { x with
      pthr := level
      overs := overs }
    let s := if level < x.pthr then s.retimeStarts else s
    if overs = 100 then s.at s.cycle (.sensorAlarm 9) else s)

end Sys2Proof.Machine
end

