-- ==== Sys2Proof/Machine/Reset.lean ====
section
/-! DEFINITION. Panel reset and die reset (R402, R417). -/

namespace Sys2Proof.Machine

/-- The length of the longest core image (R417). -/
def maxImage : Nat := 131072

/-- The core image: the part of the firmware that every core runs on its service slot (R417). -/
def coreImage : List Byte :=
  let (offset, length) := Config.imagePart Config.firmware
  (Config.firmware.drop offset).take length

/-- Whether a bring-up stage succeeds, by a free draw; stage 2 only with a core image that is not too long (R417). -/
def stageHolds (n f : Nat) : Bool := Config.stageOk f && (n != 2 || decide ((Config.imagePart Config.firmware).2 ≤ maxImage))

/-- The first of some bring-up stages that fails, with the draws it took (R417). -/
def failedStage : List Nat → State → Option Nat × State
  | [], s => (none, s)
  | n :: l, s => if stageHolds n s.free then failedStage l (s.draw).2 else (some n, (s.draw).2)

/-- The lanes that the hardware's test finds failing, in ascending order, put on the spares: at most four (R402). -/
def sparesFor (fails : BitVec 68) : Word :=
  ((((below 64).filter fun l => bitAt fails l).zip (below 4)).foldl (fun w p =>
    setField (setField w (16 * p.2 + 15) 1 1) (16 * p.2) 6 p.1) 0)

/-- A module as a reset trains it at the first of some widths that works (R402): one that fails every width stays DOWN with HOLD 1. -/
def Module.trainedAt (fails : BitVec 68) (tries : List (Bool × Bool)) : Module :=
  let fresh (st : LinkSt) (w : Bool × Bool) (hold : Bool) : Module := { Module.reset with
    st := st
    width := w.1
    half := w.2
    map := if st = .up then sparesFor fails else 0
    ends := vecSet Module.reset.ends 0 { LinkEnd.reset with
      lremap := sparesFor fails
      hold := hold } }
  match firstTrained fails (sparesFor fails) tries with
  | some w => fresh .up w false
  | none => fresh .down (false, false) true

/-- The widths in their order (R401). -/
def allWidths : List (Bool × Bool) := [(false, false), (true, false), (true, true)]

/-- Trains a module at a reset: at x64 with spares for its failing lanes; one that still fails is replaced by the spare module of its edge
if `spare` says that it stands ready and it works at x64, which then answers at the module's offset while the module answers at the
spare's, DOWN and held; otherwise at x32. A die with a module that fails every width is not offered to the Sower (R402; log 41). -/
def State.trainAtReset (s : State) (die m : Nat) (spare : Bool) : Bool × State :=
  let put (s : State) (n : Nat) (x : Module) : State := { s with modules := KMap.put s.modules n x }
  let fails := Config.laneFails s.free
  let other := Config.laneFails (s.free + 1)
  let s := { s with free := s.free + 2 }
  let good (f : BitVec 68) : Bool := (Module.trainedAt f [(false, false)]).st == .up
  if !good fails && spare && good other then
    (false, put (put s m (Module.trainedAt other [(false, false)])) (m / 18 * 18 + 17) (Module.trainedAt fails [(false, false)]))
  else
    let x := Module.trainedAt fails allWidths
    let s := put s m x
    (spare, if x.st = .down then s.modDie die fun x => { x with offered := false } else s)

/-- Trains the modules of an edge of a die: on an east or west edge the spare one last, if it has replaced none. -/
def State.trainEdge (s : State) (die edge : Nat) : State :=
  let ms := (dieModules die).filter fun m => m % 72 / 18 == edge && m % 18 != 17
  let (spare, s) := ms.foldl (fun (b : Bool × State) m => b.2.trainAtReset die m b.1) (edge % 2 == 1 && !ms.isEmpty, s)
  if spare then (s.trainAtReset die (die * 72 + edge * 18 + 17) false).2 else s

/-- Trains every module of a die (R402). -/
def State.trainDie (s : State) (die : Nat) : State := (below 4).foldl (fun s e => s.trainEdge die e) s

/-- A core as stage 5 starts it: its scratchpad zero but for the core image in the service region (R78, R417). -/
def Core.booted : Core :=
  { Core.reset with spad := Core.reset.spad.writeAll sheafRegion coreImage }

/-- Stage 5 on a die: the core image is written to every core; a die whose scratchpads cannot be written is not offered to the Sower
(R417). -/
def State.fillDie (s : State) (die : Nat) : State :=
  let ok := Config.stageOk s.free
  let s := (s.draw).2
  if ok then (below 512).foldl (fun (s : State) c => s.modCore (die * 512 + c) fun _ => Core.booted) s
  else s.modDie die fun x => { x with offered := false }

/-- Stage 4: the firmware writes the clock registers, DOMCFG and ROUTE (R417). -/
def State.writeDomain (s : State) : State :=
  let s := (below 32).foldl (fun (s : State) d => s.modDie d fun x => { x with
    clkRate := Config.bootRate d
    clkOff := Config.bootOffset d
    clkGen := 1 }) s
  s.modHost fun h => { h with
    domcfg := takeFields 0 [(63, 1), (0, 6)] Config.bootDomain
    route := (below 64).map fun q => (q, takeFields 0 [(15, 1), (8, 5), (0, 5)] (Config.bootRoute q)) }

/-- Stage 4: the firmware enables Stolon ports, at most 8 in 10^9 counts of D0's clock (R417, R423): those for which there is no room yet are
enabled in their turn later. A port that is enabled is trained at the first of its widths that works (R406). -/
def State.enablePorts (s : State) : State :=
  let ports := (below 28).filter Config.bootPort
  let s := (ports.take 8).foldl (fun (s : State) p =>
    let w := firstOf s.free allWidths
    let s := ({ s with free := s.free + 3 }.modSec fun x => { x with enables := x.enables ++ [(s.clock 0).toNat] }).modPort p fun x =>
      { x with ctl := setField x.ctl 1 1 1 }
    match w with
    | some w => s.portTrained p w
    | none => s) s
  ((ports.drop 8).zip (below 28)).foldl (fun s p => s.at (s.cycle + (p.2 / 8 + 1) * 1750000000) (.stolonEnable p.1)) s

/-- Stage 1 fails: a fuse parity error raises alarm code 7, which halts and erases (R417, R422). SPST.LASTALARM stays 0, as R417 says. -/
def State.fuseFault (s : State) : State :=
  ((((s.alarmLog 7 3).haltPanel).erase).modSec fun x => { x with lastAlarm := 0 })

/-- PANEL_RESET: the bring-up stages run in order, the last of which writes SPCFG.SIGREQ and opens the host queue (R417). A stage that fails leaves STAGE at its code and releases no core. HBM keeps its
bytes, its poison and its split (log 40). -/
def execPanelReset (s : State) : Out :=
  ok (
    let (failed, s) := failedStage [1, 2, 3] s
    let start (base : State) : State := { base with
      mem := s.mem
      poison := s.poison
      hshare := s.hshare
      nextId := s.nextId
      free := s.free
      out := s.out }
    match failed with
    | none =>
      let s := (below 32).foldl (fun (s : State) d => s.trainDie d) (start State.reset)
      ((below 32).foldl (fun (s : State) d => s.fillDie d) s.writeDomain.enablePorts).modSec fun x => { x with sigreq := Config.bootSigreq }
    | some n =>
      let s := start { State.quiet with
        sec := { Security.reset with stage := n }
        host := { HostIf.reset with opened := false } }
      if n = 1 then s.fuseFault else s)

/-- Whether an act is an issue of a core of a die. -/
def Act.issueOn (a : Act) (die : Nat) : Bool := match a with | .issue c _ => dieOf c == die | _ => false

/-- DIE_RESET: the die's modules are trained, its clock and rotation begin again, and its cores start as a panel reset starts them (R402,
R417; log 41). After a stage that failed nothing releases a core (R417), and in a halt the modules stay HELD (R422). -/
def execDieReset (die : Nat) (s : State) : Out :=
  ok (
    let s := { s with
      cores := s.cores.filter fun p => dieOf p.1 != die
      dies := KMap.put s.dies die { Die.reset with origin := s.cycle }
      agenda := s.agenda.filter fun d => !d.act.issueOn die }
    let s := s.trainDie die
    let s := if s.sec.haltAll then (dieModules die).foldl (fun (s : State) m => s.haltModule m) s else s
    let s := (below 512).foldl (fun (s : State) c => s.modCore (die * 512 + c) fun _ => Core.booted) s
    if s.sec.stage < 6 then s
    else (below 512).foldl (fun (s : State) c => s.ensureIssue (die * 512 + c) 15 s.cycle) s)

end Sys2Proof.Machine
end

