-- ==== Sys2Proof/Machine/VecMem.lean ====
section
/-! DEFINITION. Vector loads and stores (R255 to R257). -/

namespace Sys2Proof.Machine

/-- The active elements of an access, each with its address (R255). -/
def State.activeAddrs (s : State) (m : BitVec 3) (addr : Nat → Word) : List (Nat × Nat) :=
  ((below (1024 / s.me.sew)).filter fun i => s.me.active m i).map fun i => (i, (addr i).toNat)

/-- The least address of a list. -/
def leastAddr (l : List (Nat × Nat)) : Option Nat :=
  l.foldl (fun k e => match k with | none => some e.2 | some a => some (min a e.2)) none

/-- The check of R256: the cause and tval of the trap, if there is one. -/
def State.vecCheck (s : State) (p : Perm) (n : Nat) (l : List (Nat × Nat)) : Option (Nat × Nat) :=
  match leastAddr (l.filter fun e => e.2 % n != 0) with
  | some a => some (misaligned p, a)
  | none =>
    match leastAddr (l.filter fun e => decide (localSize < e.2 + n)) with
    | some a => some (accessFault p, a)
    | none => (leastAddr (l.filter fun e => (s.localFault p e.2 n).isSome)).map fun a => (accessFault p, a)

/-- A vector memory instruction, after its source reads: every active element is checked before any is performed. -/
def vecAccess (p : Perm) (m : BitVec 3) (addr : State → Nat → Word) (op : Nat → List (Nat × Nat) → LocalOp) (data : State → VWord)
    (s : State) (idle : State → State) : State :=
  let n := s.me.sew / 8
  let l := s.activeAddrs m (addr s)
  match s.vecCheck p n l with
  | some (cause, a) => s.trap cause (BitVec.ofNat 64 a)
  | none =>
    match l with
    | [] => idle s
    | e :: _ => localAccess (op n l) e.2 (l.map fun e => (e.2, n)) ((data s).setWidth 32768) s

/-- A vector load. -/
def vecLoad (vd : BitVec 4) (srcs : List RegRef) (m : BitVec 3) (addr : State → Nat → Word) (s : State) : State :=
  readWrite srcs (.v vd) s fun s =>
    vecAccess .read m addr (fun n l => .vload vd n l) (fun s => s.v vd) s fun s => s.finishV vd (s.v vd)

/-- A vector store. -/
def vecStore (vs : BitVec 4) (srcs : List RegRef) (m : BitVec 3) (addr : State → Nat → Word) (s : State) : State :=
  reading (srcs ++ [.v vs]) s fun s =>
    vecAccess .write m addr (fun n l => .vstore n l (s.v vs)) (fun _ => 0) s State.retire

/-- The addresses of consecutive elements. -/
def unitAddr (rs1 : BitVec 5) (s : State) (i : Nat) : Word := s.x rs1 + BitVec.ofNat 64 (i * (s.me.sew / 8))

/-- The addresses of elements a stride apart. -/
def strideAddr (rs1 rs2 : BitVec 5) (s : State) (i : Nat) : Word := s.x rs1 + BitVec.ofNat 64 i * s.x rs2

/-- The addresses of indexed elements. -/
def indexAddr (rs1 : BitVec 5) (vs2 : BitVec 4) (s : State) (i : Nat) : Word :=
  s.x rs1 + BitVec.ofNat 64 (field (s.v vs2) (s.me.sew * i) s.me.sew)

/-- VLE (R255). -/
def execVle (vd : BitVec 4) (rs1 : BitVec 5) (m : BitVec 3) (s : State) : Out := ok (vecLoad vd [.x rs1] m (unitAddr rs1) s)

/-- VLSE (R255). -/
def execVlse (vd : BitVec 4) (rs1 rs2 : BitVec 5) (m : BitVec 3) (s : State) : Out :=
  ok (vecLoad vd [.x rs1, .x rs2] m (strideAddr rs1 rs2) s)

/-- VLXE (R255). -/
def execVlxe (vd : BitVec 4) (rs1 : BitVec 5) (vs2 : BitVec 4) (m : BitVec 3) (s : State) : Out :=
  ok (vecLoad vd [.x rs1, .v vs2] m (indexAddr rs1 vs2) s)

/-- VSE (R255). -/
def execVse (vs : BitVec 4) (rs1 : BitVec 5) (m : BitVec 3) (s : State) : Out := ok (vecStore vs [.x rs1] m (unitAddr rs1) s)

/-- VSSE (R255). -/
def execVsse (vs : BitVec 4) (rs1 rs2 : BitVec 5) (m : BitVec 3) (s : State) : Out :=
  ok (vecStore vs [.x rs1, .x rs2] m (strideAddr rs1 rs2) s)

/-- VSXE (R255). -/
def execVsxe (vs : BitVec 4) (rs1 : BitVec 5) (vs2 : BitVec 4) (m : BitVec 3) (s : State) : Out :=
  ok (vecStore vs [.x rs1, .v vs2] m (indexAddr rs1 vs2) s)

end Sys2Proof.Machine
end

