-- ==== Sys2Proof/Machine/Dispatch.lean ====
section
/-! DEFINITION. The one dispatch: what each instruction and each event does to the machine. -/

namespace Sys2Proof.Machine

def exec (i : Instr) (s : State) : Host.Outcome State Fault Refusal :=
  match i with
  | .illegalInstruction w => Sys2Proof.Machine.execIllegalInstruction w s
  | .wtmoLimit core slot serial => Sys2Proof.Machine.execWtmoLimit core slot serial s
  | .globalLoadData req => Sys2Proof.Machine.execGlobalLoadData req s
  | .storeAck req => Sys2Proof.Machine.execStoreAck req s
  | .homeAccess req => Sys2Proof.Machine.execHomeAccess req s
  | .bankGrant core => Sys2Proof.Machine.execBankGrant core s
  | .sfuServiceStart core => Sys2Proof.Machine.execSfuServiceStart core s
  | .sfuResult core => Sys2Proof.Machine.execSfuResult core s
  | .tlbRefill core walk => Sys2Proof.Machine.execTlbRefill core walk s
  | .faultRecordPendingPost die => Sys2Proof.Machine.execFaultRecordPendingPost die s
  | .trapRecordPendingPost core => Sys2Proof.Machine.execTrapRecordPendingPost core s
  | .depositDepart core oid => Sys2Proof.Machine.execDepositDepart core oid s
  | .depositLanding msg => Sys2Proof.Machine.execDepositLanding msg s
  | .postedAtomicLanding msg => Sys2Proof.Machine.execPostedAtomicLanding msg s
  | .globalPostedAtomic msg => Sys2Proof.Machine.execGlobalPostedAtomic msg s
  | .wakeRLanding msg => Sys2Proof.Machine.execWakeRLanding msg s
  | .counterRaise msg => Sys2Proof.Machine.execCounterRaise msg s
  | .landingReceipt msg => Sys2Proof.Machine.execLandingReceipt msg s
  | .sendRelease core slot serial => Sys2Proof.Machine.execSendRelease core slot serial s
  | .offer msg => Sys2Proof.Machine.execOffer msg s
  | .ack msg => Sys2Proof.Machine.execAck msg s
  | .recv msg => Sys2Proof.Machine.execRecv msg s
  | .withdraw msg => Sys2Proof.Machine.execWithdraw msg s
  | .withdrawn msg => Sys2Proof.Machine.execWithdrawn msg s
  | .broken msg => Sys2Proof.Machine.execBroken msg s
  | .receiveTimeout core slot serial => Sys2Proof.Machine.execReceiveTimeout core slot serial s
  | .probeTimer core slot serial => Sys2Proof.Machine.execProbeTimer core slot serial s
  | .probe msg => Sys2Proof.Machine.execProbe msg s
  | .reply msg => Sys2Proof.Machine.execReply msg s
  | .wbarArrivalSignal core slot serial => Sys2Proof.Machine.execWbarArrivalSignal core slot serial s
  | .wbarPhaseRelease die ctx phase => Sys2Proof.Machine.execWbarPhaseRelease die ctx phase s
  | .mmaStart core => Sys2Proof.Machine.execMmaStart core s
  | .mmaSliceEnd core => Sys2Proof.Machine.execMmaSliceEnd core s
  | .mmaComplete core => Sys2Proof.Machine.execMmaComplete core s
  | .mloadComplete core acc => Sys2Proof.Machine.execMloadComplete core acc s
  | .drainComplete core drain => Sys2Proof.Machine.execDrainComplete core drain s
  | .amaxUpdate core drain => Sys2Proof.Machine.execAmaxUpdate core drain s
  | .gleanerEntryStart core lid => Sys2Proof.Machine.execGleanerEntryStart core lid s
  | .gleanerTranslate core lid => Sys2Proof.Machine.execGleanerTranslate core lid s
  | .gleanerEntryComplete core lid entry => Sys2Proof.Machine.execGleanerEntryComplete core lid entry s
  | .gleanerListEnd core lid => Sys2Proof.Machine.execGleanerListEnd core lid s
  | .thresherOperationStart op => Sys2Proof.Machine.execThresherOperationStart op s
  | .sourceRead op rank tile => Sys2Proof.Machine.execSourceRead op rank tile s
  | .eround msg => Sys2Proof.Machine.execEround msg s
  | .up msg => Sys2Proof.Machine.execUp msg s
  | .header msg => Sys2Proof.Machine.execHeader msg s
  | .plane msg => Sys2Proof.Machine.execPlane msg s
  | .planeCounterRaise op rank => Sys2Proof.Machine.execPlaneCounterRaise op rank s
  | .cancel msg => Sys2Proof.Machine.execCancel msg s
  | .thresherOperationEnd op rank => Sys2Proof.Machine.execThresherOperationEnd op rank s
  | .thresherFault op => Sys2Proof.Machine.execThresherFault op s
  | .launchAccept cmd => Sys2Proof.Machine.execLaunchAccept cmd s
  | .placementStart => Sys2Proof.Machine.execPlacementStart s
  | .sheafLoad ticket => Sys2Proof.Machine.execSheafLoad ticket s
  | .startWave ticket => Sys2Proof.Machine.execStartWave ticket s
  | .startRelease die ticket => Sys2Proof.Machine.execStartRelease die ticket s
  | .sowerSuspend ticket => Sys2Proof.Machine.execSowerSuspend ticket s
  | .sowerResume ticket => Sys2Proof.Machine.execSowerResume ticket s
  | .sowerKill ticket => Sys2Proof.Machine.execSowerKill ticket s
  | .quiescenceRound ticket => Sys2Proof.Machine.execQuiescenceRound ticket s
  | .combineRoundRestart ticket => Sys2Proof.Machine.execCombineRoundRestart ticket s
  | .retirement ticket => Sys2Proof.Machine.execRetirement ticket s
  | .generationSweep group => Sys2Proof.Machine.execGenerationSweep group s
  | .flitReceive module end_ msg => Sys2Proof.Machine.execFlitReceive module end_ msg s
  | .flitReplay module end_ msg => Sys2Proof.Machine.execFlitReplay module end_ msg s
  | .replayLimit module => Sys2Proof.Machine.execReplayLimit module s
  | .moduleDrained module => Sys2Proof.Machine.execModuleDrained module s
  | .trainDone module => Sys2Proof.Machine.execTrainDone module s
  | .messageDiscard msg module => Sys2Proof.Machine.execMessageDiscard msg module s
  | .lossNotice msg => Sys2Proof.Machine.execLossNotice msg s
  | .accessTimeout req => Sys2Proof.Machine.execAccessTimeout req s
  | .moduleHold module => Sys2Proof.Machine.execModuleHold module s
  | .moduleUnhold module => Sys2Proof.Machine.execModuleUnhold module s
  | .retrain module end_ => Sys2Proof.Machine.execRetrain module end_ s
  | .stolonRetrain port => Sys2Proof.Machine.execStolonRetrain port s
  | .stolonHold port => Sys2Proof.Machine.execStolonHold port s
  | .stolonEnable port => Sys2Proof.Machine.execStolonEnable port s
  | .wgdata core slot serial => Sys2Proof.Machine.execWgdata core slot serial s
  | .invAll die => Sys2Proof.Machine.execInvAll die s
  | .invAsid die asid => Sys2Proof.Machine.execInvAsid die asid s
  | .invAsidPage die asid page => Sys2Proof.Machine.execInvAsidPage die asid page s
  | .invPage die page => Sys2Proof.Machine.execInvPage die page s
  | .invComplete die => Sys2Proof.Machine.execInvComplete die s
  | .wtrapqPop core => Sys2Proof.Machine.execWtrapqPop core s
  | .wdmapWrite core value => Sys2Proof.Machine.execWdmapWrite core value s
  | .wwindata core win value => Sys2Proof.Machine.execWwindata core win value s
  | .asidEntryWrite index value => Sys2Proof.Machine.execAsidEntryWrite index value s
  | .clkoff die value => Sys2Proof.Machine.execClkoff die value s
  | .clkrate die value => Sys2Proof.Machine.execClkrate die value s
  | .sqDoorbell value => Sys2Proof.Machine.execSqDoorbell value s
  | .sqConsume => Sys2Proof.Machine.execSqConsume s
  | .sqCompletion => Sys2Proof.Machine.execSqCompletion s
  | .hostMemAccess write addr size value => Sys2Proof.Machine.execHostMemAccess write addr size value s
  | .hostWindowWrite reg value => Sys2Proof.Machine.execHostWindowWrite reg value s
  | .panelReset => Sys2Proof.Machine.execPanelReset s
  | .dieReset die => Sys2Proof.Machine.execDieReset die s
  | .sigreq => Sys2Proof.Machine.execSigreq s
  | .mext => Sys2Proof.Machine.execMext s
  | .mextComplete => Sys2Proof.Machine.execMextComplete s
  | .attgo => Sys2Proof.Machine.execAttgo s
  | .attestComplete => Sys2Proof.Machine.execAttestComplete s
  | .pcap value => Sys2Proof.Machine.execPcap value s
  | .powerMeasure centiwatts => Sys2Proof.Machine.execPowerMeasure centiwatts s
  | .sensorAlarm sensor => Sys2Proof.Machine.execSensorAlarm sensor s
  | .registerWrite addr value => Sys2Proof.Machine.execRegisterWrite addr value s
  | .wrsStoTimeout core slot serial => Sys2Proof.Machine.execWrsStoTimeout core slot serial s
  | .partnerCopyRefresh module => Sys2Proof.Machine.execPartnerCopyRefresh module s
  | .sweepMarkerReturn group => Sys2Proof.Machine.execSweepMarkerReturn group s
  | .reservationMessage msg => Sys2Proof.Machine.execReservationMessage msg s
  | .lb rd rs1 imm => Sys2Proof.Machine.execLb rd rs1 imm s
  | .lh rd rs1 imm => Sys2Proof.Machine.execLh rd rs1 imm s
  | .lw rd rs1 imm => Sys2Proof.Machine.execLw rd rs1 imm s
  | .ld rd rs1 imm => Sys2Proof.Machine.execLd rd rs1 imm s
  | .lbu rd rs1 imm => Sys2Proof.Machine.execLbu rd rs1 imm s
  | .lhu rd rs1 imm => Sys2Proof.Machine.execLhu rd rs1 imm s
  | .lwu rd rs1 imm => Sys2Proof.Machine.execLwu rd rs1 imm s
  | .sb rs1 rs2 imm => Sys2Proof.Machine.execSb rs1 rs2 imm s
  | .sh rs1 rs2 imm => Sys2Proof.Machine.execSh rs1 rs2 imm s
  | .sw rs1 rs2 imm => Sys2Proof.Machine.execSw rs1 rs2 imm s
  | .sd rs1 rs2 imm => Sys2Proof.Machine.execSd rs1 rs2 imm s
  | .fence fm pred succ => Sys2Proof.Machine.execFence fm pred succ s
  | .fenceI => Sys2Proof.Machine.execFenceI s
  | .addi rd rs1 imm => Sys2Proof.Machine.execAddi rd rs1 imm s
  | .slti rd rs1 imm => Sys2Proof.Machine.execSlti rd rs1 imm s
  | .sltiu rd rs1 imm => Sys2Proof.Machine.execSltiu rd rs1 imm s
  | .xori rd rs1 imm => Sys2Proof.Machine.execXori rd rs1 imm s
  | .ori rd rs1 imm => Sys2Proof.Machine.execOri rd rs1 imm s
  | .andi rd rs1 imm => Sys2Proof.Machine.execAndi rd rs1 imm s
  | .slli rd rs1 sh => Sys2Proof.Machine.execSlli rd rs1 sh s
  | .srli rd rs1 sh => Sys2Proof.Machine.execSrli rd rs1 sh s
  | .srai rd rs1 sh => Sys2Proof.Machine.execSrai rd rs1 sh s
  | .auipc rd imm => Sys2Proof.Machine.execAuipc rd imm s
  | .lui rd imm => Sys2Proof.Machine.execLui rd imm s
  | .addiw rd rs1 imm => Sys2Proof.Machine.execAddiw rd rs1 imm s
  | .slliw rd rs1 sh => Sys2Proof.Machine.execSlliw rd rs1 sh s
  | .srliw rd rs1 sh => Sys2Proof.Machine.execSrliw rd rs1 sh s
  | .sraiw rd rs1 sh => Sys2Proof.Machine.execSraiw rd rs1 sh s
  | .lrW rd rs1 aq rl => Sys2Proof.Machine.execLrW rd rs1 aq rl s
  | .lrD rd rs1 aq rl => Sys2Proof.Machine.execLrD rd rs1 aq rl s
  | .scW rd rs1 rs2 aq rl => Sys2Proof.Machine.execScW rd rs1 rs2 aq rl s
  | .scD rd rs1 rs2 aq rl => Sys2Proof.Machine.execScD rd rs1 rs2 aq rl s
  | .amoswapW rd rs1 rs2 aq rl => Sys2Proof.Machine.execAmoswapW rd rs1 rs2 aq rl s
  | .amoswapD rd rs1 rs2 aq rl => Sys2Proof.Machine.execAmoswapD rd rs1 rs2 aq rl s
  | .amoaddW rd rs1 rs2 aq rl => Sys2Proof.Machine.execAmoaddW rd rs1 rs2 aq rl s
  | .amoaddD rd rs1 rs2 aq rl => Sys2Proof.Machine.execAmoaddD rd rs1 rs2 aq rl s
  | .amoxorW rd rs1 rs2 aq rl => Sys2Proof.Machine.execAmoxorW rd rs1 rs2 aq rl s
  | .amoxorD rd rs1 rs2 aq rl => Sys2Proof.Machine.execAmoxorD rd rs1 rs2 aq rl s
  | .amoandW rd rs1 rs2 aq rl => Sys2Proof.Machine.execAmoandW rd rs1 rs2 aq rl s
  | .amoandD rd rs1 rs2 aq rl => Sys2Proof.Machine.execAmoandD rd rs1 rs2 aq rl s
  | .amoorW rd rs1 rs2 aq rl => Sys2Proof.Machine.execAmoorW rd rs1 rs2 aq rl s
  | .amoorD rd rs1 rs2 aq rl => Sys2Proof.Machine.execAmoorD rd rs1 rs2 aq rl s
  | .amominW rd rs1 rs2 aq rl => Sys2Proof.Machine.execAmominW rd rs1 rs2 aq rl s
  | .amominD rd rs1 rs2 aq rl => Sys2Proof.Machine.execAmominD rd rs1 rs2 aq rl s
  | .amomaxW rd rs1 rs2 aq rl => Sys2Proof.Machine.execAmomaxW rd rs1 rs2 aq rl s
  | .amomaxD rd rs1 rs2 aq rl => Sys2Proof.Machine.execAmomaxD rd rs1 rs2 aq rl s
  | .amominuW rd rs1 rs2 aq rl => Sys2Proof.Machine.execAmominuW rd rs1 rs2 aq rl s
  | .amominuD rd rs1 rs2 aq rl => Sys2Proof.Machine.execAmominuD rd rs1 rs2 aq rl s
  | .amomaxuW rd rs1 rs2 aq rl => Sys2Proof.Machine.execAmomaxuW rd rs1 rs2 aq rl s
  | .amomaxuD rd rs1 rs2 aq rl => Sys2Proof.Machine.execAmomaxuD rd rs1 rs2 aq rl s
  | .add rd rs1 rs2 => Sys2Proof.Machine.execAdd rd rs1 rs2 s
  | .sub rd rs1 rs2 => Sys2Proof.Machine.execSub rd rs1 rs2 s
  | .sll rd rs1 rs2 => Sys2Proof.Machine.execSll rd rs1 rs2 s
  | .slt rd rs1 rs2 => Sys2Proof.Machine.execSlt rd rs1 rs2 s
  | .sltu rd rs1 rs2 => Sys2Proof.Machine.execSltu rd rs1 rs2 s
  | .xor rd rs1 rs2 => Sys2Proof.Machine.execXor rd rs1 rs2 s
  | .srl rd rs1 rs2 => Sys2Proof.Machine.execSrl rd rs1 rs2 s
  | .sra rd rs1 rs2 => Sys2Proof.Machine.execSra rd rs1 rs2 s
  | .or rd rs1 rs2 => Sys2Proof.Machine.execOr rd rs1 rs2 s
  | .and rd rs1 rs2 => Sys2Proof.Machine.execAnd rd rs1 rs2 s
  | .mul rd rs1 rs2 => Sys2Proof.Machine.execMul rd rs1 rs2 s
  | .mulh rd rs1 rs2 => Sys2Proof.Machine.execMulh rd rs1 rs2 s
  | .mulhsu rd rs1 rs2 => Sys2Proof.Machine.execMulhsu rd rs1 rs2 s
  | .mulhu rd rs1 rs2 => Sys2Proof.Machine.execMulhu rd rs1 rs2 s
  | .div rd rs1 rs2 => Sys2Proof.Machine.execDiv rd rs1 rs2 s
  | .divu rd rs1 rs2 => Sys2Proof.Machine.execDivu rd rs1 rs2 s
  | .rem rd rs1 rs2 => Sys2Proof.Machine.execRem rd rs1 rs2 s
  | .remu rd rs1 rs2 => Sys2Proof.Machine.execRemu rd rs1 rs2 s
  | .addw rd rs1 rs2 => Sys2Proof.Machine.execAddw rd rs1 rs2 s
  | .subw rd rs1 rs2 => Sys2Proof.Machine.execSubw rd rs1 rs2 s
  | .sllw rd rs1 rs2 => Sys2Proof.Machine.execSllw rd rs1 rs2 s
  | .srlw rd rs1 rs2 => Sys2Proof.Machine.execSrlw rd rs1 rs2 s
  | .sraw rd rs1 rs2 => Sys2Proof.Machine.execSraw rd rs1 rs2 s
  | .mulw rd rs1 rs2 => Sys2Proof.Machine.execMulw rd rs1 rs2 s
  | .divw rd rs1 rs2 => Sys2Proof.Machine.execDivw rd rs1 rs2 s
  | .divuw rd rs1 rs2 => Sys2Proof.Machine.execDivuw rd rs1 rs2 s
  | .remw rd rs1 rs2 => Sys2Proof.Machine.execRemw rd rs1 rs2 s
  | .remuw rd rs1 rs2 => Sys2Proof.Machine.execRemuw rd rs1 rs2 s
  | .beq rs1 rs2 imm => Sys2Proof.Machine.execBeq rs1 rs2 imm s
  | .bne rs1 rs2 imm => Sys2Proof.Machine.execBne rs1 rs2 imm s
  | .blt rs1 rs2 imm => Sys2Proof.Machine.execBlt rs1 rs2 imm s
  | .bge rs1 rs2 imm => Sys2Proof.Machine.execBge rs1 rs2 imm s
  | .bltu rs1 rs2 imm => Sys2Proof.Machine.execBltu rs1 rs2 imm s
  | .bgeu rs1 rs2 imm => Sys2Proof.Machine.execBgeu rs1 rs2 imm s
  | .jalr rd rs1 imm => Sys2Proof.Machine.execJalr rd rs1 imm s
  | .jal rd imm => Sys2Proof.Machine.execJal rd imm s
  | .ecall => Sys2Proof.Machine.execEcall s
  | .ebreak => Sys2Proof.Machine.execEbreak s
  | .sret => Sys2Proof.Machine.execSret s
  | .mret => Sys2Proof.Machine.execMret s
  | .wfi => Sys2Proof.Machine.execWfi s
  | .wrsNto => Sys2Proof.Machine.execWrsNto s
  | .wrsSto => Sys2Proof.Machine.execWrsSto s
  | .sfenceVma rs1 rs2 => Sys2Proof.Machine.execSfenceVma rs1 rs2 s
  | .csrrw rd rs1 csr => Sys2Proof.Machine.execCsrrw rd rs1 csr s
  | .csrrs rd rs1 csr => Sys2Proof.Machine.execCsrrs rd rs1 csr s
  | .csrrc rd rs1 csr => Sys2Proof.Machine.execCsrrc rd rs1 csr s
  | .csrrwi rd uimm csr => Sys2Proof.Machine.execCsrrwi rd uimm csr s
  | .csrrsi rd uimm csr => Sys2Proof.Machine.execCsrrsi rd uimm csr s
  | .csrrci rd uimm csr => Sys2Proof.Machine.execCsrrci rd uimm csr s
  | .park => Sys2Proof.Machine.execPark s
  | .wake rs1 => Sys2Proof.Machine.execWake rs1 s
  | .wakeR rs1 => Sys2Proof.Machine.execWakeR rs1 s
  | .pfence scope pred succ => Sys2Proof.Machine.execPfence scope pred succ s
  | .stop => Sys2Proof.Machine.execStop s
  | .feEmpty reg => Sys2Proof.Machine.execFeEmpty reg s
  | .feTest rd reg => Sys2Proof.Machine.execFeTest rd reg s
  | .feWait reg => Sys2Proof.Machine.execFeWait reg s
  | .dsb rs1 rs2 rel => Sys2Proof.Machine.execDsb rs1 rs2 rel s
  | .dsh rs1 rs2 rel => Sys2Proof.Machine.execDsh rs1 rs2 rel s
  | .dsw rs1 rs2 rel => Sys2Proof.Machine.execDsw rs1 rs2 rel s
  | .dsd rs1 rs2 rel => Sys2Proof.Machine.execDsd rs1 rs2 rel s
  | .dsv rs1 vs2 rel => Sys2Proof.Machine.execDsv rs1 vs2 rel s
  | .daddW rs1 rs2 rel => Sys2Proof.Machine.execDaddW rs1 rs2 rel s
  | .daddD rs1 rs2 rel => Sys2Proof.Machine.execDaddD rs1 rs2 rel s
  | .dmaxW rs1 rs2 rel => Sys2Proof.Machine.execDmaxW rs1 rs2 rel s
  | .dmaxD rs1 rs2 rel => Sys2Proof.Machine.execDmaxD rs1 rs2 rel s
  | .dminW rs1 rs2 rel => Sys2Proof.Machine.execDminW rs1 rs2 rel s
  | .dminD rs1 rs2 rel => Sys2Proof.Machine.execDminD rs1 rs2 rel s
  | .dmaxuW rs1 rs2 rel => Sys2Proof.Machine.execDmaxuW rs1 rs2 rel s
  | .dmaxuD rs1 rs2 rel => Sys2Proof.Machine.execDmaxuD rs1 rs2 rel s
  | .dandW rs1 rs2 rel => Sys2Proof.Machine.execDandW rs1 rs2 rel s
  | .dandD rs1 rs2 rel => Sys2Proof.Machine.execDandD rs1 rs2 rel s
  | .dorW rs1 rs2 rel => Sys2Proof.Machine.execDorW rs1 rs2 rel s
  | .dorD rs1 rs2 rel => Sys2Proof.Machine.execDorD rs1 rs2 rel s
  | .dxorW rs1 rs2 rel => Sys2Proof.Machine.execDxorW rs1 rs2 rel s
  | .dxorD rs1 rs2 rel => Sys2Proof.Machine.execDxorD rs1 rs2 rel s
  | .cntSet c rs1 => Sys2Proof.Machine.execCntSet c rs1 s
  | .cntAdd c rs1 => Sys2Proof.Machine.execCntAdd c rs1 s
  | .cntRd rd c => Sys2Proof.Machine.execCntRd rd c s
  | .cntWait rd c => Sys2Proof.Machine.execCntWait rd c s
  | .cntPoll rd c => Sys2Proof.Machine.execCntPoll rd c s
  | .cntMode c rs1 => Sys2Proof.Machine.execCntMode c rs1 s
  | .chs ch rs1 => Sys2Proof.Machine.execChs ch rs1 s
  | .chsv ch vs1 => Sys2Proof.Machine.execChsv ch vs1 s
  | .chr rd ch => Sys2Proof.Machine.execChr rd ch s
  | .chrv vd ch => Sys2Proof.Machine.execChrv vd ch s
  | .altOn n ch => Sys2Proof.Machine.execAltOn n ch s
  | .altOff n => Sys2Proof.Machine.execAltOff n s
  | .altWait rd tmo skip => Sys2Proof.Machine.execAltWait rd tmo skip s
  | .altClr => Sys2Proof.Machine.execAltClr s
  | .chprobe rd ch => Sys2Proof.Machine.execChprobe rd ch s
  | .wbarA b => Sys2Proof.Machine.execWbarA b s
  | .wbarW rd b => Sys2Proof.Machine.execWbarW rd b s
  | .grpPut g rs1 => Sys2Proof.Machine.execGrpPut g rs1 s
  | .grpGet rd g => Sys2Proof.Machine.execGrpGet rd g s
  | .mmaFp8 acc rs1 rs2 z => Sys2Proof.Machine.execMmaFp8 acc rs1 rs2 z s
  | .mmaBf16 acc rs1 rs2 z => Sys2Proof.Machine.execMmaBf16 acc rs1 rs2 z s
  | .mmaFp16 acc rs1 rs2 z => Sys2Proof.Machine.execMmaFp16 acc rs1 rs2 z s
  | .mmaMxf8 acc rs1 rs2 z => Sys2Proof.Machine.execMmaMxf8 acc rs1 rs2 z s
  | .mmaMxf4 acc rs1 rs2 z => Sys2Proof.Machine.execMmaMxf4 acc rs1 rs2 z s
  | .mmaDxb8 acc rs1 rs2 z => Sys2Proof.Machine.execMmaDxb8 acc rs1 rs2 z s
  | .mmaDxb4 acc rs1 rs2 z => Sys2Proof.Machine.execMmaDxb4 acc rs1 rs2 z s
  | .mmaI8 acc rs1 rs2 z => Sys2Proof.Machine.execMmaI8 acc rs1 rs2 z s
  | .macq acc => Sys2Proof.Machine.execMacq acc s
  | .mrel acc => Sys2Proof.Machine.execMrel acc s
  | .mzero acc => Sys2Proof.Machine.execMzero acc s
  | .mload acc rs1 => Sys2Proof.Machine.execMload acc rs1 s
  | .mdrain acc rs1 rs2 amax => Sys2Proof.Machine.execMdrain acc rs1 rs2 amax s
  | .mdrainD acc rs1 rs2 amax => Sys2Proof.Machine.execMdrainD acc rs1 rs2 amax s
  | .mdrainQ acc rs1 rs2 amax => Sys2Proof.Machine.execMdrainQ acc rs1 rs2 amax s
  | .ceGo rd rs1 => Sys2Proof.Machine.execCeGo rd rs1 s
  | .ceWait rd rs1 => Sys2Proof.Machine.execCeWait rd rs1 s
  | .ceStat rd rs1 => Sys2Proof.Machine.execCeStat rd rs1 s
  | .ceAbort rd rs1 => Sys2Proof.Machine.execCeAbort rd rs1 s
  | .plGo rd rs1 => Sys2Proof.Machine.execPlGo rd rs1 s
  | .plWait rd rs1 => Sys2Proof.Machine.execPlWait rd rs1 s
  | .plCancel rd rs1 => Sys2Proof.Machine.execPlCancel rd rs1 s
  | .plStat rd rs1 => Sys2Proof.Machine.execPlStat rd rs1 s
  | .sow rd rs1 => Sys2Proof.Machine.execSow rd rs1 s
  | .sstop rd rs1 => Sys2Proof.Machine.execSstop rd rs1 s
  | .sresume rd rs1 => Sys2Proof.Machine.execSresume rd rs1 s
  | .skill rd rs1 => Sys2Proof.Machine.execSkill rd rs1 s
  | .ssave rd rs1 rs2 => Sys2Proof.Machine.execSsave rd rs1 rs2 s
  | .sload rd rs1 rs2 => Sys2Proof.Machine.execSload rd rs1 rs2 s
  | .vaddVv vd vs1 vs2 m => Sys2Proof.Machine.execVaddVv vd vs1 vs2 m s
  | .vaddVx vd vs1 rs2 m => Sys2Proof.Machine.execVaddVx vd vs1 rs2 m s
  | .vsubVv vd vs1 vs2 m => Sys2Proof.Machine.execVsubVv vd vs1 vs2 m s
  | .vsubVx vd vs1 rs2 m => Sys2Proof.Machine.execVsubVx vd vs1 rs2 m s
  | .vmulVv vd vs1 vs2 m => Sys2Proof.Machine.execVmulVv vd vs1 vs2 m s
  | .vmulVx vd vs1 rs2 m => Sys2Proof.Machine.execVmulVx vd vs1 rs2 m s
  | .vmulhVv vd vs1 vs2 m => Sys2Proof.Machine.execVmulhVv vd vs1 vs2 m s
  | .vmulhVx vd vs1 rs2 m => Sys2Proof.Machine.execVmulhVx vd vs1 rs2 m s
  | .vminVv vd vs1 vs2 m => Sys2Proof.Machine.execVminVv vd vs1 vs2 m s
  | .vminVx vd vs1 rs2 m => Sys2Proof.Machine.execVminVx vd vs1 rs2 m s
  | .vmaxVv vd vs1 vs2 m => Sys2Proof.Machine.execVmaxVv vd vs1 vs2 m s
  | .vmaxVx vd vs1 rs2 m => Sys2Proof.Machine.execVmaxVx vd vs1 rs2 m s
  | .vminuVv vd vs1 vs2 m => Sys2Proof.Machine.execVminuVv vd vs1 vs2 m s
  | .vminuVx vd vs1 rs2 m => Sys2Proof.Machine.execVminuVx vd vs1 rs2 m s
  | .vmaxuVv vd vs1 vs2 m => Sys2Proof.Machine.execVmaxuVv vd vs1 vs2 m s
  | .vmaxuVx vd vs1 rs2 m => Sys2Proof.Machine.execVmaxuVx vd vs1 rs2 m s
  | .vsaddVv vd vs1 vs2 m => Sys2Proof.Machine.execVsaddVv vd vs1 vs2 m s
  | .vsaddVx vd vs1 rs2 m => Sys2Proof.Machine.execVsaddVx vd vs1 rs2 m s
  | .vssubVv vd vs1 vs2 m => Sys2Proof.Machine.execVssubVv vd vs1 vs2 m s
  | .vssubVx vd vs1 rs2 m => Sys2Proof.Machine.execVssubVx vd vs1 rs2 m s
  | .vmaccVv vd vs1 vs2 m => Sys2Proof.Machine.execVmaccVv vd vs1 vs2 m s
  | .vmaccVx vd vs1 rs2 m => Sys2Proof.Machine.execVmaccVx vd vs1 rs2 m s
  | .vfaddVv vd vs1 vs2 m => Sys2Proof.Machine.execVfaddVv vd vs1 vs2 m s
  | .vfaddVx vd vs1 rs2 m => Sys2Proof.Machine.execVfaddVx vd vs1 rs2 m s
  | .vfsubVv vd vs1 vs2 m => Sys2Proof.Machine.execVfsubVv vd vs1 vs2 m s
  | .vfsubVx vd vs1 rs2 m => Sys2Proof.Machine.execVfsubVx vd vs1 rs2 m s
  | .vfmulVv vd vs1 vs2 m => Sys2Proof.Machine.execVfmulVv vd vs1 vs2 m s
  | .vfmulVx vd vs1 rs2 m => Sys2Proof.Machine.execVfmulVx vd vs1 rs2 m s
  | .vfminVv vd vs1 vs2 m => Sys2Proof.Machine.execVfminVv vd vs1 vs2 m s
  | .vfminVx vd vs1 rs2 m => Sys2Proof.Machine.execVfminVx vd vs1 rs2 m s
  | .vfmaxVv vd vs1 vs2 m => Sys2Proof.Machine.execVfmaxVv vd vs1 vs2 m s
  | .vfmaxVx vd vs1 rs2 m => Sys2Proof.Machine.execVfmaxVx vd vs1 rs2 m s
  | .vfmaccVv vd vs1 vs2 m => Sys2Proof.Machine.execVfmaccVv vd vs1 vs2 m s
  | .vfmaccVx vd vs1 rs2 m => Sys2Proof.Machine.execVfmaccVx vd vs1 rs2 m s
  | .vfnmsacVv vd vs1 vs2 m => Sys2Proof.Machine.execVfnmsacVv vd vs1 vs2 m s
  | .vfnmsacVx vd vs1 rs2 m => Sys2Proof.Machine.execVfnmsacVx vd vs1 rs2 m s
  | .vmseqVv md vs1 vs2 m => Sys2Proof.Machine.execVmseqVv md vs1 vs2 m s
  | .vmseqVx md vs1 rs2 m => Sys2Proof.Machine.execVmseqVx md vs1 rs2 m s
  | .vmsneVv md vs1 vs2 m => Sys2Proof.Machine.execVmsneVv md vs1 vs2 m s
  | .vmsneVx md vs1 rs2 m => Sys2Proof.Machine.execVmsneVx md vs1 rs2 m s
  | .vmsltVv md vs1 vs2 m => Sys2Proof.Machine.execVmsltVv md vs1 vs2 m s
  | .vmsltVx md vs1 rs2 m => Sys2Proof.Machine.execVmsltVx md vs1 rs2 m s
  | .vmsltuVv md vs1 vs2 m => Sys2Proof.Machine.execVmsltuVv md vs1 vs2 m s
  | .vmsltuVx md vs1 rs2 m => Sys2Proof.Machine.execVmsltuVx md vs1 rs2 m s
  | .vmfeqVv md vs1 vs2 m => Sys2Proof.Machine.execVmfeqVv md vs1 vs2 m s
  | .vmfeqVx md vs1 rs2 m => Sys2Proof.Machine.execVmfeqVx md vs1 rs2 m s
  | .vmfltVv md vs1 vs2 m => Sys2Proof.Machine.execVmfltVv md vs1 vs2 m s
  | .vmfltVx md vs1 rs2 m => Sys2Proof.Machine.execVmfltVx md vs1 rs2 m s
  | .vmfleVv md vs1 vs2 m => Sys2Proof.Machine.execVmfleVv md vs1 vs2 m s
  | .vmfleVx md vs1 rs2 m => Sys2Proof.Machine.execVmfleVx md vs1 rs2 m s
  | .vandVv vd vs1 vs2 m => Sys2Proof.Machine.execVandVv vd vs1 vs2 m s
  | .vandVx vd vs1 rs2 m => Sys2Proof.Machine.execVandVx vd vs1 rs2 m s
  | .vorVv vd vs1 vs2 m => Sys2Proof.Machine.execVorVv vd vs1 vs2 m s
  | .vorVx vd vs1 rs2 m => Sys2Proof.Machine.execVorVx vd vs1 rs2 m s
  | .vxorVv vd vs1 vs2 m => Sys2Proof.Machine.execVxorVv vd vs1 vs2 m s
  | .vxorVx vd vs1 rs2 m => Sys2Proof.Machine.execVxorVx vd vs1 rs2 m s
  | .vsllVv vd vs1 vs2 m => Sys2Proof.Machine.execVsllVv vd vs1 vs2 m s
  | .vsllVx vd vs1 rs2 m => Sys2Proof.Machine.execVsllVx vd vs1 rs2 m s
  | .vsrlVv vd vs1 vs2 m => Sys2Proof.Machine.execVsrlVv vd vs1 vs2 m s
  | .vsrlVx vd vs1 rs2 m => Sys2Proof.Machine.execVsrlVx vd vs1 rs2 m s
  | .vsraVv vd vs1 vs2 m => Sys2Proof.Machine.execVsraVv vd vs1 vs2 m s
  | .vsraVx vd vs1 rs2 m => Sys2Proof.Machine.execVsraVx vd vs1 rs2 m s
  | .vle vd rs1 m => Sys2Proof.Machine.execVle vd rs1 m s
  | .vlse vd rs1 rs2 m => Sys2Proof.Machine.execVlse vd rs1 rs2 m s
  | .vlxe vd rs1 vs2 m => Sys2Proof.Machine.execVlxe vd rs1 vs2 m s
  | .vse vs rs1 m => Sys2Proof.Machine.execVse vs rs1 m s
  | .vsse vs rs1 rs2 m => Sys2Proof.Machine.execVsse vs rs1 rs2 m s
  | .vsxe vs rs1 vs2 m => Sys2Proof.Machine.execVsxe vs rs1 vs2 m s
  | .vcvt vd vs1 code m => Sys2Proof.Machine.execVcvt vd vs1 code m s
  | .vqnt vd vs1 code => Sys2Proof.Machine.execVqnt vd vs1 code s
  | .vdeq vd vs1 code => Sys2Proof.Machine.execVdeq vd vs1 code s
  | .vfcvti vd vs1 m => Sys2Proof.Machine.execVfcvti vd vs1 m s
  | .vicvtf vd vs1 m => Sys2Proof.Machine.execVicvtf vd vs1 m s
  | .vexp2 vd vs1 m => Sys2Proof.Machine.execVexp2 vd vs1 m s
  | .vlog2 vd vs1 m => Sys2Proof.Machine.execVlog2 vd vs1 m s
  | .vrcp vd vs1 m => Sys2Proof.Machine.execVrcp vd vs1 m s
  | .vrsqrt vd vs1 m => Sys2Proof.Machine.execVrsqrt vd vs1 m s
  | .vtanh vd vs1 m => Sys2Proof.Machine.execVtanh vd vs1 m s
  | .vredsum rd vs1 m => Sys2Proof.Machine.execVredsum rd vs1 m s
  | .vfredsum rd vs1 m => Sys2Proof.Machine.execVfredsum rd vs1 m s
  | .vredmax rd vs1 m => Sys2Proof.Machine.execVredmax rd vs1 m s
  | .vfredmax rd vs1 m => Sys2Proof.Machine.execVfredmax rd vs1 m s
  | .vfredamax rd vs1 m => Sys2Proof.Machine.execVfredamax rd vs1 m s
  | .vslideup vd vs1 rs2 m => Sys2Proof.Machine.execVslideup vd vs1 rs2 m s
  | .vslidedown vd vs1 rs2 m => Sys2Proof.Machine.execVslidedown vd vs1 rs2 m s
  | .vgather vd vs1 vs2 m => Sys2Proof.Machine.execVgather vd vs1 vs2 m s
  | .vbcast vd rs1 m => Sys2Proof.Machine.execVbcast vd rs1 m s
  | .vext rd vs1 rs2 => Sys2Proof.Machine.execVext rd vs1 rs2 s
  | .vcompress vd vs1 ms2 => Sys2Proof.Machine.execVcompress vd vs1 ms2 s
  | .vmand md ms1 ms2 => Sys2Proof.Machine.execVmand md ms1 ms2 s
  | .vmor md ms1 ms2 => Sys2Proof.Machine.execVmor md ms1 ms2 s
  | .vmnot md ms1 => Sys2Proof.Machine.execVmnot md ms1 s
  | .vmpop rd ms1 => Sys2Proof.Machine.execVmpop rd ms1 s
  | .vmfirst rd ms1 => Sys2Proof.Machine.execVmfirst rd ms1 s
  | .vmerge vd vs1 vs2 m => Sys2Proof.Machine.execVmerge vd vs1 vs2 m s
  | .vcfg rd rs1 => Sys2Proof.Machine.execVcfg rd rs1 s

end Sys2Proof.Machine
end

