-- ==== Sys2Proof/Machine/Step.lean ====
section
/-! DEFINITION. One step of the machine: the first thing that is due happens. -/

namespace Sys2Proof.Machine

/-- One step (R69, R73; log 2): the head of the agenda is taken and its cycle becomes the current one. An event happens; a slot whose
issue cycle it is executes the instruction at its pc; an uncorrectable error poisons what it strikes (R345); a restored wait is named
(R230). -/
noncomputable def step (s : State) : Host.Outcome State Fault Refusal :=
  match s.agenda with
  | [] => .fault .idle
  | d :: rest =>
    let s := { s with
      cycle := max s.cycle d.cycle
      agenda := rest }
    match d.act with
    | .event e => exec e s
    | .upset u => .next (s.upset u)
    | .retest c i =>
      match s.retest c i with
      | (none, s) => .next s
      | (some instr, u) => .next (s.retested c i (exec instr u))
    | .issue c i =>
      match s.turn c i with
      | (none, s) => .next s
      | (some instr, s) => exec instr s

/-- The state with an instruction word stored where the slot that is due next fetches, its fetch buffer emptied so that the
fetch reads the word (R9, R44). The table's words are 32 bits long, so the bits above `nbits` are zero. -/
def State.withFetchWord (s : State) (nbits w : Nat) : State :=
  match s.agenda with
  | { act := .issue c i, .. } :: _ =>
    (s.modCore c fun k => { k with spad := k.spad.writeAll (k.slot i).pc.toNat (leBytes 4 (w % 2 ^ nbits)) }).modSlot c i
      fun t => { t with fetch := none }
  | _ => s

end Sys2Proof.Machine
end

