-- ==== Sys2Proof/Safety.lean ====
section
/-! DEFINITION. What counts as a safe run, and the words in which claims about single steps are stated. -/

namespace Sys2Proof.Machine

/-- The machine goes on: a step answers a next state. -/
def State.Goes (s : State) : Prop := ∃ t, step s = .next t

/-- A state that steps reach from another one. -/
inductive Reaches (s : State) : State → Prop where
  | refl : Reaches s s
  | step {t u : State} (h : Reaches s t) (hs : Machine.step t = .next u) : Reaches s u

/-- A run from a state is safe for a property: every state it reaches has it. -/
def SafeFor (P : State → Prop) (s : State) : Prop := ∀ t, Reaches s t → P t

/-! ### Conditions on a state -/

/-- The slot whose instruction executes is one of the sixteen of its core (R69). -/
abbrev State.Running (s : State) : Prop := s.curSlot < 16

/-- An instruction may read a register (R48): it is FULL. -/
abbrev State.Full (s : State) (r : RegRef) : Prop := (s.regState r).fe = .full

/-- An instruction may write a register (R49): no producer of it is outstanding. -/
abbrev State.Free (s : State) (r : RegRef) : Prop := (s.regState r).prod = none

/-- Nothing holds an access of the issuing slot (R41, R59, R110): no fence, no `aq`, no receive. -/
abbrev State.Unheld (s : State) : Prop := s.me.fence = none ∧ s.me.aqs = [] ∧ s.me.recvs = []

/-! ### What changed -/

/-- Two states agree on everything but one slot: the rest of that slot's core (its scratchpad, counters, accumulators, queues), every
other slot of it, every other core, and the rest of the machine (global memory, dies, links, the agenda). -/
structure SameBut (s t : State) (core slot : Nat) : Prop where
  machine : { t with cores := s.cores } = s
  cores : ∀ c, { t.core c with slots := (s.core c).slots } = s.core c
  others : ∀ c i, (c ≠ core ∨ i ≠ slot) → t.slot c i = s.slot c i

/-- A slot without its pc and what its waiting changes: its state, with whether that has been ended, its wait, its block sequence number and its
marks (R231). -/
def Slot.still (t : Slot) : Slot := { t with pc := 0, st := .ready, leaving := false, wait := none, issued := none, bseq := 0, marks := [] }

/-- The issuing slot of `m` completes its instruction and goes on at `pc`, in `t`: its slot is otherwise as `q`, and all else is as in
`m`. A slot that was not waiting keeps its state, its block sequence number and its marks. -/
structure Goes (m t : State) (q : Slot) (pc : Word) : Prop where
  frame : SameBut m t m.curCore m.curSlot
  pc : t.me.pc = pc
  wait : t.me.wait = none
  rest : t.me.still = q.still
  idle : m.me.wait = none → t.me.st = m.me.st ∧ t.me.bseq = m.me.bseq ∧ t.me.marks = m.me.marks

/-- An instruction answers a next state in which the issuing slot has gone on to the next instruction, its registers as `q` and all else
as in `m`. -/
def Completes (i : Instr) (s m : State) (q : Slot) : Prop := ∃ t, exec i s = .next t ∧ Goes m t q (s.me.pc + 4)

/-- An instruction writes one x register of the issuing slot, FULL, and goes on; nothing else changes, memory included. -/
def WritesX (i : Instr) (s : State) (rd : BitVec 5) (v : Word) : Prop := Completes i s s (s.me.setX rd v)

/-- An instruction leaves the issuing slot BLOCKED at it on a wait of a kind (R72): its registers, its pc and all else are as before, but
for the number its wait takes and what becomes due. -/
structure Waits (s t : State) (k : WaitKind) : Prop where
  st : t.me.st = .blocked
  kind : t.me.waitKind = some k
  pc : t.me.pc = s.me.pc
  rest : t.me.still = s.me.still
  machine : { t with
    cores := s.cores
    agenda := s.agenda
    nextId := s.nextId } = s
  cores : ∀ c, { t.core c with slots := (s.core c).slots } = s.core c
  others : ∀ c i, (c ≠ s.curCore ∨ i ≠ s.curSlot) → t.slot c i = s.slot c i

/-- A slot other than the service slot takes a trap (R336, R341): it is FAULTED at the trapping instruction, its reservation is gone, its
record stands last in its core's trap queue, or waits with the slot while that holds 16, and a record posted wakes slot 15. Its
registers, their states, its CSRs and its pc are as before, and so are all memory and every other part of the machine. -/
structure Faults (s t : State) (cause : Nat) (word : BitVec 32) (tval extra : Word) : Prop where
  st : t.me.st = .faulted
  resv : t.me.resv = none
  pc : t.me.pc = s.me.pc
  rest : { t.me with
    resv := s.me.resv
    pendTrap := s.me.pendTrap }.still = s.me.still
  posted :
    let r : TrapRec := { slot := s.curSlot, mode := s.me.mode, tgt := !(decide (s.me.mode ≠ .m) && bitAt (s.slot s.curCore 15).c.medeleg cause),
                         cause := cause, word := word, pc := s.me.pc, tval := tval, extra := extra }
    if s.here.trapq.length < 16 then
      t.here.trapq = s.here.trapq ++ [r] ∧ t.me.pendTrap = none ∧ t.slot s.curCore 15 = (s.slot s.curCore 15).woken s.cycle
    else t.here.trapq = s.here.trapq ∧ t.me.pendTrap = some r ∧ t.slot s.curCore 15 = s.slot s.curCore 15
  machine : { t with cores := s.cores } = s
  cores : ∀ c, { t.core c with
    slots := (s.core c).slots
    trapq := (s.core c).trapq } = s.core c
  others : ∀ c i, (c ≠ s.curCore ∨ (i ≠ s.curSlot ∧ i ≠ 15)) → t.slot c i = s.slot c i

/-- The service slot takes a trap to a mode (R342): it goes on at the mode's vector, in that mode, with its pc, the cause and tval in the mode's
registers and its status as `status`; its reservation is gone; nothing else changes. -/
structure Enters (s t : State) (mode : Mode) (vector : Word) (c : Csrs) : Prop where
  frame : SameBut s t s.curCore s.curSlot
  pc : t.me.pc = vector
  wait : t.me.wait = none
  rest : t.me.still = { s.me with
    mode := mode
    resv := none
    c := c }.still

/-- Every byte of global memory and of every scratchpad reads as before. -/
def SameMemory (s t : State) : Prop :=
  (∀ a, t.mem.read a = s.mem.read a) ∧ ∀ c a, (t.core c).spad.read a = (s.core c).spad.read a

end Sys2Proof.Machine
end

