-- ==== Sys2Proof/Certificates/Slice0/Obligations.lean ====
section
/-! DEFINITION. The statements for the provers. Each docstring names the rules of spec/ it comes from. -/

namespace Sys2Proof.Claims
end Sys2Proof.Claims

open Sys2Proof Sys2Proof.Machine Sys2Proof.Claims

/-! ### Integer instructions -/

/-- An instruction with two source registers and one destination, and what it computes. -/
abbrev Sys2Proof.Claims.RegisterOp := (BitVec 5 → BitVec 5 → BitVec 5 → Instr) × (Word → Word → Word)

/-- An operation on the low halves of two words, its result sign-extended. -/
def Sys2Proof.Claims.lowHalf (f : BitVec 32 → BitVec 32 → BitVec 32) (a b : Word) : Word := (f (a.setWidth 32) (b.setWidth 32)).signExtend 64

/-- The instructions of the OP opcode but for multiplication and division, as RV64I defines them (R16). -/
def Sys2Proof.Claims.baseOps : List RegisterOp :=
  [(.add, fun a b => a + b), (.sub, fun a b => a - b), (.sll, fun a b => a <<< (b.toNat % 64)),
   (.slt, fun a b => if a.slt b then 1 else 0), (.sltu, fun a b => if a.ult b then 1 else 0), (.xor, fun a b => a ^^^ b),
   (.srl, fun a b => a >>> (b.toNat % 64)), (.sra, fun a b => a.sshiftRight (b.toNat % 64)), (.or, fun a b => a ||| b),
   (.and, fun a b => a &&& b)]

/-- The instructions of the OP-32 opcode but for multiplication and division, as RV64I defines them (R16). -/
def Sys2Proof.Claims.baseOpsW : List RegisterOp :=
  [(.addw, lowHalf fun a b => a + b), (.subw, lowHalf fun a b => a - b), (.sllw, fun a b => lowHalf (fun x y => x <<< (y.toNat % 32)) a b),
   (.srlw, lowHalf fun x y => x >>> (y.toNat % 32)), (.sraw, lowHalf fun x y => x.sshiftRight (y.toNat % 32))]

/-- Multiplication and division, as the M extension defines them: a zero divisor gives all ones and the dividend, the signed overflow
the dividend and 0 (R16). -/
def Sys2Proof.Claims.multiplyDivideOps : List RegisterOp :=
  [(.mul, fun a b => a * b), (.mulh, fun a b => ((a.signExtend 128 * b.signExtend 128) >>> 64).setWidth 64),
   (.mulhsu, fun a b => ((a.signExtend 128 * b.setWidth 128) >>> 64).setWidth 64),
   (.mulhu, fun a b => ((a.setWidth 128 * b.setWidth 128) >>> 64).setWidth 64),
   (.div, fun a b => if b = 0 then BitVec.allOnes 64 else a.sdiv b), (.divu, fun a b => if b = 0 then BitVec.allOnes 64 else a.udiv b),
   (.rem, fun a b => if b = 0 then a else a.srem b), (.remu, fun a b => if b = 0 then a else a.umod b),
   (.mulw, lowHalf fun a b => a * b), (.divw, lowHalf fun a b => if b = 0 then BitVec.allOnes 32 else a.sdiv b),
   (.divuw, lowHalf fun a b => if b = 0 then BitVec.allOnes 32 else a.udiv b),
   (.remw, lowHalf fun a b => if b = 0 then a else a.srem b), (.remuw, lowHalf fun a b => if b = 0 then a else a.umod b)]

/-- Instructions with one source register and a 12-bit immediate, and what they compute from the register and the immediate
sign-extended (R11, R16). -/
def Sys2Proof.Claims.immediateOps : List ((BitVec 5 → BitVec 5 → BitVec 12 → Instr) × (Word → Word → Word)) :=
  [(.addi, fun a b => a + b), (.slti, fun a b => if a.slt b then 1 else 0), (.sltiu, fun a b => if a.ult b then 1 else 0),
   (.xori, fun a b => a ^^^ b), (.ori, fun a b => a ||| b), (.andi, fun a b => a &&& b), (.addiw, lowHalf fun a b => a + b)]

/-- Shifts by a 6-bit immediate (R16). -/
def Sys2Proof.Claims.shiftOps : List ((BitVec 5 → BitVec 5 → BitVec 6 → Instr) × (Word → Nat → Word)) :=
  [(.slli, fun a n => a <<< n), (.srli, fun a n => a >>> n), (.srai, fun a n => a.sshiftRight n)]

/-- Shifts of the low 32 bits by a 5-bit immediate (R16). -/
def Sys2Proof.Claims.shiftOpsW : List ((BitVec 5 → BitVec 5 → BitVec 5 → Instr) × (BitVec 32 → Nat → BitVec 32)) :=
  [(.slliw, fun a n => a <<< n), (.srliw, fun a n => a >>> n), (.sraiw, fun a n => a.sshiftRight n)]

/-- R16: the multiplications and divisions MUL, MULH, MULHSU, MULHU, DIV, DIVU, REM, REMU, MULW, DIVW, DIVUW, REMW and REMUW give the products'
halves, quotients and remainders of RV64M, for every operand, zero divisors and the signed overflow among them. R16, R48, R49: the base integer instructions ADD, SUB, SLL, SLT, SLTU, XOR, SRL, SRA, OR, AND, ADDW, SUBW, SLLW, SRLW and SRAW complete
whenever their sources are FULL and their destination waits for no producer: the destination takes the result, FULL, the pc moves on by 4, and
nothing else changes. R11, R16: ADDI, SLTI, SLTIU, XORI, ORI, ANDI, ADDIW, SLLI, SRLI, SRAI, SLLIW, SRLIW and SRAIW complete whenever their source is FULL and
their destination waits for no producer, and LUI and AUIPC whenever their destination does; each writes its result and changes
nothing else. -/
def Obligations.IntegerInstructionResults : Prop :=
  (∀ p ∈ multiplyDivideOps, ∀ (rd rs1 rs2 : BitVec 5) (s : State), s.Running → s.Full (.x rs1) → s.Full (.x rs2) → s.Free (.x rd) →
     WritesX (p.1 rd rs1 rs2) s rd (p.2 (s.x rs1) (s.x rs2))) ∧
  ((∀ p ∈ baseOps ++ baseOpsW, ∀ (rd rs1 rs2 : BitVec 5) (s : State), s.Running → s.Full (.x rs1) → s.Full (.x rs2) → s.Free (.x rd) →
      WritesX (p.1 rd rs1 rs2) s rd (p.2 (s.x rs1) (s.x rs2))) ∧
   (∀ (rd rs1 : BitVec 5) (s : State), s.Running → s.Free (.x rd) →
      (s.Full (.x rs1) →
        (∀ p ∈ immediateOps, ∀ imm, WritesX (p.1 rd rs1 imm) s rd (p.2 (s.x rs1) (imm.signExtend 64))) ∧
        (∀ p ∈ shiftOps, ∀ sh, WritesX (p.1 rd rs1 sh) s rd (p.2 (s.x rs1) sh.toNat)) ∧
        (∀ p ∈ shiftOpsW, ∀ sh, WritesX (p.1 rd rs1 sh) s rd ((p.2 ((s.x rs1).setWidth 32) sh.toNat).signExtend 64))) ∧
      (∀ imm, WritesX (.lui rd imm) s rd ((imm ++ 0#12).signExtend 64)) ∧
      (∀ imm, WritesX (.auipc rd imm) s rd (s.me.pc + (imm ++ 0#12).signExtend 64))))

/-- R47, R75: a written x register reads as the value written and is FULL, and every other one is as before; a write of x0 is discarded, x0
reads 0 and is FULL. -/
def Obligations.RegisterWriteReadsBack : Prop :=
  ∀ (t : Slot) (r q : BitVec 5) (v : Word),
    (t.setX r v).getX q = (if q = r ∧ r ≠ 0 then v else t.getX q) ∧
    (t.setX r v).xState q = (if q = r then RegSt.full else t.xState q) ∧
    t.setX 0 v = t ∧ t.getX 0 = 0 ∧ t.xState 0 = RegSt.full ∧
    (t.setX r v).v = t.v ∧ (t.setX r v).m = t.m ∧ (t.setX r v).u = t.u ∧ (t.setX r v).c = t.c

/-- R48, R49: an instruction that reads registers traps with cause 24 at a POISONED one, whatever the others; without one it traps with cause 25 at
an EMPTY one whose `wfetrap` bit is set; without such a one it is BLOCKED at its EMPTY ones. Shown of ADD: tval holds the register's number, and
rs1 is named first. With its sources FULL it waits for a producer of its destination. -/
def Obligations.SourceStatesAreTested : Prop :=
  ∀ (rd rs1 rs2 : BitVec 5) (s : State), s.Running →
    let st := fun r : BitVec 5 => (s.me.xState r).fe
    let armed := fun r : BitVec 5 => s.me.u.wfetrap.getLsbD r.toNat
    (st rs1 = .poisoned → exec (.add rd rs1 rs2) s = .next (s.trap 24 (rs1.setWidth 64))) ∧
    (st rs1 ≠ .poisoned → st rs2 = .poisoned → exec (.add rd rs1 rs2) s = .next (s.trap 24 (rs2.setWidth 64))) ∧
    (st rs1 = .empty → st rs2 ≠ .poisoned → armed rs1 = true → exec (.add rd rs1 rs2) s = .next (s.trap 25 (rs1.setWidth 64))) ∧
    (st rs1 = .full ∨ (st rs1 = .empty ∧ armed rs1 = false) → st rs2 = .empty → armed rs2 = true →
      exec (.add rd rs1 rs2) s = .next (s.trap 25 (rs2.setWidth 64))) ∧
    (st rs1 = .empty → armed rs1 = false → st rs2 = .full → ∃ t, exec (.add rd rs1 rs2) s = .next t ∧ Waits s t (.source (.x rs1) [] (some (.x rd)))) ∧
    (st rs1 = .empty → armed rs1 = false → st rs2 = .empty → armed rs2 = false →
      ∃ t, exec (.add rd rs1 rs2) s = .next t ∧ Waits s t (.source (.x rs1) [.x rs2] (some (.x rd)))) ∧
    (st rs1 = .full → st rs2 = .empty → armed rs2 = false → ∃ t, exec (.add rd rs1 rs2) s = .next t ∧ Waits s t (.source (.x rs2) [] (some (.x rd)))) ∧
    (st rs1 = .full → st rs2 = .full → ¬ s.Free (.x rd) → ∃ t, exec (.add rd rs1 rs2) s = .next t ∧ Waits s t (.dest (.x rd) none))

/-! ### Control flow -/

/-- The conditional branches and their conditions (R9, R16). -/
def Sys2Proof.Claims.branchOps : List ((BitVec 5 → BitVec 5 → BitVec 12 → Instr) × (Word → Word → Bool)) :=
  [(.beq, fun a b => a == b), (.bne, fun a b => a != b), (.blt, fun a b => a.slt b), (.bge, fun a b => !a.slt b), (.bltu, fun a b => a.ult b),
   (.bgeu, fun a b => !a.ult b)]

/-- R9: BEQ, BNE, BLT, BGE, BLTU and BGEU read both sources; a branch not taken goes on at the next instruction; a taken one at its target, or,
where that is not a multiple of 4, it traps with cause 1 and tval the target. Nothing else changes. R9: JAL and JALR write the address of the next instruction and go on at the target, of which JALR clears bit 0; a target that is not a
multiple of 4 traps with cause 1 and tval the target, and the link register is not written. -/
def Obligations.BranchAndJumpResults : Prop :=
  (∀ p ∈ branchOps, ∀ (rs1 rs2 : BitVec 5) (imm : BitVec 12) (s : State), s.Running → s.Full (.x rs1) → s.Full (.x rs2) →
     let target := s.me.pc + (imm ++ 0#1).signExtend 64
     (p.2 (s.x rs1) (s.x rs2) = false → Completes (p.1 rs1 rs2 imm) s s s.me) ∧
     (p.2 (s.x rs1) (s.x rs2) = true → target.toNat % 4 = 0 → ∃ t, exec (p.1 rs1 rs2 imm) s = .next t ∧ Goes s t s.me target) ∧
     (p.2 (s.x rs1) (s.x rs2) = true → target.toNat % 4 ≠ 0 → exec (p.1 rs1 rs2 imm) s = .next (s.trap 1 target))) ∧
  (∀ (rd rs1 : BitVec 5) (s : State), s.Running → s.Free (.x rd) →
     (∀ imm : BitVec 20,
       let target := s.me.pc + (imm ++ 0#1).signExtend 64
       (target.toNat % 4 = 0 → ∃ t, exec (.jal rd imm) s = .next t ∧ Goes s t (s.me.setX rd (s.me.pc + 4)) target) ∧
       (target.toNat % 4 ≠ 0 → exec (.jal rd imm) s = .next (s.trap 1 target))) ∧
     (s.Full (.x rs1) → ∀ imm : BitVec 12,
       let target := (s.x rs1 + imm.signExtend 64) &&& ~~~(1#64)
       (target.toNat % 4 = 0 → ∃ t, exec (.jalr rd rs1 imm) s = .next t ∧ Goes s t (s.me.setX rd (s.me.pc + 4)) target) ∧
       (target.toNat % 4 ≠ 0 → exec (.jalr rd rs1 imm) s = .next (s.trap 1 target))))

/-! ### Traps and returns -/

/-- The causes of an environment call by mode (R45, R338). -/
def Sys2Proof.Claims.callCause : Mode → Nat
  | .u => 8
  | .s => 9
  | .m => 11

/-- A field of bits of a status word is copied to another place and then replaced: what taking a trap and returning from one do to the IE and PIE
bits. -/
def Sys2Proof.Claims.entryStatus (status : Word) (ie pie pp ppLen mode : Nat) : Word :=
  setField (setField (setField status pie 1 (field status ie 1)) ie 1 0) pp ppLen mode

/-- R45, R336, R337, R339, R341: on slots 0 to 14, ECALL takes cause 8, 9 or 11 by its mode and EBREAK cause 3, with tval 0; a word that is no
instruction takes cause 2 with the word as the record's word and as tval (R25). Nothing of the slot changes but its state and its reservation. R342: the service slot takes ECALL, EBREAK and an illegal word to M-mode while MIE is 1, with mepc, mcause and mtval written, MIE copied to MPIE
and cleared, MPP the mode it was in, and the pc at mtvec; from S-mode, with its medeleg bit for the cause and SIE set, to S-mode, in the same way
through sepc, scause, stval and stvec. R342, R343: each of these traps of the service slot to M-mode while MIE is 0, from whatever mode, halts its
core: the core is HALTED, no register, pc or CSR of the slot changes, and from then on no slot of the core executes an instruction. -/
def Obligations.TrapsOfEverySlot : Prop :=
  (∀ s : State, s.curSlot < 15 →
     (∃ t, exec .ecall s = .next t ∧ Faults s t (callCause s.me.mode) s.curWord 0 0) ∧
     (∃ t, exec .ebreak s = .next t ∧ Faults s t 3 s.curWord 0 0) ∧
     (∀ w, let s' := { s with curWord := w }
       ∃ t, exec (.illegalInstruction w) s = .next t ∧ Faults s' t 2 w (w.setWidth 64) 0)) ∧
  ((∀ s : State, s.curSlot = 15 →
      ∀ (w : BitVec 32), ∀ p ∈ [(Instr.ecall, callCause s.me.mode, (0 : Word), s), (.ebreak, 3, 0, s),
          (.illegalInstruction w, 2, w.setWidth 64, { s with curWord := w })],
        let c := s.me.c
        let toS : Prop := s.me.mode = .s ∧ c.medeleg.getLsbD p.2.1 = true ∧ c.mstatus.getLsbD 1 = true
        (toS → ∃ t, exec p.1 s = .next t ∧ Enters p.2.2.2 t .s c.stvec { c with
          mstatus := entryStatus c.mstatus 1 5 8 1 1
          sepc := s.me.pc
          scause := BitVec.ofNat 64 p.2.1
          stval := p.2.2.1 }) ∧
        (¬ toS → c.mstatus.getLsbD 3 = true → ∃ t, exec p.1 s = .next t ∧ Enters p.2.2.2 t .m c.mtvec { c with
          mstatus := entryStatus c.mstatus 3 7 11 2 (match s.me.mode with | .u => 0 | .s => 1 | .m => 3)
          mepc := s.me.pc
          mcause := BitVec.ofNat 64 p.2.1
          mtval := p.2.2.1 }) ∧
        (¬ toS → c.mstatus.getLsbD 3 = false → ∃ t, exec p.1 s = .next t ∧ t.halted s.curCore = true ∧ t.me = s.me ∧ t.here.spad = s.here.spad ∧
          t.mem = s.mem)) ∧
   (∀ (s : State) (c i : Nat), s.halted c = true → s.turn c i = (none, s)))

/-- R45: MRET in M-mode and SRET in M-mode, or in S-mode while TSR is 0, go on at mepc or sepc in the mode that MPP or SPP names, with IE restored
from PIE, PIE set and MPP or SPP cleared to U; MPRV is cleared where the mode is not M. In any other mode they are illegal instructions. -/
def Obligations.TrapReturns : Prop :=
  ∀ s : State, s.Running →
    let c := s.me.c
    let m := c.mstatus
    let restored := fun ie pie pp ppLen => setField (setField (setField m ie 1 (field m pie 1)) pie 1 1) pp ppLen 0
    let toM := if field m 11 2 = 3 then Mode.m else if field m 11 2 = 1 then .s else .u
    (s.me.mode = .m → ∃ t, exec .mret s = .next t ∧ Goes s t { s.me with
      mode := toM
      c := { c with mstatus := if toM = .m then restored 3 7 11 2 else setField (restored 3 7 11 2) 17 1 0 } } c.mepc) ∧
    (s.me.mode = .m ∨ (s.me.mode = .s ∧ m.getLsbD 22 = false) → ∃ t, exec .sret s = .next t ∧ Goes s t { s.me with
      mode := if m.getLsbD 8 then .s else .u
      c := { c with mstatus := setField (restored 1 5 8 1) 17 1 0 } } c.sepc) ∧
    (s.me.mode ≠ .m → exec .mret s = .next s.illegal) ∧
    (s.me.mode = .u ∨ (s.me.mode = .s ∧ m.getLsbD 22 = true) → exec .sret s = .next s.illegal)

/-! ### CSRs -/

/-- Whether the issuing slot may access a CSR (R26, R27, R46): a listed number, a mode that reaches it, no write of a read-only one, misa among
them, and satp not from S-mode under TVM. -/
def Sys2Proof.Claims.csrAllowed (s : State) (n : Nat) (writes : Bool) : Prop :=
  (s.csrRead n).isSome ∧ (n / 256 % 4 = 0 ∨ (n / 256 % 4 = 1 ∧ s.me.mode ≠ .u) ∨ s.me.mode = .m) ∧ ¬ (writes ∧ (n / 1024 = 3 ∨ n = 0x301)) ∧
    ¬ (n = 0x180 ∧ s.me.mode = .s ∧ s.me.c.mstatus.getLsbD 20)

/-- The CSRs of which a write does more than store into the slot: `wtrapq`, `wwindata`, `wasid`, `wdmap` and `wgdata`. -/
def Sys2Proof.Claims.sharedCsrs : List Nat := [0x5C0, 0x5C2, 0x5C3, 0x5C4, 0x7C1]

/-- R27: CSRRW, CSRRS, CSRRC, CSRRWI, CSRRSI and CSRRCI on an allowed CSR of the slot give the destination the value read before the write and
store the operand, the old value with the operand's bits set, or with them cleared; the set and clear forms with x0 or a zero immediate
write nothing; nothing else changes. R27: a CSR instruction on a CSR that it may not access is an illegal instruction, whatever its registers hold. -/
def Obligations.CsrInstructionResults : Prop :=
  (∀ (rd rs1 : BitVec 5) (csr : BitVec 12) (s : State), s.Running → s.Free (.x rd) → csr.toNat ∉ sharedCsrs →
     let n := csr.toNat
     let old := (s.csrRead n).getD 0
     let stores := fun i v => Completes i s s ({ s.me with
       u := s.me.u.write n v
       c := s.me.c.write n v }.setX rd old)
     let z : Word := rs1.setWidth 64
     (csrAllowed s n true →
       (s.Full (.x rs1) → stores (.csrrw rd rs1 csr) (s.x rs1)) ∧ stores (.csrrwi rd rs1 csr) z ∧
       (rs1 ≠ 0 → (s.Full (.x rs1) → stores (.csrrs rd rs1 csr) (old ||| s.x rs1) ∧ stores (.csrrc rd rs1 csr) (old &&& ~~~s.x rs1)) ∧
         stores (.csrrsi rd rs1 csr) (old ||| z) ∧ stores (.csrrci rd rs1 csr) (old &&& ~~~z))) ∧
     (csrAllowed s n false → ∀ i ∈ [Instr.csrrs rd 0 csr, .csrrc rd 0 csr, .csrrsi rd 0 csr, .csrrci rd 0 csr], WritesX i s rd old)) ∧
  (∀ (rd rs1 : BitVec 5) (csr : BitVec 12) (s : State),
     (¬ csrAllowed s csr.toNat true → exec (.csrrw rd rs1 csr) s = .next s.illegal ∧ exec (.csrrwi rd rs1 csr) s = .next s.illegal ∧
       (rs1 ≠ 0 → ∀ i ∈ [Instr.csrrs rd rs1 csr, .csrrc rd rs1 csr, .csrrsi rd rs1 csr, .csrrci rd rs1 csr], exec i s = .next s.illegal)) ∧
     (¬ csrAllowed s csr.toNat false →
       ∀ i ∈ [Instr.csrrs rd 0 csr, .csrrc rd 0 csr, .csrrsi rd 0 csr, .csrrci rd 0 csr], exec i s = .next s.illegal))

/-- CSRs of the slot and what they hold after a write of `new` over `old`: their fields, with a reserved value of a field ignored (R46, R52, R53,
R80, R113, R144, R242, R243, R270 to R272, R315, R409). -/
def Sys2Proof.Claims.storedFields : List (Nat × (Word → Word → Word)) :=
  [(0x800, fun _ v => v &&& 0x800000FFFFFFFFFF#64), (0x801, fun _ v => v &&& 0x00FFFFFFFFFFFFFE#64),
   (0x803, fun _ v => v &&& 0x3F#64), (0x805, fun _ v => v &&& 0xFFFFFF#64), (0x806, fun _ v => v),
   (0x807, fun _ v => v &&& 0x0000FFF0FFC0FFC0#64), (0x5C1, fun _ v => v &&& 7#64), (0x5C5, fun _ v => v &&& 0xE1FF01FFE1FF01FF#64),
   (0x7C0, fun _ v => v &&& 0x3FFFFF8#64), (0x302, fun _ v => v &&& 0x1FF00ABFE#64), (0x305, fun _ v => v &&& ~~~3#64),
   (0x340, fun _ v => v), (0x341, fun _ v => v &&& ~~~3#64), (0x342, fun _ v => v), (0x343, fun _ v => v), (0x105, fun _ v => v &&& ~~~3#64),
   (0x140, fun _ v => v), (0x141, fun _ v => v &&& ~~~3#64), (0x142, fun _ v => v), (0x143, fun _ v => v),
   (0x802, fun old v => (v &&& 0x80#64) ||| ((if v &&& 0x18#64 = 0x18#64 then old else v) &&& 0x18#64) |||
      ((if v &&& 3#64 = 3#64 then old else v) &&& 3#64)),
   (0x804, fun old v => (v &&& 0xF#64) ||| ((if v &&& 0xF00#64 = 0 then old else v) &&& 0xF00#64)),
   (0x808, fun old v => (v &&& 0x7FF00#64) ||| ((if (v &&& 0xF#64).toNat < 5 then v else old) &&& 0xF#64)),
   (0x300, fun old v => (old &&& ~~~0x5E19AA#64) ||| (v &&& 0x5E01AA#64) ||| ((if v &&& 0x1800#64 = 0x1000#64 then old else v) &&& 0x1800#64)),
   (0x100, fun old v => (old &&& ~~~0xC0122#64) ||| (v &&& 0xC0122#64)),
   (0x180, fun old v => if v.toNat / 2 ^ 60 = 0 ∨ v.toNat / 2 ^ 60 = 9 then v &&& 0xF03FFFFFFFFFFFFF#64 else old)]

/-- R46, R52, R53, R80, R113, R144, R242, R243, R270 to R272, R315, R409: a write of a slot's CSR stores the fields of its map and reads zero
elsewhere, mstatus and sstatus keeping their other bits; satp ignores a MODE other than 0 and 9, and FK, SEW, SPREAD and the STATUS of wchst keep
their values where a reserved one is written; of the other CSRs of the list none changes, but that sstatus is a part of mstatus: a write of either
shows in both. The zero low bits of the trap vectors and saved pcs (log 20) and an MPP that keeps its value when 10 is written (log 18) are
the model's readings. -/
def Obligations.CsrWritesStoreTheirFields : Prop :=
  ∀ (s : State) (v : Word), s.Running → ∀ p ∈ storedFields,
    (s.csrWrite p.1 v).csrRead p.1 = (s.csrRead p.1).map (fun old => p.2 old v) ∧
    (∀ q ∈ storedFields, q.1 ≠ p.1 → ¬ (p.1 ∈ [0x100, 0x300] ∧ q.1 ∈ [0x100, 0x300]) → (s.csrWrite p.1 v).csrRead q.1 = s.csrRead q.1) ∧
    (s.csrWrite p.1 v).csrRead 0x100 = ((s.csrWrite p.1 v).csrRead 0x300).map (· &&& 0x3000C0122#64) ∧
    (s.csrWrite 0x100 v).csrRead 0x300 = (s.csrRead 0x300).map fun old => (old &&& ~~~0xC0122#64) ||| (v &&& 0xC0122#64)

/-! ### Slot control -/

/-- What a fence of a scope and two path masks does (R59). -/
def Sys2Proof.Claims.fenceEffect (scope : Scope) (pred succ : BitVec 5) (i : Instr) (s : State) : Prop :=
  let l := (s.me.accs.filter fun a => pred.getLsbD (match a.path with | .loc => 0 | .glb => 1 | .dep => 2 | .eng => 3 | .mx => 4)
    && a.scope.within scope).map (·.id)
  (s.me.fence ≠ none → ∃ t, exec i s = .next t ∧ Waits s t .unlimited) ∧
  (s.me.fence = none → l = [] → Completes i s s s.me) ∧
  (s.me.fence = none → l ≠ [] → Completes i s s { s.me with fence := some { awaited := l, succ := succ, scope := scope } })

/-- R44, R59: FENCE, as `pfence.domain loc|glb, loc|glb`, and PFENCE wait while the slot has a pending fence. Otherwise they complete at once: the
accesses of the slot on the predecessor paths within the scope that it does not know to be performed become a pending fence, which holds the
successor paths; with none there is no fence. FENCE.I discards the fetch buffer. -/
def Obligations.FencesCollectEarlierAccesses : Prop :=
  ∀ s : State, s.Running →
    (∀ (fm : Bool) (p q : BitVec 4), fenceEffect .domain 3 3 (.fence fm p q) s) ∧
    (∀ (scope : Scope) (pred succ : BitVec 5), fenceEffect scope pred succ (.pfence scope pred succ) s) ∧
    Completes .fenceI s s { s.me with fetch := none }

/-- R60: STOP is illegal on slot 15. On another slot it waits, with no limit, for the slot's fence, its GLB accesses, its `mma`s and its drains; then
the slot is STOPPED and holds no process, its token, `alt` entries, reservation and fence are cleared, its accumulators are released with their
contents kept, and no memory changes. -/
def Obligations.StopEndsTheProcess : Prop :=
  ∀ s : State,
    (s.curSlot = 15 → exec .stop s = .next s.illegal) ∧
    (s.curSlot < 15 →
      let waits : Prop := s.me.fence.isSome ∨ (∃ a ∈ s.me.accs, a.path = .glb) ∨ (∃ o ∈ s.here.tq, o.slot = s.curSlot) ∨
        (∃ r, s.here.trun = some r ∧ r.op.slot = s.curSlot) ∨ (∃ d ∈ s.here.drains, d.slot = s.curSlot ∧ d.left ≠ 0)
      (waits → ∃ t, exec .stop s = .next t ∧ Waits s t .unlimited) ∧
      (¬ waits → ∃ t, exec .stop s = .next t ∧ t.me.st = .stopped ∧ t.me.hold = false ∧ t.me.pid = none ∧ t.me.token = false ∧ t.me.resv = none ∧
        t.me.fence = none ∧ (∀ i, vecGet t.me.alt i none = none) ∧
        (∀ n, (t.here.getAcc n).owner ≠ some s.curSlot ∧ (t.here.getAcc n).words = (s.here.getAcc n).words) ∧ SameMemory s t))

/-- The operands of the full/empty instructions that need no ownership, and accumulators the slot owns (R61). -/
def Sys2Proof.Claims.mayName (s : State) : RegRef → Prop
  | .acc n => (s.here.getAcc n).owner = some s.curSlot
  | _ => True

/-- R61: on a register the slot may name, FE.EMPTY waits for an outstanding producer and then leaves the register EMPTY with its value kept;
FE.TEST writes 0, 1 or 2 for FULL, EMPTY or POISONED, with bit 2 set while a producer is outstanding; FE.WAIT completes at a FULL or POISONED
register and waits at an EMPTY one. An accumulator the slot does not own raises cause 28. -/
def Obligations.FullEmptyInstructions : Prop :=
  ∀ (reg : RegRef) (rd : BitVec 5) (s : State), s.Running →
    (mayName s reg →
      (s.Free reg → ∃ t, exec (.feEmpty reg) s = .next t ∧ (reg ≠ .x 0 → t.regState reg = { fe := .empty, prod := none }) ∧
        (∀ q, q ≠ reg → t.regState q = s.regState q) ∧ t.me.x = s.me.x ∧ t.me.v = s.me.v ∧ (∀ n, (t.here.getAcc n).words = (s.here.getAcc n).words) ∧
        t.me.pc = s.me.pc + 4 ∧ SameMemory s t) ∧
      (¬ s.Free reg → ∃ t, exec (.feEmpty reg) s = .next t ∧ Waits s t (.dest reg none)) ∧
      (s.Free (.x rd) → WritesX (.feTest rd reg) s rd (BitVec.ofNat 64 ((match (s.regState reg).fe with | .full => 0 | .empty => 1 | .poisoned => 2)
        + if (s.regState reg).prod.isSome then 4 else 0))) ∧
      ((s.regState reg).fe ≠ .empty → Completes (.feWait reg) s s s.me) ∧
      ((s.regState reg).fe = .empty → ∃ t, exec (.feWait reg) s = .next t ∧ Waits s t (.feWait reg))) ∧
    (∀ n, reg = .acc n → ¬ mayName s reg → ∀ i ∈ [Instr.feEmpty reg, .feTest rd reg, .feWait reg], exec i s = .next (s.trap 28 (n.setWidth 64)))

/-- R45, R56: PARK, and WFI in the same way, complete and clear the token where it is 1; otherwise the slot is PARKED at the instruction. R57: WAKE completes. From U-mode it does nothing to slot 15, and it does nothing to a slot other than 15 that holds no process. Otherwise a
PARKED slot goes on READY after its `park` and a slot that waits on a page is READY at its instruction, either from the next cycle on, and any other
slot, a held PARKED or the issuing one among them, gets its token; a slot that waits on a page and is held, or whose record pends on a full queue,
leaves that wait at its release or its record's posting. That the pc of a PARKED slot is its park's until it goes on (log 27), that a held PARKED
slot gets only its token (log 64) and the delayed end of the wait on a page (log 90) are the model's readings. No other slot, no register and no
memory changes. R43, R51: WRS.NTO and WRS.STO complete while the slot holds no reservation and wait otherwise, the wait keeping the cycle in which it began.
An issue cycle that still finds the reservation ends a waiting WRS.STO, in that very cycle, exactly when 1,024 cycles or more have passed since that
cycle, and either of them, whatever TRAP is, exactly when LIMIT of `wtmo` is not 0 and LIMIT cycles have: the event that ends it becomes due
there, and it completes. -/
def Obligations.ParkWakeAndReservationWaits : Prop :=
  (∀ s : State, s.Running → ∀ i ∈ [Instr.park, .wfi],
     (s.me.token = true → Completes i s s { s.me with token := false }) ∧
     (s.me.token = false → ∃ t, exec i s = .next t ∧ t.me.st = .parked ∧ t.me.waitKind = some .park ∧ t.me.pc = s.me.pc ∧
       t.me.still = s.me.still ∧ SameBut s { t with nextId := s.nextId } s.curCore s.curSlot)) ∧
  (∀ (rs1 : BitVec 5) (s : State), s.Running → s.Full (.x rs1) →
     let n := (s.x rs1).toNat % 16
     let q := s.slot s.curCore n
     let nothing : Prop := (s.me.mode = .u ∧ n = 15) ∨ (q.pid = none ∧ n ≠ 15)
     (nothing → Completes (.wake rs1) s s s.me) ∧
     (¬ nothing → n = s.curSlot → s.me.st = .ready → Completes (.wake rs1) s s { s.me with token := true }) ∧
     (¬ nothing → n ≠ s.curSlot → ∃ t, exec (.wake rs1) s = .next t ∧ { t with cores := s.cores } = s ∧
       (∀ c, { t.core c with slots := (s.core c).slots } = s.core c) ∧
       (∀ c i, (c ≠ s.curCore ∨ (i ≠ s.curSlot ∧ i ≠ n)) → t.slot c i = s.slot c i) ∧
       t.me.pc = s.me.pc + 4 ∧ t.me.still = s.me.still ∧
       let r := t.slot s.curCore n
       (q.st = .parked → q.hold = false → r.st = .ready ∧ r.pc = q.pc + 4 ∧ r.wait = none ∧
         r.still = { q with issueFrom := s.cycle + 1 }.still) ∧
       (q.st = .page → q.hold = false → q.pendFault = none → r = { q with
         st := .ready
         leaving := false
         issueFrom := s.cycle + 1 }) ∧
       (q.st = .page → q.hold = true ∨ q.pendFault ≠ none → r = { q with leaving := true }) ∧
       (q.st ≠ .page → q.hold = true ∨ q.st ≠ .parked → r = { q with token := true }))) ∧
  ((∀ s : State, s.Running →
     (s.me.resv = none → Completes .wrsNto s s s.me ∧ Completes .wrsSto s s s.me) ∧
     (s.me.resv ≠ none → (∃ t, exec .wrsNto s = .next t ∧ Waits s t .wrsNto) ∧ ∃ t, exec .wrsSto s = .next t ∧ Waits s t .wrsSto) ∧
     (s.me.resv ≠ none → ∀ p ∈ [(Instr.wrsNto, WaitKind.wrsNto), (.wrsSto, .wrsSto)],
       (s.me.wait = none → ∃ t, exec p.1 s = .next t ∧ t.me.wait.map (fun w => w.since) = some s.cycle) ∧
       (∀ w, s.me.wait = some w → w.kind = p.2 → s.me.hold = false →
         let newly := fun (t : State) (e : Instr) => ∃ d ∈ t.agenda, d ∉ s.agenda ∧ d.act = .event e ∧ d.cycle = s.cycle ∧ 2 < d.phase
         let sto := Instr.wrsStoTimeout s.curCore s.curSlot w.serial
         let lim := Instr.wtmoLimit s.curCore s.curSlot w.serial
         (∀ d ∈ s.agenda, d.act ≠ .event sto ∧ d.act ≠ .event lim) →
           ∃ t, exec p.1 s = .next t ∧ t.me.wait = some w ∧ (newly t sto ↔ p.2 = .wrsSto ∧ w.since + 1024 ≤ s.cycle) ∧
             (newly t lim ↔ s.me.limit ≠ 0 ∧ w.since + s.me.limit ≤ s.cycle)))) ∧
   (∀ (s : State) (c i : Nat) (w : Wait), i < 16 → (s.slot c i).wait = some w → (s.slot c i).hold = false →
     let done := fun t : State => SameBut s t c i ∧ (t.slot c i).pc = (s.slot c i).pc + 4 ∧ (t.slot c i).wait = none ∧
       (t.slot c i).still = (s.slot c i).still
     (w.kind = .wrsSto → ∃ t, exec (.wrsStoTimeout c i w.serial) s = .next t ∧ done t) ∧
     (w.kind = .wrsSto ∨ w.kind = .wrsNto → ∃ t, exec (.wtmoLimit c i w.serial) s = .next t ∧ done t)))

/-! ### The service slot's control of other slots -/

/-- R294, R296, R297: SSTOP, SRESUME, SKILL, SSAVE and SLOAD are illegal in U-mode. In S-mode and M-mode they answer 2 for slot 15 or the issuing
slot and 1 for a STOPPED slot; SRESUME, SSAVE and SLOAD answer 3 for a slot that is neither held nor FAULTED; SSAVE and SLOAD answer 4 for an area
that is not a multiple of 64 or not within the local alias. Nothing else changes. R296: from S-mode and M-mode, on another slot than 15 that holds a process: SSTOP answers 0 and sets HOLD, and clears the reservation, or leaves a
held slot as it is; SRESUME, from a slot that is not itself parked, on a held or FAULTED slot answers 0 and clears HOLD, and the slot, where no
record of it pends, is READY at its saved pc if it was FAULTED or if a wake that came under HOLD was for its wait on a page (the model's reading,
log 90); the token of a wake that came under HOLD ends a `park` then, the model's reading of R56 (log 64); SKILL answers 0, and the slot is STOPPED without HOLD and without a process. No memory changes. -/
def Obligations.SlotControlInstructions : Prop :=
  (∀ (rd rs1 rs2 : BitVec 5) (s : State), s.Running →
     let all := [Instr.sstop rd rs1, .sresume rd rs1, .skill rd rs1, .ssave rd rs1 rs2, .sload rd rs1 rs2]
     (s.me.mode = .u → ∀ i ∈ all, exec i s = .next s.illegal) ∧
     (s.me.mode ≠ .u → s.Full (.x rs1) → s.Full (.x rs2) → s.Free (.x rd) →
       let n := (s.x rs1).toNat % 16
       let q := s.slot s.curCore n
       (n = 15 ∨ n = s.curSlot → ∀ i ∈ all, WritesX i s rd 2) ∧
       (n ≠ 15 → n ≠ s.curSlot → q.st = .stopped → ∀ i ∈ all, WritesX i s rd 1) ∧
       (n ≠ 15 → n ≠ s.curSlot → q.st ≠ .stopped → q.st ≠ .faulted → q.hold = false →
         ∀ i ∈ [Instr.sresume rd rs1, .ssave rd rs1 rs2, .sload rd rs1 rs2], WritesX i s rd 3) ∧
       (n ≠ 15 → n ≠ s.curSlot → q.st ≠ .stopped → (q.st = .faulted ∨ q.hold = true) →
         ((s.x rs2).toNat % 64 ≠ 0 ∨ 0x200000 < (s.x rs2).toNat + 4096) → ∀ i ∈ [Instr.ssave rd rs1 rs2, .sload rd rs1 rs2], WritesX i s rd 4))) ∧
  (∀ (rd rs1 : BitVec 5) (s : State), s.Running → s.me.mode ≠ .u → s.Full (.x rs1) → s.Free (.x rd) →
     let n := (s.x rs1).toNat % 16
     let q := s.slot s.curCore n
     let did := fun (t : State) => t.x rd = 0 ∧ t.me.pc = s.me.pc + 4 ∧ SameMemory s t
     n ≠ 15 → n ≠ s.curSlot → q.st ≠ .stopped →
       (∃ t, exec (.sstop rd rs1) s = .next t ∧ did t ∧
         let r := t.slot s.curCore n
         r.hold = true ∧ r.st = q.st ∧ r.pc = q.pc ∧ r.x = q.x ∧ r.v = q.v ∧ (q.hold = true → r = q) ∧ (q.hold = false → r.resv = none)) ∧
       (s.me.st ≠ .parked → q.hold = true ∨ q.st = .faulted → ∃ t, exec (.sresume rd rs1) s = .next t ∧ did t ∧
         let r := t.slot s.curCore n
         let spent : Prop := q.st = .parked ∧ q.token = true
         r.hold = false ∧ r.pc = (if q.st = .parked ∧ q.token = true then q.pc + 4 else q.pc) ∧ r.x = q.x ∧ r.v = q.v ∧
         r.token = (q.token && decide (¬ spent)) ∧
         (q.pendTrap = none → q.pendFault = none → spent ∨ q.st = .faulted ∨ (q.st = .page ∧ q.leaving = true) → r.st = .ready)) ∧
       (∃ t, exec (.skill rd rs1) s = .next t ∧ did t ∧
         let r := t.slot s.curCore n
         r.st = .stopped ∧ r.hold = false ∧ r.pid = none ∧ r.token = false ∧ r.resv = none ∧ r.fence = none))

/-- A local access that has issued: its first attempts are due in the banks 4 cycles later, one for each 64-byte row, and the slot has gone on (R71,
R83). -/
structure Sys2Proof.Claims.Issued (s t : State) (op : LocalOp) (addr : Nat) (rows : List Nat) : Prop where
  access : t.me.mem = some { op := op, addr := addr, rows := rows, data := 0, poison := false }
  pc : t.me.pc = s.me.pc + 4
  rest : { t.me with mem := s.me.mem }.still = s.me.still
  bank : t.here.bank = s.here.bank ++ rows.map fun r => { cls := .slot, bank := r % 32, first := s.cycle + 4, act := .slotRow s.curSlot r }
  due : ∀ r ∈ rows, ∃ d ∈ t.agenda, d.act = .event (.bankGrant s.curCore) ∧ d.cycle = s.cycle + 4
  memory : SameMemory s t
  others : ∀ c i, (c ≠ s.curCore ∨ i ≠ s.curSlot) → t.slot c i = s.slot c i

/-- A window of a `wlocwin` value holds a page and has a permission (R80): bit 30 of a window's half is WRITE, bit 29 READ. -/
def Sys2Proof.Claims.inWindow (w : Word) (permission page : Nat) : Prop :=
  ∃ h ∈ [0, 32], field w h 9 ≤ page ∧ page ≤ field w (h + 16) 9 ∧ w.getLsbD (h + permission) = true

/-- R80, R82, R297, R334: from S-mode and M-mode, SSAVE and SLOAD of a held or FAULTED slot, at an area of the local alias that the issuing slot may
access (from S-mode through its windows), start 64 rows in the banks as a local access, SSAVE once nothing of the target is outstanding; they
wait, without limit, while the area meets a range of the Gleaner's scoreboard, and SSAVE while something of the target is outstanding. -/
def Obligations.SaveAndLoadMoveSixtyFourRows : Prop :=
  ∀ (rd rs1 rs2 : BitVec 5) (s : State), s.Running → s.me.mode ≠ .u → s.Full (.x rs1) → s.Full (.x rs2) → s.Free (.x rd) → s.Unheld →
    let n := (s.x rs1).toNat % 16
    let q := s.slot s.curCore n
    let a := (s.x rs2).toNat
    let rows := (List.range 64).map fun k => a / 64 + k
    let apart : Prop := ∀ l ∈ s.here.gl.lists, ∀ e ∈ l.inFlight, ∀ r ∈ e.ranges, r.1 + r.2 ≤ a ∨ a + 4096 ≤ r.1
    let may := fun permission => s.me.mode = .m ∨ ∀ page ∈ [a / 4096, (a + 4095) / 4096], inWindow s.me.u.wlocwin permission page
    n ≠ 15 → n ≠ s.curSlot → q.st ≠ .stopped → (q.hold = true ∨ q.st = .faulted) → a % 64 = 0 → a + 4096 ≤ 0x200000 →
      (s.curSlot = 15 ∨ a + 4096 ≤ 0x1E0000) →
      (may 30 →
        (s.saveWaits s.curCore n = false → apart → ∃ t, exec (.ssave rd rs1 rs2) s = .next t ∧
          Issued s t (.save rd (q.context s.here.sid n)) a rows) ∧
        (s.saveWaits s.curCore n = true ∨ ¬ apart → ∃ t, exec (.ssave rd rs1 rs2) s = .next t ∧ Waits s t .unlimited)) ∧
      (may 29 →
        (apart → ∃ t, exec (.sload rd rs1 rs2) s = .next t ∧ Issued s t (.restore rd n) a rows) ∧
        (¬ apart → ∃ t, exec (.sload rd rs1 rs2) s = .next t ∧ Waits s t .unlimited))

/-! ### Counters, wire barriers and group handles -/

/-- A value clamped to the 32 bits of a counter field (R104). -/
def Sys2Proof.Claims.clamp (n : Int) : BitVec 32 := BitVec.ofNat 32 (min n.toNat 0xFFFFFFFF)

/-- The status word of a counter (R104). -/
def Sys2Proof.Claims.statusOf (k : Counter) (tmo : Nat) : Word :=
  BitVec.ofNat 64 (k.value.toNat * 2 ^ 32 + tmo * 128 + k.strict.toNat * 64 + k.mode.toNat * 16 + k.cancel.toNat * 8 + k.loss.toNat * 4
    + k.ovr.toNat * 2 + if k.target.toNat ≤ k.value.toNat then 1 else 0)

/-- A counter after a raise by an amount other than zero (R104). -/
def Sys2Proof.Claims.raised (k : Counter) (d : Int) : Counter :=
  let v := clamp (k.value.toNat + d)
  { k with
    value := v
    ovr := k.ovr || (v.toNat : Int) != k.value.toNat + d || (k.strict && decide (k.value.toNat < v.toNat ∧ k.target.toNat < v.toNat)) }

/-- R104, R105: CNT.SET, CNT.ADD, CNT.MODE, CNT.RD and CNT.POLL complete with the effects of their table on the counter or on the destination;
VALUE and TARGET clamp to 32 bits, a clamped raise sets OVR, and so does one that rises above TARGET under STRICT; a CNT.MODE with mode 11
is ignored. That CNT.ADD compares with the new TARGET is the model's reading (log 19). R51, R106: CNT.WAIT on a counter with OVR traps with cause 27 and tval its number; one that is REACHED, or has LOSS or CANCEL, gives the
destination the status word; otherwise the slot waits. At the limit of `wtmo` a waiting CNT.WAIT completes with TMO in the status word while TRAP
is 0. -/
def Obligations.CounterInstructionsAndWaits : Prop :=
  (∀ (n : BitVec 6) (rs1 rd : BitVec 5) (s : State), s.Running → s.Full (.x rs1) → s.Free (.x rd) →
     let k := s.counter s.curCore n.toNat
     let v := s.x rs1
     let becomes := fun k' => s.modCounter s.curCore n.toNat fun _ => k'
     let added : Counter := { k with target := clamp (k.target.toNat + (v.extractLsb' 32 32).toInt) }
     Completes (.cntSet n rs1) s (becomes { k with
       value := v.setWidth 32
       target := v.extractLsb' 32 32
       ovr := false
       loss := false
       cancel := false }) s.me ∧
     Completes (.cntAdd n rs1) s (becomes (if v.setWidth 32 = 0#32 then added else raised added (v.setWidth 32).toInt)) s.me ∧
     Completes (.cntMode n rs1) s (if v.setWidth 2 = 3#2 then s else becomes { k with
       mode := v.setWidth 2
       strict := v.getLsbD 2
       ovr := k.ovr && !v.getLsbD 3
       loss := k.loss && !v.getLsbD 3
       cancel := k.cancel && !v.getLsbD 3 }) s.me ∧
     WritesX (.cntRd rd n) s rd (BitVec.ofNat 64 (k.target.toNat * 2 ^ 32 + k.value.toNat)) ∧
     WritesX (.cntPoll rd n) s rd (statusOf k 0)) ∧
  ((∀ (n : BitVec 6) (rd : BitVec 5) (s : State), s.Running → s.Free (.x rd) →
     let k := s.counter s.curCore n.toNat
     let ready : Prop := k.target.toNat ≤ k.value.toNat ∨ k.loss = true ∨ k.cancel = true
     (k.ovr = true → exec (.cntWait rd n) s = .next (s.trap 27 (n.setWidth 64))) ∧
     (k.ovr = false → ready → WritesX (.cntWait rd n) s rd (statusOf k 0)) ∧
     (k.ovr = false → ¬ ready → ∃ t, exec (.cntWait rd n) s = .next t ∧ Waits s t (.cntWait rd n.toNat))) ∧
   (∀ (s : State) (c i n : Nat) (rd : BitVec 5) (w : Wait), i < 16 → (s.slot c i).wait = some w → (s.slot c i).hold = false →
     w.kind = .cntWait rd n → (s.slot c i).u.wtmo.getLsbD 63 = false →
     ∃ t, exec (.wtmoLimit c i w.serial) s = .next t ∧ SameBut s t c i ∧ (t.slot c i).wait = none ∧ (t.slot c i).pc = (s.slot c i).pc + 4 ∧
       (t.slot c i).still = ((s.slot c i).setX rd (statusOf (s.counter c n) 1)).still))

/-- The issuing core is bound to a wire context through its context number (R117). -/
def Sys2Proof.Claims.wired (s : State) (core b n : Nat) (w : WireCtx) : Prop :=
  KMap.get (s.core core).wire b = some n ∧ KMap.get (s.die (dieOf core)).wires n = some w

/-- R118, R119: on a bound context, WBAR.A of a core that has not arrived in the current phase notes its arrival and completes, and signals at
once where no access of the slot within DIE is outstanding; a second arrival in the phase waits, which it does too while the first one's signal is
pending: the model's reading of R118 (log 44). WBAR.W completes with the phase in bits [55:48]
once the phase of the core's latest arrival has completed, and waits before. The last core's signal makes the release due 24 cycles later, and
the release starts the next phase, modulo 256. On an unbound context both instructions are illegal. -/
def Obligations.WireBarrierPhases : Prop :=
  (∀ (b : BitVec 3) (rd : BitVec 5) (n : Nat) (w : WireCtx) (s : State), s.Running → s.Free (.x rd) → wired s s.curCore b.toNat n w →
    let p := (KMap.get s.here.wireArr b.toNat).getD 0
    let l := (s.me.accs.filter fun a => a.scope.within .die).map (·.id)
    (KMap.get s.here.wireArr b.toNat ≠ some w.phase → ∃ t, exec (.wbarA b) s = .next t ∧ KMap.get t.here.wireArr b.toNat = some w.phase ∧
      t.me.pc = s.me.pc + 4 ∧ t.me.wbar = s.me.wbar ++ [(b.toNat, w.phase, l)] ∧ t.me.x = s.me.x ∧ SameMemory s t ∧
      (l = [] → ∃ d ∈ t.agenda, d.act = .event (.wbarArrivalSignal s.curCore s.curSlot b.toNat) ∧ d.cycle = s.cycle)) ∧
    (KMap.get s.here.wireArr b.toNat = some w.phase → ∃ t, exec (.wbarA b) s = .next t ∧ Waits s t (.wbarA b.toNat)) ∧
    (p ≠ w.phase → WritesX (.wbarW rd b) s rd (BitVec.ofNat 64 (p * 2 ^ 48))) ∧
    (p = w.phase → ∃ t, exec (.wbarW rd b) s = .next t ∧ Waits s t (.wbarW rd b.toNat))) ∧
  (∀ (b : BitVec 3) (rd : BitVec 5) (s : State), KMap.get s.here.wire b.toNat = none →
    exec (.wbarA b) s = .next s.illegal ∧ exec (.wbarW rd b) s = .next s.illegal) ∧
  (∀ (s : State) (c i b n phase : Nat) (w : WireCtx), i < 16 → wired s c b n w → w.phase = phase → c ∈ w.members → c ∉ w.arrived →
    (s.slot c i).wbar = [(b, phase, [])] → (∀ m ∈ w.members, m = c ∨ m ∈ w.arrived) →
    ∃ t, exec (.wbarArrivalSignal c i b) s = .next t ∧ (t.slot c i).wbar = [] ∧ SameMemory s t ∧
      ∃ d ∈ t.agenda, d.act = .event (.wbarPhaseRelease (dieOf c) n phase) ∧ d.cycle = s.cycle + 24) ∧
  (∀ (s : State) (d n : Nat) (w : WireCtx), KMap.get (s.die d).wires n = some w →
    ∃ t, exec (.wbarPhaseRelease d n w.phase) s = .next t ∧ { t with dies := s.dies } = s ∧
      KMap.get (t.die d).wires n = some { w with
        phase := (w.phase + 1) % 256
        arrived := []
        completed := some w.phase })

/-- R121: GRP.PUT with bit 63 set from S-mode or M-mode stores a handle with index 0xFF, the generation and the group identifier of its operand; on a
core without a sheaf any other operand stores the invalid handle 0; GRP.GET reads the handle back. -/
def Obligations.GroupHandlesAreKept : Prop :=
  ∀ (g : BitVec 4) (rs1 rd : BitVec 5) (s : State), s.Running →
    let v := s.x rs1
    let put := fun h : Word => Completes (.grpPut g rs1) s (s.modHere fun k => { k with grp := k.grp.set g.toNat h g.isLt }) s.me
    (s.Full (.x rs1) → s.me.mode ≠ .u → v.getLsbD 63 = true →
      put (BitVec.ofNat 64 (2 ^ 63 + 0xFF * 2 ^ 24 + field v 16 4 * 2 ^ 16 + field v 0 12))) ∧
    (s.Full (.x rs1) → (s.me.mode = .u ∨ v.getLsbD 63 = false) → s.here.ticket = none → put 0) ∧
    (s.Free (.x rd) → WritesX (.grpGet rd g) s rd (s.here.grp[g.toNat]'g.isLt))

/-! ### Channels -/

/-- R109, R110, R112, R113: between two slots of one core, CHS and CHSV to an endpoint with a receive outstanding complete at once: the receiver's
destination takes the value, FULL, where the widths agree, and is POISONED otherwise, and `wchst` of both ends holds the outcome. To an endpoint
without a receive the value is posted there as an offer and the sender waits. R110, R112, R113: CHR and CHRV on a receiving end between two slots of one core leave the destination EMPTY with the receive as its producer and
go on, where no offer is posted; where one of their width is posted, they take it: the destination is FULL with its value, and `wchst` holds OK and
the endpoint. On a BROKEN channel the destination is EMPTY with no producer, and STATUS is BROKEN. -/
def Obligations.SendsAndReceivesMeet : Prop :=
  (∀ (ch : BitVec 8) (rs1 : BitVec 5) (vs1 : BitVec 4) (s : State) (e p : Endpoint) (r : Recv), s.Running → s.me.wait = none →
     s.endpoint s.curCore ch.toNat = some e → e.owner = s.curSlot → e.sending = true → e.sendPending = false → e.ackKept = none →
     e.broken = false → e.peerCore = s.curCore → e.peerEp ≠ ch.toNat → s.endpoint s.curCore e.peerEp = some p → p.broken = false →
     p.owner < 16 → p.owner ≠ s.curSlot →
     (∀ a ∈ s.me.accs, a.scope.within e.scope = false) →
     let q := s.slot s.curCore p.owner
     let outcome := fun (t : State) (status : Nat) =>
       t.me.pc = s.me.pc + 4 ∧ field t.me.u.wchst 0 4 = status ∧ field t.me.u.wchst 8 8 = ch.toNat ∧ t.me.x = s.me.x ∧
       field (t.slot s.curCore p.owner).u.wchst 0 4 = status ∧ (t.slot s.curCore p.owner).recvs = [] ∧ SameMemory s t
     (p.recvOut = some false → q.recvs = [r] → r.ch = e.peerEp → ∀ d, r.dst = .x d → d ≠ 0 → (q.xState d).prod = some (.receive r.ch) →
       (s.Full (.x rs1) → ∃ t, exec (.chs ch rs1) s = .next t ∧ outcome t 0 ∧ (t.slot s.curCore p.owner).getX d = s.x rs1 ∧
         (t.slot s.curCore p.owner).xState d = RegSt.full) ∧
       (s.Full (.v vs1) → ∃ t, exec (.chsv ch vs1) s = .next t ∧ outcome t 2 ∧ (t.slot s.curCore p.owner).getX d = q.getX d ∧
         (t.slot s.curCore p.owner).xState d = { fe := .poisoned, prod := none })) ∧
     (p.recvOut = none → s.Full (.x rs1) → ∃ t, exec (.chs ch rs1) s = .next t ∧ t.me.st = .blocked ∧ t.me.pc = s.me.pc ∧
       t.me.waitKind = some (.send ch.toNat .offered) ∧
       (t.endpoint s.curCore e.peerEp).bind (·.offer) = some { vec := false, value := (s.x rs1).setWidth 1024, pid := s.me.pidWord } ∧
       SameMemory s t)) ∧
  (∀ (ch : BitVec 8) (rd : BitVec 5) (vd : BitVec 4) (s : State) (e p : Endpoint), s.Running → s.Free (.x rd) → s.Free (.v vd) → rd ≠ 0 →
     s.me.recvs = [] → s.endpoint s.curCore ch.toNat = some e → e.owner = s.curSlot → e.sending = false → e.recvOut = none →
     e.peerCore = s.curCore → e.peerEp ≠ ch.toNat → s.endpoint s.curCore e.peerEp = some p → p.owner < 16 → p.owner ≠ s.curSlot →
     (e.broken = false → e.offer = none →
       (∃ t, exec (.chr rd ch) s = .next t ∧ t.me.pc = s.me.pc + 4 ∧ t.me.xState rd = { fe := .empty, prod := some (.receive ch.toNat) } ∧
         t.me.x = s.me.x ∧ (t.me.recvs.map fun r => (r.ch, r.dst)) = [(ch.toNat, .x rd)] ∧
         (t.endpoint s.curCore ch.toNat).bind (·.recvOut) = some false ∧ SameMemory s t) ∧
       (∃ t, exec (.chrv vd ch) s = .next t ∧ t.me.pc = s.me.pc + 4 ∧ t.me.vState vd = { fe := .empty, prod := some (.receive ch.toNat) } ∧
         t.me.v = s.me.v ∧ (t.me.recvs.map fun r => (r.ch, r.dst)) = [(ch.toNat, .v vd)] ∧
         (t.endpoint s.curCore ch.toNat).bind (·.recvOut) = some true ∧ SameMemory s t)) ∧
     (∀ o, e.broken = false → e.offer = some o →
       let took := fun t : State => t.me.pc = s.me.pc + 4 ∧ t.me.recvs = [] ∧ field t.me.u.wchst 0 4 = 0 ∧ field t.me.u.wchst 8 8 = ch.toNat ∧
         (t.endpoint s.curCore ch.toNat).bind (·.offer) = none ∧ SameMemory s t
       (o.vec = false → ∃ t, exec (.chr rd ch) s = .next t ∧ took t ∧ t.me.getX rd = o.value.setWidth 64 ∧ t.me.xState rd = RegSt.full) ∧
       (o.vec = true → ∃ t, exec (.chrv vd ch) s = .next t ∧ took t ∧ t.me.getV vd = o.value ∧ t.me.vState vd = RegSt.full)) ∧
     (e.broken = true → ∃ t, exec (.chr rd ch) s = .next t ∧ t.me.pc = s.me.pc + 4 ∧ t.me.xState rd = { fe := .empty, prod := none } ∧
       t.me.x = s.me.x ∧ field t.me.u.wchst 0 4 = 3))

/-- R108: a channel instruction on an endpoint that is not bound, belongs to another slot or is the wrong end traps with cause 29 and tval the
endpoint's number. R114, R115: CHPROBE on an endpoint of the slot writes its five bits; ALT.ON arms an entry with a receiving end of the slot, ALT.OFF and ALT.CLR
disarm one entry and all eight; nothing else changes. R113, R116: ALT.WAIT with no entry armed writes 10. Otherwise it writes the first armed entry, in order from ANEXT, whose endpoint holds an offer
or is BROKEN, and sets ANEXT to the entry after it, modulo 8; with none, the skip form writes 9, and the other forms wait. That ALT.WAIT leaves EP of
`wchst` as it is is the model's reading of R113 (log 26). -/
def Obligations.EndpointsAndAltWait : Prop :=
  ((∀ (ch : BitVec 8) (rd rs1 : BitVec 5) (vd : BitVec 4) (n : BitVec 3) (s : State),
      let trap := s.trap 29 (ch.setWidth 64)
      let mine := fun sending => ∃ e, s.endpoint s.curCore ch.toNat = some e ∧ e.owner = s.curSlot ∧ e.sending = sending
      (¬ mine true → s.me.wait = none → (s.Full (.x rs1) → exec (.chs ch rs1) s = .next trap) ∧ (s.Full (.v vd) → exec (.chsv ch vd) s = .next trap)) ∧
      (¬ mine false → ∀ i ∈ [Instr.chr rd ch, .chrv vd ch, .altOn n ch], exec i s = .next trap) ∧
      (¬ mine true → ¬ mine false → exec (.chprobe rd ch) s = .next trap)) ∧
   (∀ (ch : BitVec 8) (rd : BitVec 5) (n : BitVec 3) (s : State) (e : Endpoint), s.Running → s.Free (.x rd) →
      s.endpoint s.curCore ch.toNat = some e → e.owner = s.curSlot →
      WritesX (.chprobe rd ch) s rd (BitVec.ofNat 64 (e.offer.isSome.toNat + e.recvOut.isSome.toNat * 2 + (e.sending && e.sendPending).toNat * 4
        + e.broken.toNat * 8 + (match e.offer with | some o => o.vec.toNat | none => 0) * 16)) ∧
      (e.sending = false → Completes (.altOn n ch) s s { s.me with alt := vecSet s.me.alt n.toNat (some ch.toNat) }) ∧
      Completes (.altOff n) s s { s.me with alt := vecSet s.me.alt n.toNat none } ∧
      Completes .altClr s s { s.me with alt := Vector.replicate 8 none })) ∧
  (∀ (rd : BitVec 5) (tmo skip : Bool) (s : State), s.Running → s.Free (.x rd) →
     let from_ := field s.me.u.wchst 16 3
     let ch := fun k => vecGet s.me.alt ((from_ + k) % 8) none
     let ready := fun k => ∃ c e, ch k = some c ∧ s.endpoint s.curCore c = some e ∧ (e.offer.isSome = true ∨ e.broken = true)
     ((∀ k < 8, ch k = none) → WritesX (.altWait rd tmo skip) s rd 10) ∧
     (∀ k < 8, ready k → (∀ j < k, ¬ ready j) → Completes (.altWait rd tmo skip) s s ({ s.me with
       u := { s.me.u with wchst := setField s.me.u.wchst 16 3 ((from_ + k + 1) % 8) } }.setX rd (BitVec.ofNat 64 ((from_ + k) % 8)))) ∧
     ((∃ k < 8, ch k ≠ none) → (∀ k < 8, ¬ ready k) →
       (skip = true → WritesX (.altWait rd tmo skip) s rd 9) ∧
       (skip = false → ∃ t, exec (.altWait rd tmo skip) s = .next t ∧ Waits s t (.altWait rd tmo))))

/-! ### Deposits, posted atomics and remote wakes -/

/-- The deposit stores of an x register: bytes and alignment (R95). -/
def Sys2Proof.Claims.depositStores : List ((BitVec 5 → BitVec 5 → Option Scope → Instr) × Nat) :=
  [(.dsb, 1), (.dsh, 2), (.dsw, 4), (.dsd, 8)]

/-- The posted atomics: operation and bytes (R99). -/
def Sys2Proof.Claims.postedAtomics : List ((BitVec 5 → BitVec 5 → Option Scope → Instr) × AtomicOp × Nat) :=
  [(.daddW, .add, 4), (.daddD, .add, 8), (.dmaxW, .max, 4), (.dmaxD, .max, 8), (.dminW, .min, 4), (.dminD, .min, 8), (.dmaxuW, .maxu, 4),
   (.dmaxuD, .maxu, 8), (.dandW, .and, 4), (.dandD, .and, 8), (.dorW, .or, 4), (.dorD, .or, 8), (.dxorW, .xor, 4), (.dxorD, .xor, 8)]

/-- A deposit of the issuing slot that the outbound queue has taken (R96): the last of the queue holds what the address and the data say and the
accesses its release waits for; the slot has one more access, on the DEP path, and has gone on; with nothing to wait for it leaves 4 cycles after issue.
No register and no memory changes. -/
structure Sys2Proof.Claims.Enqueued (s t : State) (kind : DepKind) (da : Word) (target size : Nat) (data : VWord) (rel : Option Scope) (sc : Scope) : Prop where
  queue : ∃ id d, t.here.outq = s.here.outq ++ [(id, d)] ∧ d.kind = kind ∧ d.core = s.curCore ∧ d.slot = s.curSlot ∧ d.addr = da ∧ d.target = target ∧
    d.off = field da 0 21 ∧ d.size = size ∧ d.data = data ∧ d.global = false ∧ d.counted = (s.curSlot != 15) ∧
    d.cnt = (if da.getLsbD 26 then some (field da 27 6) else none) ∧ d.asid = field s.me.c.satp 44 10 ∧
    d.awaited = (match rel with | none => [] | some r => (s.me.accs.filter fun a => a.scope.within r).map (·.id)) ∧
    (d.awaited = [] → ∃ e ∈ t.agenda, e.act = .event (.depositDepart s.curCore id) ∧ e.cycle = s.cycle + 4)
  total : t.here.issuedTotal = s.here.issuedTotal + if s.curSlot = 15 then 0 else 1
  access : ∃ n, t.me.accs = s.me.accs ++ [{ id := n, path := .dep, scope := sc, write := false }]
  pc : t.me.pc = s.me.pc + 4
  rest : { t.me with accs := s.me.accs }.still = s.me.still
  memory : SameMemory s t

/-- R92, R93, R96, R98: DSB, DSH, DSW, DSD and DSV with a legal deposit address enqueue a deposit of their size and data for the core the address
names, while no fence holds the DEP path and the outbound queue has a place, and wait while it has none; that a row which a drain has yet to
enqueue keeps a place is the model's reading of R282 (log 46). R92, R93, R96: a deposit whose address lacks the mark 0xD, sets a reserved field or a slot, or names a counter without CNTEN traps with cause 7; one
whose offset is misaligned with cause 6; from U-mode one outside the sheaf's shape with cause 30; from S-mode and M-mode
one with a die above 31 with cause 7; tval is the address. Shown of DSD. R99, R100: every posted atomic with a legal deposit address enqueues a deposit of its operation; one with a global address of HBM on this
panel, where translation is off, enqueues one for that address, which counts on no counter; an address of the local alias traps with cause 7. R58: WAKE.R with a legal address enqueues a wake of the slot the address names; any bit set outside its fields traps with cause 7, and from U-mode
a target of slot 15 with cause 30. -/
def Obligations.DepositsAreCheckedAndEnqueued : Prop :=
  (∀ (rs1 rs2 : BitVec 5) (vs2 : BitVec 4) (rel : Option Scope) (core : Nat) (s : State), s.Running → s.Full (.x rs1) → s.Unheld →
     let da := s.x rs1
     let sc := if core = s.curCore then Scope.core else if dieOf s.curCore = dieOf core then .die else .panel
     (∀ p ∈ depositStores, s.here.checkDa s.panel s.me.mode da p.2 = .ok (s.panel, core) → s.Full (.x rs2) →
       (s.here.outbound < 32 → ∃ t, exec (p.1 rs1 rs2 rel) s = .next t ∧ Enqueued s t .store da core p.2 ((s.x rs2).setWidth 1024) rel sc) ∧
       (32 ≤ s.here.outbound → ∃ t, exec (p.1 rs1 rs2 rel) s = .next t ∧ Waits s t .unlimited)) ∧
     (s.here.checkDa s.panel s.me.mode da 64 = .ok (s.panel, core) → s.Full (.v vs2) → s.here.outbound < 32 →
       ∃ t, exec (.dsv rs1 vs2 rel) s = .next t ∧ Enqueued s t .store da core 128 (s.v vs2) rel sc)) ∧
  (∀ (rs1 rs2 : BitVec 5) (rel : Option Scope) (s : State), s.Full (.x rs1) → s.Full (.x rs2) →
     let da := s.x rs1
     let badForm : Prop := field da 60 4 ≠ 13 ∨ field da 54 6 ≠ 0 ∨ field da 33 4 ≠ 0 ∨ field da 21 5 ≠ 0 ∨ (da.getLsbD 26 = false ∧ field da 27 6 ≠ 0)
     let traps := fun cause => exec (.dsd rs1 rs2 rel) s = .next (s.trap cause da)
     (badForm → traps 7) ∧
     (¬ badForm → field da 0 21 % 8 ≠ 0 → traps 6) ∧
     (¬ badForm → field da 0 21 % 8 = 0 →
       (s.me.mode = .u → (field s.here.wsheaf 16 8 + 1 ≤ field da 46 8 ∨ field s.here.wsheaf 8 5 + 1 ≤ field da 41 5 ∨
         field s.here.wsheaf 0 4 + 1 ≤ field da 37 4) → traps 30) ∧
       (s.me.mode ≠ .u → 31 < field da 46 8 → traps 7))) ∧
  ((∀ (rs1 rs2 : BitVec 5) (rel : Option Scope) (core : Nat) (s : State), s.Running → s.Full (.x rs1) → s.Full (.x rs2) → s.Unheld →
      s.here.outbound < 32 → ∀ p ∈ postedAtomics,
      let a := s.x rs1
      let sc := if core = s.curCore then Scope.core else if dieOf s.curCore = dieOf core then .die else .panel
      (field a 60 4 = 13 → s.here.checkDa s.panel s.me.mode a p.2.2 = .ok (s.panel, core) →
        ∃ t, exec (p.1 rs1 rs2 rel) s = .next t ∧ Enqueued s t (.atomic p.2.1) a core p.2.2 ((s.x rs2).setWidth 1024) rel sc) ∧
      (s.me.mode = .m → s.me.c.mstatus.getLsbD 17 = false → field a 48 16 = 1 → field a 42 6 = s.panel → a.toNat % p.2.2 = 0 →
        hbmOffsetOk s.hshare (field a 0 42) = true →
        ∃ t id d, exec (p.1 rs1 rs2 rel) s = .next t ∧ t.here.outq = s.here.outq ++ [(id, d)] ∧ d.kind = .atomic p.2.1 ∧ d.global = true ∧ d.off = a.toNat ∧
          d.size = p.2.2 ∧ d.data = (s.x rs2).setWidth 1024 ∧ d.cnt = none ∧ t.me.pc = s.me.pc + 4 ∧ t.me.x = s.me.x ∧ SameMemory s t) ∧
      (a.toNat < 0x1E0000 → a.toNat % p.2.2 = 0 → s.me.mode = .m → s.me.c.mstatus.getLsbD 17 = false →
        exec (p.1 rs1 rs2 rel) s = .next (s.trap 7 a))) ∧
   (∀ (rs1 : BitVec 5) (core : Nat) (s : State), s.Running → s.Full (.x rs1) →
      let da := s.x rs1
      let sc := if core = s.curCore then Scope.core else if dieOf s.curCore = dieOf core then .die else .panel
      let formed : Prop := field da 60 4 = 13 ∧ field da 54 6 = 0 ∧ field da 0 33 = 0
      (¬ formed → exec (.wakeR rs1) s = .next (s.trap 7 da)) ∧
      (formed → s.here.daTarget s.panel s.me.mode da = .ok (s.panel, core) →
        (s.me.mode = .u → field da 33 4 = 15 → exec (.wakeR rs1) s = .next (s.trap 30 da)) ∧
        ((s.me.mode = .u → field da 33 4 ≠ 15) → s.Unheld → s.here.outbound < 32 →
          ∃ t, exec (.wakeR rs1) s = .next t ∧ Enqueued s t .wake da core 0 0 none sc ∧ ∃ id d, t.here.outq = s.here.outq ++ [(id, d)] ∧ d.targetSlot = field da 33 4))))

/-- A deposit in the networks on its way to a core. -/
def Sys2Proof.Claims.carries (s : State) (id core : Nat) (d : Dep) : Prop :=
  ∃ m, KMap.get s.net id = some m ∧ m.dst = core ∧ m.body = .dep d

/-- The one inbound window that covers a deposit's bytes is open for its address space, and permits its counter (R97, R145). -/
def Sys2Proof.Claims.admits (k : Core) (d : Dep) : Prop :=
  ∃ w ∈ k.win.toList, k.win.toList.filter (fun v => winCovers v d.off d.size) = [w] ∧ w.getLsbD 63 = true ∧ field w 50 10 = d.asid ∧
    ∀ n, d.cnt = some n → field w 38 6 ≤ n ∧ n ≤ field w 44 6 ∧ n < 64 ∧ (vecGet k.cnt n Counter.reset).mode ≠ 2

/-- The landing receipt of a deposit is on its way from a core to the issuing core. -/
def Sys2Proof.Claims.receipted (t : State) (c : Nat) (d : Dep) : Prop :=
  ∃ m msg, KMap.get t.net m = some msg ∧ msg.net = .chn ∧ msg.src = c ∧ msg.dst = d.core ∧ msg.body = .receipt d.slot d.acc d.counted d.kind

/-- R96, R97, R100: a deposit whose release waits for nothing leaves the outbound queue and travels. Where it lands at a core that admits it, its bytes are
written from its offset up, row by row as the banks of the rows grant, every other byte is as before, a counted one raises its counter two cycles later, and a receipt leaves; a posted atomic writes
the combined value instead. R97, R101: a deposit or posted atomic that no inbound window of its target covers is refused: no byte and no counter changes, the refusal counter rises
by one, short of its maximum, a chaff record is posted at the die, and its receipt leaves. R58, R97, R98, R100, R104, R153: a remote wake reaches its slot, or is refused by a slot without a process; a counted arrival raises its counter by 1 or by
its bytes; a landing receipt raises the issuing sheaf's landed total and ends the slot's access; a posted atomic to HBM combines at its home and leaves every
other byte alone. -/
def Obligations.LandingsWriteOrAreRefused : Prop :=
  (((∀ (s : State) (c id : Nat) (d : Dep), (s.core c).outq = [(id, d)] → (s.core c).drains = [] → d.awaited = [] → d.global = false → d.target < 16384 →
      ∃ t, exec (.depositDepart c id) s = .next t ∧ (t.core c).outq = [] ∧ SameMemory s t ∧ ∃ n, carries t n d.target d) ∧
    (∀ (s : State) (id c : Nat) (d : Dep), carries s id c d → admits (s.core c) d → d.written = [] →
      let lands := fun (i : Instr) (v : Nat) => ∃ t, exec i s = .next t ∧ (t.core c).spad.load d.size d.off = v % 2 ^ (8 * d.size) ∧ t.mem = s.mem ∧
        (∀ a, a < d.off ∨ d.off + d.size ≤ a → (t.core c).spad.read a = (s.core c).spad.read a) ∧
        (∀ e, e ≠ c → (t.core e).spad = (s.core e).spad) ∧ (∀ i, (t.slot c i).x = (s.slot c i).x) ∧ receipted t c d ∧
        (∀ n, d.cnt = some n → ∃ m, (∃ msg, KMap.get t.net m = some msg ∧ msg.dst = c ∧ msg.body = .raise n d.size true) ∧
          ∃ e ∈ t.agenda, e.act = .event (.counterRaise m) ∧ e.cycle = s.cycle + 2)
      ((s.core c).waitingRows id = [] → lands (.depositLanding id) d.data.toNat) ∧
      (∀ r ∈ (s.core c).waitingRows id, ∃ t, exec (.depositLanding id) s = .next t ∧ (∃ m, KMap.get t.net id = some m) ∧ (t.core c).cnt = (s.core c).cnt ∧
        ∀ a, (a < d.off ∨ d.off + d.size ≤ a ∨ a / 64 = r → (t.core c).spad.read a = (s.core c).spad.read a)) ∧
      (∀ op, d.kind = .atomic op → (s.core c).poisoned d.off d.size = false →
        lands (.postedAtomicLanding id) (op.apply d.size ((s.core c).spad.load d.size d.off) d.data.toNat)))) ∧
   (∀ (s : State) (id c : Nat) (d : Dep), carries s id c d → d.written = [] → (∀ w ∈ (s.core c).win.toList, winCovers w d.off d.size = false) →
      ∀ i ∈ [Instr.depositLanding id, .postedAtomicLanding id], ∃ t, exec i s = .next t ∧ SameMemory s t ∧ (t.core c).cnt = (s.core c).cnt ∧ receipted t c d ∧
        (t.core c).refuse = (if (s.core c).refuse = BitVec.allOnes 32 then (s.core c).refuse else (s.core c).refuse + 1) ∧
        ((s.die (dieOf c)).chaff.full 256 = false → (t.die (dieOf c)).chaff.tail = ((s.die (dieOf c)).chaff.tail + 1) % 512))) ∧
  ((∀ (s : State) (id c : Nat) (d : Dep), carries s id c d → d.kind = .wake → d.targetSlot < 16 →
     let n := d.targetSlot
     ((n = 15 ∨ (s.slot c n).pid.isSome) → (s.slot c n).st = .ready →
       ∃ t, exec (.wakeRLanding id) s = .next t ∧ (t.slot c n).token = true ∧ SameMemory s t ∧ (t.core c).refuse = (s.core c).refuse) ∧
     (n ≠ 15 → (s.slot c n).pid = none → ∃ t, exec (.wakeRLanding id) s = .next t ∧ t.slot c n = s.slot c n ∧ SameMemory s t ∧
       ((s.core c).refuse ≠ BitVec.allOnes 32 → (t.core c).refuse = (s.core c).refuse + 1))) ∧
   (∀ (s : State) (id c n bytes : Nat) (m : Msg), KMap.get s.net id = some m → m.dst = c → m.body = .raise n bytes true → n < 64 → s.sow.mailbox = [] →
     let k := s.counter c n
     let amount := if k.mode = 1 then bytes else 1
     ∃ t, exec (.counterRaise id) s = .next t ∧ t.counter c n = (if amount = 0 then k else raised k amount) ∧ SameMemory s t ∧ KMap.get t.net id = none) ∧
   (∀ (s : State) (id c i acc : Nat) (m : Msg), i < 16 → KMap.get s.net id = some m → m.dst = c → m.body = .receipt i acc true .store → s.reqs = [] →
     ∃ t, exec (.landingReceipt id) s = .next t ∧ (t.core c).landedTotal = (s.core c).landedTotal + 1 ∧ (∀ a ∈ (t.slot c i).accs, a.id ≠ acc) ∧
       (t.slot c i).x = (s.slot c i).x ∧ SameMemory s t) ∧
   (∀ (s : State) (id rid home : Nat) (d : Dep) (r : Req) (op : AtomicOp), carries s id home d → d.kind = .atomic op → d.global = true → s.reqs = [(rid, r)] →
     r.core = d.core → r.slot = d.slot → r.acc = d.acc → r.posted.isSome → (∀ q ∈ (s.core d.core).outq, q.2.global = false) →
     (∀ n, r.reached = some n → n ≤ r.deadline) → s.memPoisoned d.off d.size = false →
     ∃ t, exec (.globalPostedAtomic id) s = .next t ∧ (∀ c, (t.core c).spad = (s.core c).spad) ∧
       t.mem.load d.size d.off = (op.apply d.size (s.mem.load d.size d.off) d.data.toNat) % 2 ^ (8 * d.size) ∧
       ∀ a, a < d.off ∨ d.off + d.size ≤ a → t.mem.read a = s.mem.read a))

/-! ### Loads, stores and atomics -/

/-- The loads: bytes and sign (R40). -/
def Sys2Proof.Claims.loads : List ((BitVec 5 → BitVec 5 → BitVec 12 → Instr) × Nat × Bool) :=
  [(.lb, 1, true), (.lh, 2, true), (.lw, 4, true), (.ld, 8, true), (.lbu, 1, false), (.lhu, 2, false), (.lwu, 4, false)]

/-- The stores, by bytes (R40). -/
def Sys2Proof.Claims.stores : List ((BitVec 5 → BitVec 5 → BitVec 12 → Instr) × Nat) :=
  [(.sb, 1), (.sh, 2), (.sw, 4), (.sd, 8)]

/-- The AMOs: operation and bytes (R41). -/
def Sys2Proof.Claims.amos : List ((BitVec 5 → BitVec 5 → BitVec 5 → Bool → Bool → Instr) × AtomicOp × Nat) :=
  [(.amoswapW, .swap, 4), (.amoswapD, .swap, 8), (.amoaddW, .add, 4), (.amoaddD, .add, 8), (.amoxorW, .xor, 4), (.amoxorD, .xor, 8), (.amoandW, .and, 4),
   (.amoandD, .and, 8), (.amoorW, .or, 4), (.amoorD, .or, 8), (.amominW, .min, 4), (.amominD, .min, 8), (.amomaxW, .max, 4), (.amomaxD, .max, 8),
   (.amominuW, .minu, 4), (.amominuD, .minu, 8), (.amomaxuW, .maxu, 4), (.amomaxuD, .maxu, 8)]

/-- The bytes of a local access that its slot may reach (R78, R82): below the service region, or within the local alias for slot 15, in M-mode
without MPRV; below M-mode, in a page that one of the slot's windows permits. -/
def Sys2Proof.Claims.reaches (s : State) (p : Perm) (a n : Nat) : Prop :=
  a / 4096 = (a + n - 1) / 4096 ∧ (a / 4096 < 480 ∨ (s.curSlot = 15 ∧ a / 4096 < 512)) ∧ s.me.c.mstatus.getLsbD 17 = false ∧
    (s.me.mode = .m ∨ windowPermits s.me.u.wlocwin (a / 4096) p = true)

/-- R38, R39, R42, R78: misaligned loads and LR trap with cause 4, misaligned stores, SC and AMOs with cause 6, before any other check of the address, tval the address; in
any mode an access of slots 0 to 14 to the service region traps with cause 5 or 7; LR and SC trap with cause 5 and 7 on an address outside the local alias. -/
def Obligations.AddressTraps : Prop :=
  ∀ (rd rs1 rs2 : BitVec 5) (imm : BitVec 12) (aq rl : Bool) (s : State), s.Full (.x rs1) → s.Full (.x rs2) → s.Free (.x rd) →
    let ea := s.x rs1 + imm.signExtend 64
    let a := s.x rs1
    (∀ p ∈ loads, ea.toNat % p.2.1 ≠ 0 → exec (p.1 rd rs1 imm) s = .next (s.trap 4 ea)) ∧
    (∀ p ∈ stores, ea.toNat % p.2 ≠ 0 → exec (p.1 rs1 rs2 imm) s = .next (s.trap 6 ea)) ∧
    (∀ p ∈ amos, a.toNat % p.2.2 ≠ 0 → exec (p.1 rd rs1 rs2 aq rl) s = .next (s.trap 6 a)) ∧
    (∀ p ∈ [(Instr.lrW rd rs1 aq rl, 4), (.lrD rd rs1 aq rl, 8)], (a.toNat % p.2 ≠ 0 → exec p.1 s = .next (s.trap 4 a)) ∧
      (a.toNat % p.2 = 0 → 0x200000 ≤ a.toNat → exec p.1 s = .next (s.trap 5 a))) ∧
    (∀ p ∈ [(Instr.scW rd rs1 rs2 aq rl, 4), (.scD rd rs1 rs2 aq rl, 8)], (a.toNat % p.2 ≠ 0 → exec p.1 s = .next (s.trap 6 a)) ∧
      (a.toNat % p.2 = 0 → 0x200000 ≤ a.toNat → exec p.1 s = .next (s.trap 7 a))) ∧
    (s.curSlot ≠ 15 → 0x1E0000 ≤ ea.toNat → ea.toNat < 0x200000 →
      (∀ p ∈ loads, ea.toNat % p.2.1 = 0 → exec (p.1 rd rs1 imm) s = .next (s.trap 5 ea)) ∧
      (∀ p ∈ stores, ea.toNat % p.2 = 0 → exec (p.1 rs1 rs2 imm) s = .next (s.trap 7 ea)))

/-- The next value of a local location under an atomic operation on words of `n` bytes (R41, R99). -/
def Sys2Proof.Claims.combine (op : AtomicOp) (n : Nat) (old v : BitVec (8 * n)) : BitVec (8 * n) :=
  match op with
  | .swap => v
  | .add => old + v
  | .xor => old ^^^ v
  | .and => old &&& v
  | .or => old ||| v
  | .min => if old.slt v then old else v
  | .max => if old.slt v then v else old
  | .minu => if old.ult v then old else v
  | .maxu => if old.ult v then v else old

/-- R41, R99: the operations of AMOs and posted atomics, on 4 and 8 bytes, are the exchange, the wrapping sum, the bitwise operations and the signed and unsigned minima and
maxima. -/
def Obligations.AtomicOperations : Prop :=
  ∀ (op : AtomicOp) (n : Nat) (a b : Nat), n = 4 ∨ n = 8 →
    op.apply n a b % 2 ^ (8 * n) = (combine op n (BitVec.ofNat (8 * n) a) (BitVec.ofNat (8 * n) b)).toNat

/-- The banks of a core serve one slot's access of one row, due now, and nothing else (R83); no other slot's `mma` may start in this cycle, ahead of
which only what arrives and the tensor unit are served (R327). -/
structure Sys2Proof.Claims.Alone (s : State) (c i : Nat) (m : LocalAcc) : Prop where
  slot : i < 16
  row : ∃ r, m.rows = [r] ∧ (s.core c).bank = [{ cls := .slot, bank := r % 32, first := s.cycle, act := .slotRow i r }]
  access : (s.slot c i).mem = some m
  grants : (s.core c).lastGrant = []
  coming : ∀ j, s.mmaComing c = some j → j = i

/-- A scalar access, or an AMO. -/
def Sys2Proof.Claims.scalar : LocalOp → Bool
  | .load _ _ _ => true
  | .store _ _ => true
  | .lr _ _ => true
  | .sc _ _ _ => true
  | .amo _ _ _ _ => true
  | _ => false

/-- R40, R41, R42, R47, R71, R83, R345: at the bank grant of a local access, a load gives its destination the bytes with their extension, FULL; a store writes its bytes; an LR reads and reserves;
an SC with the reservation writes and answers 0, without it answers 1 and writes nothing, and either way the reservation is gone; an AMO answers the old value and writes the
combined one; with the row's grant the access is complete, and a slot that only it held goes on. A write ends the reservations of the core's slots on a block that it meets. Nothing else of
the machine changes but what becomes due: every other byte and x register, the v and m registers, the CSRs, the pc and everything else of the slot,
the other slots but for those reservations, the counters, the accumulators and the rest of the core, the other cores, global memory, the dies and the links.
That an SC has the reservation only with the very address and size of its LR is the model's reading of R42 (log 23). -/
def Obligations.BankGrantsPerformAccesses : Prop :=
  ∀ (s : State) (c i : Nat) (m : LocalAcc), Alone s c i m → scalar m.op = true → (s.core c).spadPoison = [] →
    let k := s.core c
    let q := s.slot c i
    let reads := fun n signed => extend n signed (k.spad.load n m.addr)
    let block : Option Resv := some { block := m.addr / 64 * 64, addr := m.addr, size := 0 }
    ∃ t, exec (.bankGrant c) s = .next t ∧ (t.slot c i).mem = none ∧ (t.core c).bank = [] ∧ (∀ e, e ≠ c → t.core e = s.core e) ∧
      { t with
        cores := s.cores
        agenda := s.agenda } = s ∧
      { t.core c with
        slots := k.slots
        spad := k.spad
        bank := k.bank
        lastGrant := k.lastGrant } = k ∧
      (∀ j, j ≠ i → { t.slot c j with resv := (s.slot c j).resv } = s.slot c j) ∧
      let q' := t.slot c i
      { q' with
        x := q.x
        xs := q.xs
        mem := q.mem
        resv := q.resv
        st := q.st } = q ∧ q'.st = (if q.st = .blocked ∧ q.wait = none then .ready else q.st) ∧
      let sets := fun (rd : BitVec 5) (v : Word) => ∀ r, q'.getX r = (if r = rd ∧ rd ≠ 0 then v else q.getX r) ∧
        q'.xState r = if r = rd then RegSt.full else q.xState r
      let left := fun (n : Nat) (r : Option Resv) => r.bind fun b => if m.addr < b.block + 64 ∧ b.block < m.addr + n then none else some b
      let writes := fun (n v : Nat) => (t.core c).spad.load n m.addr = v % 2 ^ (8 * n) ∧
        (∀ a, a < m.addr ∨ m.addr + n ≤ a → (t.core c).spad.read a = k.spad.read a) ∧ ∀ j, j ≠ i → (t.slot c j).resv = left n (s.slot c j).resv
      let keeps : Prop := (t.core c).spad = k.spad ∧ ∀ j, j ≠ i → (t.slot c j).resv = (s.slot c j).resv
      let resvOf := fun n => block.map fun b => { b with size := n }
      (∀ n sg rd, m.op = .load n sg rd → sets rd (reads n sg) ∧ keeps ∧ q'.resv = q.resv) ∧
      (∀ n v, m.op = .store n v → q'.x = q.x ∧ q'.xs = q.xs ∧ writes n v.toNat ∧ q'.resv = left n q.resv) ∧
      (∀ n rd, m.op = .lr n rd → sets rd (reads n true) ∧ keeps ∧ q'.resv = resvOf n) ∧
      (∀ n v rd, m.op = .sc n v rd → q'.resv = none ∧ (if q.resv = resvOf n then sets rd 0 ∧ writes n v.toNat else sets rd 1 ∧ keeps)) ∧
      (∀ n op v rd, m.op = .amo n op v rd → sets rd (reads n true) ∧ writes n (op.apply n (k.spad.load n m.addr) v.toNat) ∧ q'.resv = left n q.resv)

/-- R38, R40, R47, R148: an aligned load of HBM on this panel, in M-mode without MPRV, leaves its destination EMPTY with the request as its producer, or with no producer for x0, and the slot
goes on; a store and an AMO are posted in the same way. Each has a timer, due 70,000 cycles after it leaves its core, 4 cycles after issue. It is an outstanding access on the GLB path within PANEL, and no memory changes yet. R40, R41, R47, R153, R405: at its home in HBM, which it reaches by its deadline, a load reads, a store writes and an AMO combines, each once, and its response leaves for the core, a store's as an acknowledgement, unless an earlier access of its slot to the same bytes must be performed first, behind which it waits; the response of a load or AMO makes the destination
FULL with the value, or POISONED, where it still waits for that request; a store's acknowledgement changes no register; at its timer a load or AMO ends POISONED and a store as performed. Each ends the
slot's access. R78, R138, R165, R411: a write of the host reaches HBM of this panel, and a scratchpad through the prefix 0x0E map; R420: one of a register of the security processor other than ATTADDR and ATTGO
is ignored. -/
def Obligations.GlobalAccessesArePostedAndPerformed : Prop :=
  (∀ (rd rs1 rs2 : BitVec 5) (imm : BitVec 12) (s : State), s.Running → s.me.mode = .m → s.me.c.mstatus.getLsbD 17 = false → s.Full (.x rs1) → s.Unheld →
     let ea := s.x rs1 + imm.signExtend 64
     let a := s.x rs1
     let hbm := fun w : Word => field w 48 16 = 1 ∧ field w 42 6 = s.panel ∧ hbmOffsetOk s.hshare (field w 0 42) = true
     let posted := fun (i : Instr) (a : Word) (op : ReqOp) (dst : Option RegRef) =>
       ∃ t id r n, exec i s = .next t ∧ KMap.get t.reqs id = some r ∧ r.core = s.curCore ∧ r.slot = s.curSlot ∧ r.addr = a.toNat ∧ r.op = op ∧ r.dst = dst ∧
         r.acc = n ∧ t.me.accs = s.me.accs ++ [{ id := n, path := .glb, scope := .panel, write := op.writes }] ∧ t.me.pc = s.me.pc + 4 ∧ t.me.x = s.me.x ∧
         SameMemory s t ∧ (∃ e ∈ t.agenda, e.act = .event (.accessTimeout id) ∧ e.cycle = s.cycle + 4 + 70000) ∧
         (∀ q, t.me.xState q = if dst = some (.x q) then { fe := .empty, prod := some (.request id) } else s.me.xState q)
     let into : Option RegRef := if rd = 0 then none else some (.x rd)
     (hbm ea → s.Free (.x rd) → ∀ p ∈ loads, ea.toNat % p.2.1 = 0 → posted (p.1 rd rs1 imm) ea (.load p.2.1 p.2.2) into) ∧
     (hbm ea → s.Full (.x rs2) → ∀ p ∈ stores, ea.toNat % p.2 = 0 → posted (p.1 rs1 rs2 imm) ea (.store p.2 (s.x rs2)) none) ∧
     (hbm a → s.Full (.x rs2) → s.Free (.x rd) → ∀ p ∈ amos, a.toNat % p.2.2 = 0 → posted (p.1 rd rs1 rs2 false false) a (.amo p.2.2 p.2.1 (s.x rs2)) into)) ∧
  ((∀ (s : State) (id : Nat) (r : Req), KMap.get s.reqs id = some r → r.performed = false → bitsOf r.addr 48 8 = 1 → s.memPoisoned r.addr 8 = false →
     (∀ n, r.reached = some n → n ≤ r.deadline) →
     (s.mustWait r = true → ∃ t r', exec (.homeAccess id) s = .next t ∧ KMap.get t.reqs id = some r' ∧ r'.performed = false ∧ SameMemory s t) ∧
     (s.mustWait r = false →
     let performs := fun (v : Word) => ∃ t r', exec (.homeAccess id) s = .next t ∧ KMap.get t.reqs id = some r' ∧ r'.performed = true ∧ r'.poison = false ∧ r'.value = v ∧
       (∀ c, (t.core c).spad = (s.core c).spad) ∧
       (let ack := match r.op with | .store _ _ => true | _ => false
        ∃ n msg, KMap.get t.net n = some msg ∧ msg.net = .rsp ∧ msg.dst = r.core ∧ msg.body = .rsp id ack ∧
          ∃ e ∈ t.agenda, e.act = .event (if ack then .storeAck id else .globalLoadData id) ∨ ∃ l x, e.act = .event (.flitReceive l x n)) ∧
       match r.op with
       | .store n v => t.mem = s.mem.writeAll r.addr (leBytes n v.toNat)
       | .amo n op v => t.mem = s.mem.writeAll r.addr (leBytes n (op.apply n (s.mem.load n r.addr) v.toNat))
       | _ => t.mem = s.mem
     (∀ n sg, n ≤ 8 → r.op = .load n sg → performs (extend n sg (s.mem.load n r.addr))) ∧
     (∀ n v, n ≤ 8 → r.op = .store n v → performs 0) ∧
     (∀ n op v, n ≤ 8 → r.op = .amo n op v → performs (extend n true (s.mem.load n r.addr))))) ∧
   (∀ (s : State) (id : Nat) (r : Req) (rd : BitVec 5), KMap.get s.reqs id = some r → r.slot < 16 → r.posted = none → rd ≠ 0 → r.dst = some (.x rd) →
     ((s.slot r.core r.slot).xState rd).prod = some (.request id) → ((∃ n sg, r.op = .load n sg) ∨ ∃ n op v, r.op = .amo n op v) →
     let q := s.slot r.core r.slot
     let ends := fun (i : Instr) (value : Word) (g : RegSt) => ∃ t, exec i s = .next t ∧ KMap.get t.reqs id = none ∧ (t.slot r.core r.slot).getX rd = value ∧
       (t.slot r.core r.slot).xState rd = g ∧ (∀ a ∈ (t.slot r.core r.slot).accs, a.id ≠ r.acc) ∧ SameMemory s t
     let poisoned : RegSt := { fe := .poisoned, prod := none }
     (r.poison = false → ends (.globalLoadData id) r.value RegSt.full) ∧
     (r.poison = true → ends (.globalLoadData id) (q.getX rd) poisoned) ∧
     ends (.accessTimeout id) (q.getX rd) poisoned) ∧
   (∀ (s : State) (id : Nat) (r : Req), KMap.get s.reqs id = some r → r.slot < 16 → r.posted = none → (∃ n v, r.op = .store n v) → r.dst = none →
     ∀ i ∈ [Instr.storeAck id, .accessTimeout id], ∃ t, exec i s = .next t ∧ KMap.get t.reqs id = none ∧ (∀ a ∈ (t.slot r.core r.slot).accs, a.id ≠ r.acc) ∧
       (t.slot r.core r.slot).x = (s.slot r.core r.slot).x ∧ SameMemory s t) ∧
   (∀ (s : State) (a n : Nat) (v : BitVec 512), n ≤ 64 → bitsOf a 48 8 = 1 → s.physOk a .write .m n false = true →
     (bitsOf a 42 6 = s.panel →
       ∃ t, exec (.hostMemAccess true a n v) s = .next t ∧ t.mem = s.mem.writeAll a (leBytes n v.toNat) ∧ ∀ c, t.core c = s.core c) ∧
     (bitsOf a 42 6 ≠ s.panel → exec (.hostMemAccess true a n v) s = .next s) ∧
     exec (.hostMemAccess false a n v) s = .next s) ∧
   (∀ (s : State) (a n : Nat) (v : BitVec 512), bitsOf a 48 8 = 15 → bitsOf a 40 2 = 2 → bitsOf a 0 24 ≠ 0x600 → bitsOf a 0 24 ≠ 0x608 →
     exec (.hostMemAccess true a n v) s = .next s) ∧
   (∀ (s : State) (a n : Nat) (v : BitVec 512), n ≤ 64 → bitsOf a 48 8 = 14 → bitsOf a 42 6 = s.panel → bitsOf a 21 7 = 0 → bitsOf a 0 21 + n ≤ 0x200000 →
     let c := coreAt (bitsOf a 37 5) (bitsOf a 32 5) (bitsOf a 28 4)
     (∃ t, exec (.hostMemAccess true a n v) s = .next t ∧ t.mem = s.mem ∧ (t.core c).spad = (s.core c).spad.writeAll (bitsOf a 0 21) (leBytes n v.toNat) ∧
       ∀ e, e ≠ c → t.core e = s.core e) ∧
     exec (.hostMemAccess false a n v) s = .next s))

/-! ### Translation and the records of a core and a die -/

/-- R38, R40, R71, R83: an aligned load or store of the local alias that its slot may reach, and that nothing holds, starts its one row in the banks, first
attempted 4 cycles after issue, and the slot goes on. R41, R42: an aligned LR, SC or AMO of the local alias that its slot may reach, and that nothing holds, starts in the banks likewise, where the slot has no
unperformed access within CORE or the form has no `rl`. R41, R59, R110: while a fence holds LOC at a scope, or an `aq` or a receive is outstanding, a local store that its slot may reach waits at issue, with no limit, and
nothing is written. -/
def Obligations.LocalAccessesStartOrWait : Prop :=
  (∀ (rd rs1 rs2 : BitVec 5) (imm : BitVec 12) (s : State), s.Running → s.Full (.x rs1) → s.Unheld → s.here.gl.lists = [] →
     let ea := s.x rs1 + imm.signExtend 64
     let a := ea.toNat
     (s.Free (.x rd) → ∀ p ∈ loads, a % p.2.1 = 0 → reaches s .read a p.2.1 →
       ∃ t, exec (p.1 rd rs1 imm) s = .next t ∧ Issued s t (.load p.2.1 p.2.2 rd) a [a / 64]) ∧
     (s.Full (.x rs2) → ∀ p ∈ stores, a % p.2 = 0 → reaches s .write a p.2 →
       ∃ t, exec (p.1 rs1 rs2 imm) s = .next t ∧ Issued s t (.store p.2 (s.x rs2)) a [a / 64])) ∧
  (∀ (rd rs1 rs2 : BitVec 5) (aq rl : Bool) (s : State), s.Running → s.Full (.x rs1) → s.Full (.x rs2) → s.Free (.x rd) → s.Unheld →
     s.here.gl.lists = [] → (rl = true → ∀ a ∈ s.me.accs, a.scope ≠ .core) →
     let a := (s.x rs1).toNat
     (∀ p ∈ [(Instr.lrW rd rs1 aq rl, 4), (.lrD rd rs1 aq rl, 8)], a % p.2 = 0 → reaches s .read a p.2 →
       ∃ t, exec p.1 s = .next t ∧ Issued s t (.lr p.2 rd) a [a / 64]) ∧
     (∀ p ∈ [(Instr.scW rd rs1 rs2 aq rl, 4), (.scD rd rs1 rs2 aq rl, 8)], a % p.2 = 0 → reaches s .write a p.2 →
       ∃ t, exec p.1 s = .next t ∧ Issued s t (.sc p.2 (s.x rs2) rd) a [a / 64]) ∧
     (∀ p ∈ amos, a % p.2.2 = 0 → reaches s .write a p.2.2 →
       ∃ t, exec (p.1 rd rs1 rs2 aq rl) s = .next t ∧ Issued s t (.amo p.2.2 p.2.1 (s.x rs2) rd) a [a / 64])) ∧
  (∀ (rs1 rs2 : BitVec 5) (imm : BitVec 12) (s : State), s.Running → s.Full (.x rs1) → s.Full (.x rs2) →
     let a := (s.x rs1 + imm.signExtend 64).toNat
     (s.me.aqs ≠ [] ∨ s.me.recvs ≠ [] ∨ ∃ f, s.me.fence = some f ∧ f.succ.getLsbD 0 = true) →
     ∀ p ∈ stores, a % p.2 = 0 → reaches s .write a p.2 → ∃ t, exec (p.1 rs1 rs2 imm) s = .next t ∧ Waits s t .unlimited)

/-- What an invalidation of an address space, a page, both or neither removes (R45, R351): entries whose page it names, of the space it names but for global ones. -/
def Sys2Proof.Claims.removes (asid page : Option Nat) (e : TlbEntry) : Prop :=
  (∀ a, asid = some a → e.global = false ∧ e.asid = a) ∧ ∀ p, page = some p → e.vpn / 512 ^ e.level = p / 512 ^ e.level

/-- R86, R87, R88, R348: from U-mode under Sv48 an LD of a canonical global address that no TLB entry translates puts the slot in WALK on a new refill request; one that an entry forbids
puts it in PAGE and posts a fault record, whose bytes as one number hold the slot's `wslot`, cause 13, its PID, SID and ASID, KIND 0 for a load, the address
and the die's clock (R348); one outside the canonical range traps with cause 5. No register changes. R86, R87, R350, R351: a refill whose page the die's second-level TLB holds installs it in the core's TLB, as its latest entry, and its slots go on at their instructions; a refill whose entry an
invalidation since its start removes is made again, and takes 32 cycles. -/
def Obligations.TranslationMissesAndRefills : Prop :=
  (∀ (rd rs1 : BitVec 5) (s : State), s.Running → s.me.mode = .u → s.Full (.x rs1) → s.Free (.x rd) → field s.me.c.satp 60 4 = 9 → (s.x rs1).toNat % 8 = 0 →
     0x200000 ≤ (s.x rs1).toNat →
     let va := s.x rs1
     let canonical : Prop := va = (va.setWidth 48).signExtend 64
     let asid := field s.me.c.satp 44 10
     let found := s.here.tlb.find? fun e => e.hits (field va 12 36) asid
     (¬ canonical → exec (.ld rd rs1 0) s = .next (s.trap 5 va)) ∧
     (canonical → found = none → s.here.walks = [] → ∃ t w, exec (.ld rd rs1 0) s = .next t ∧ t.me.st = .walk ∧ t.me.pc = s.me.pc ∧ t.me.x = s.me.x ∧ t.me.xs = s.me.xs ∧
       t.here.walks = [w] ∧ w.vpn = field va 12 36 ∧ w.asid = asid ∧ w.slots = [(s.curSlot, va, 0)] ∧ SameMemory s t ∧
       ∃ d ∈ t.agenda, d.act = .event (.tlbRefill s.curCore w.id) ∧ s.cycle + 32 ≤ d.cycle) ∧
     (∀ e, canonical → s.curSlot < 15 → found = some e → e.perm.getLsbD 4 = false → (s.die (dieOf s.curCore)).flt.full 64 = false →
       ∃ t, exec (.ld rd rs1 0) s = .next t ∧ t.me.st = .page ∧ t.me.pc = s.me.pc ∧ t.me.x = s.me.x ∧ t.me.xs = s.me.xs ∧ SameMemory s t ∧
         let ring := (s.die (dieOf s.curCore)).flt
         (t.die (dieOf s.curCore)).flt = { ring with
           tail := (ring.tail + 1) % 128
           recs := KMap.put ring.recs (ring.tail % 64) (BitVec.ofNat 2048 (s.wslotLow s.curCore s.curSlot + 13 * 2 ^ 24 + (s.me.pid.getD 0x1FFFFF) * 2 ^ 32 +
             s.here.sid * 2 ^ 64 + asid * 2 ^ 76 + va.toNat * 2 ^ 128 + (s.clock (dieOf s.curCore)).toNat * 2 ^ 192)) })) ∧
  (∀ (s : State) (c i id : Nat) (va : Word) (kind : Nat) (w : Walk), i < 16 → (s.core c).walks = [w] → w.id = id → w.cut = none → w.slots = [(i, va, kind)] → (s.slot c i).st = .walk →
     ∀ e, (s.die (dieOf c)).tlb2.find? (fun e => e.hits w.vpn w.asid) = some e →
     let meets := fun n : Inval => removes n.asid n.page { e with vpn := w.vpn }
     ((∀ n ∈ w.met, ¬ meets n) → ∃ t, exec (.tlbRefill c id) s = .next t ∧ (t.core c).walks = [] ∧
       (t.slot c i).st = .ready ∧ (t.slot c i).pc = (s.slot c i).pc ∧ (t.slot c i).x = (s.slot c i).x ∧ SameMemory s t ∧
       ∃ f, (t.core c).tlb.getLast? = some f ∧ f.ppn = e.ppn ∧ f.perm = e.perm ∧ f.level = e.level ∧ f.asid = e.asid ∧ f.hits w.vpn w.asid = true) ∧
     ((∃ n ∈ w.met, meets n) → ∃ t, exec (.tlbRefill c id) s = .next t ∧ (t.core c).walks = [{ w with met := [] }] ∧ (t.slot c i) = s.slot c i ∧
       (t.core c).tlb = (s.core c).tlb ∧ ∃ d ∈ t.agenda, d.act = .event (.tlbRefill c id) ∧ d.cycle = s.cycle + 32))

/-- R45, R351: SFENCE.VMA in M-mode, or in S-mode while TVM is 0, waits for the slot's earlier writes and then removes from the core's TLB exactly the entries that its operands name; elsewhere it is
illegal. A write of INV by any of its four commands removes them from the die's second-level TLB and from the TLB of every core of the die, and INV reads busy until INV_COMPLETE; that they are gone at
the write, INV_COMPLETE only clearing BUSY, is the model's reading of R351 (log 32). -/
def Obligations.InvalidationsRemoveEntries : Prop :=
  (∀ (rs1 rs2 : BitVec 5) (s : State), s.Running →
    let legal : Prop := s.me.mode = .m ∨ (s.me.mode = .s ∧ s.me.c.mstatus.getLsbD 20 = false)
    let asid := if rs2 = 0 then none else some (field (s.x rs2) 0 10)
    let page := if rs1 = 0 then none else some (field (s.x rs1) 12 36)
    (¬ legal → exec (.sfenceVma rs1 rs2) s = .next s.illegal) ∧
    (legal → s.Full (.x rs1) → s.Full (.x rs2) →
      ((∃ a ∈ s.me.accs, a.write = true) → ∃ t, exec (.sfenceVma rs1 rs2) s = .next t ∧ Waits s t .unlimited) ∧
      ((∀ a ∈ s.me.accs, a.write = false) → ∃ t, exec (.sfenceVma rs1 rs2) s = .next t ∧ (∀ e, e ∈ t.here.tlb ↔ e ∈ s.here.tlb ∧ ¬ removes asid page e) ∧
        t.me.pc = s.me.pc + 4 ∧ t.me.still = s.me.still ∧ SameMemory s t))) ∧
  (∀ (s : State) (d a p : Nat), d < 32 → (s.die d).inv = none →
    let does := fun (i : Instr) asid page => ∃ t, exec i s = .next t ∧ (t.die d).inv.isSome ∧ (∀ e, e ∈ (t.die d).tlb2 ↔ e ∈ (s.die d).tlb2 ∧ ¬ removes asid page e) ∧
      (∀ c, dieOf c = d → ∀ e, e ∈ (t.core c).tlb ↔ e ∈ (s.core c).tlb ∧ ¬ removes asid page e) ∧ (∀ c, dieOf c ≠ d → t.core c = s.core c) ∧ SameMemory s t ∧
      ∃ q ∈ t.agenda, q.act = .event (.invComplete d)
    does (.invAll d) none none ∧ does (.invAsid d a) (some a) none ∧ does (.invPage d p) none (some p) ∧ does (.invAsidPage d a p) (some a) (some p)) ∧
  (∀ (s : State) (d : Nat), ∃ t, exec (.invComplete d) s = .next t ∧ (t.die d).inv = none ∧ (t.die d).tlb2 = (s.die d).tlb2 ∧ { t with dies := s.dies } = s)

/-- R94, R145, R147, R197, R341, R353, R409: on the CSRs that a core's slots share, CSRRW from M-mode reads before it writes: a write of `wtrapq` sets WSEL and, with POP, makes the removal of the head the next event; a
write of `wwindata` takes effect at the end of the cycle; a write of `wasid` stores MODE, ASID and PPN, unless its MODE is neither 0 nor 9; a write of `wdmap` without WE sets SEL, with WE makes the write of the entry
the next event; `wgdata` makes the slot wait for the sideband. R94, R145, R341, R348: WTRAPQ_POP removes the head record; WDMAP_WRITE sets SEL and its entry, or nothing where the rectangle would pass the die's edge; WWINDATA stores the window's fields, or nothing where the window would reach the
service region or CLO exceeds CHI; a pending trap record is posted into a free place and wakes slot 15, and a pending fault record likewise, also where its process has ended (R348); one that came with a restored context is not
posted by these events (R353). Of the rest, no memory changes. -/
def Obligations.SharedCsrsAndRecords : Prop :=
  (∀ (rd rs1 : BitVec 5) (s : State), s.Running → s.me.mode = .m → s.Full (.x rs1) → s.Free (.x rd) → s.me.wait = none →
     let v := s.x rs1
     let writes := fun (n : BitVec 12) (old : Word) (m : State) => Completes (.csrrw rd rs1 n) s m (s.me.setX rd old)
     let next := fun (m : State) (e : Instr) => { m with agenda := { cycle := s.cycle, phase := 0, act := .event e } :: s.agenda }
     writes 0x5C0 s.here.readTrapq
       (let m := s.modHere fun k => { k with trapqSel := v.setWidth 2 }
        if v.getLsbD 2 then next m (.wtrapqPop s.curCore) else m) ∧
     writes 0x5C2 (vecGet s.here.win s.me.u.wwinsel.toNat 0) (s.schedule s.cycle 5 (.event (.wwindata s.curCore s.me.u.wwinsel.toNat v))) ∧
     writes 0x5C3 s.here.wasid
       (s.modHere fun k => { k with wasid := if field v 60 4 = 0 ∨ field v 60 4 = 9 then v &&& 0xF03FFFFFFFFFFFFF#64 else k.wasid }) ∧
     writes 0x5C4 (BitVec.ofNat 64 (s.here.dmapSel.toNat * 2 ^ 48 + ((KMap.get s.here.dmap s.here.dmapSel.toNat).getD 0).toNat))
       (if v.getLsbD 63 then next s (.wdmapWrite s.curCore v) else s.modHere fun k => { k with dmapSel := v.extractLsb' 48 8 }) ∧
     (∃ t, exec (.csrrw rd rs1 0x7C1) s = .next t ∧ t.me.st = .blocked ∧ t.me.waitKind = some (.wgdata rd 1 v) ∧ t.me.pc = s.me.pc ∧ t.me.still = s.me.still ∧ SameMemory s t)) ∧
  (∀ (s : State) (c : Nat),
     (∃ t, exec (.wtrapqPop c) s = .next t ∧ (t.core c).trapq = (s.core c).trapq.drop 1 ∧ SameMemory s t ∧ ∀ i, t.slot c i = s.slot c i) ∧
     (∀ v : Word,
       let rows := field (s.core c).wsheaf 8 5 + 1
       let cols := field (s.core c).wsheaf 0 4 + 1
       let fits : Prop := field v 15 5 + rows ≤ 32 ∧ field v 11 4 + cols ≤ 16
       (fits → ∃ t, exec (.wdmapWrite c v) s = .next t ∧ KMap.get (t.core c).dmap (field v 48 8) = some (v.setWidth 32 &&& 0xFFFFF800#32) ∧
         (t.core c).dmapSel = v.extractLsb' 48 8 ∧ (∀ n, n ≠ field v 48 8 → KMap.get (t.core c).dmap n = KMap.get (s.core c).dmap n) ∧ SameMemory s t) ∧
       (¬ fits → ∃ t, exec (.wdmapWrite c v) s = .next t ∧ t.core c = s.core c)) ∧
     (∀ (n : Nat) (v : Word), n < 8 →
       let fits : Prop := field v 6 15 * 64 + field v 21 16 * 64 ≤ 0x1E0000 ∧ field v 38 6 ≤ field v 44 6
       (fits → ∃ t, exec (.wwindata c n v) s = .next t ∧ vecGet (t.core c).win n 0 = v &&& 0x8FFFFFDFFFFFFFC0#64 ∧
         (∀ m, m ≠ n → vecGet (t.core c).win m 0 = vecGet (s.core c).win m 0) ∧ SameMemory s t) ∧
       (¬ fits → exec (.wwindata c n v) s = .next s)) ∧
     (∀ (i : Nat) (r : TrapRec), i < 15 → (s.slot c i).pendTrap = some r → (s.slot c i).recsHeld = false → r.slot = i → (∀ j < 16, j ≠ i → (s.slot c j).pendTrap = none) → (s.core c).trapq.length < 16 →
       (s.slot c 15).st = .ready → ∃ t, exec (.trapRecordPendingPost c) s = .next t ∧ (t.core c).trapq = (s.core c).trapq ++ [r] ∧ (t.slot c i).pendTrap = none ∧
         (t.slot c 15).token = true ∧ SameMemory s t) ∧
     ((∀ j < 16, (s.slot c j).pendTrap = none ∨ (s.slot c j).recsHeld = true) → exec (.trapRecordPendingPost c) s = .next s) ∧
     (∀ (i : Nat) (r : FaultRec) (k : Core), i < 16 → s.cores = [(c, k)] → k.faults = [] → (k.slot i).pendFault = some r → (k.slot i).recsHeld = false → (∀ j < 16, j ≠ i → (k.slot j).pendFault = none) →
       (s.die (dieOf c)).flt.full 64 = false → (s.die (dieOf c)).fltNotify = 0 → ∃ t, exec (.faultRecordPendingPost (dieOf c)) s = .next t ∧
         (t.slot c i).pendFault = none ∧ (t.die (dieOf c)).flt.tail = ((s.die (dieOf c)).flt.tail + 1) % 128 ∧ SameMemory s t) ∧
     (∀ (i : Nat) (r : FaultRec) (k : Core), i < 16 → s.cores = [(c, k)] → k.faults = [(i, r)] → (∀ j < 16, (k.slot j).pendFault = none) →
       (s.die (dieOf c)).flt.full 64 = false → (s.die (dieOf c)).fltNotify = 0 → ∃ t, exec (.faultRecordPendingPost (dieOf c)) s = .next t ∧
         (t.core c).faults = [] ∧ (t.die (dieOf c)).flt.tail = ((s.die (dieOf c)).flt.tail + 1) % 128 ∧ SameMemory s t) ∧
     (∀ (i : Nat) (w : Wait) (rd : BitVec 5) (v : Word), i < 16 → (s.slot c i).wait = some w → w.kind = .wgdata rd 1 v → edgeFacesOut (dieOf c) (field (s.slot c i).u.wgsel 24 2) = true →
       ∃ t, exec (.wgdata c i w.serial) s = .next t ∧ (t.slot c i).getX rd = 0 ∧ (t.slot c i).pc = (s.slot c i).pc + 4 ∧ (t.slot c i).wait = none ∧ SameBut s t c i))

/-! ### Channel messages and the deadlock service -/

/-- A channel message in the networks on its way to an endpoint. -/
def Sys2Proof.Claims.brings (s : State) (id core ep : Nat) (x : ChMsg) : Prop :=
  ∃ m, KMap.get s.net id = some m ∧ m.dst = core ∧ m.body = .chan ep x

/-- R109, R110, R111, R113, R227, R228, R235: what the messages of the CHN network do where they land, at an endpoint whose other end is on another core of the
panel. OFFER is posted, or is taken by the receive outstanding there, whose destination is FULL, and answered by ACK; ACK completes the blocked send with OK or
MISMATCH, OK where the send is withdrawing, or is kept while the slot is held; RECV is recorded; WITHDRAW removes a posted offer and is answered by WITHDRAWN, and otherwise does nothing; WITHDRAWN ends a withdrawing send with TIMEOUT, or a deadlock's
victim with STATUS VICTIM and a trap of cause 26 (R235); BROKEN
breaks the end and completes its blocked send with BROKEN. Each is counted as received. SEND_RELEASE sends the offer of a send that waited for its release, and
RECEIVE_TIMEOUT leaves the destination EMPTY with no producer and sends WITHDRAW. No memory changes. -/
def Obligations.ChannelMessagesAct : Prop :=
  ∀ (s : State) (id c ep : Nat) (e : Endpoint), s.endpoint c ep = some e → e.owner < 16 → e.peerCore ≠ c → e.peerCore < 16384 →
    let q := s.slot c e.owner
    let sends := fun (t : State) (x : ChMsg) => ∃ n, brings t n e.peerCore e.peerEp x
    let lands := fun (i : Instr) (P : State → Slot → Prop) => ∃ t, exec i s = .next t ∧ (t.core c).receivedTotal = (s.core c).receivedTotal + 1 ∧ SameMemory s t ∧
      P t (t.slot c e.owner)
    let completes := fun (r : Slot) (status : Nat) => r.pc = q.pc + 4 ∧ r.wait = none ∧ r.x = q.x ∧ r.v = q.v ∧ field r.u.wchst 0 4 = status
    let receiving := fun (r : Recv) (d : BitVec 5) => q.recvs = [r] ∧ r.ch = ep ∧ r.dst = .x d ∧ d ≠ 0 ∧ (q.xState d).prod = some (.receive ep)
    (∀ o, brings s id c ep (.offer o) → e.broken = false → e.recvOut = none → lands (.offer id) fun t r =>
      (t.endpoint c ep).bind (·.offer) = some o ∧ r = q) ∧
    (∀ o r d, brings s id c ep (.offer o) → e.broken = false → e.recvOut = some false → o.vec = false → receiving r d → lands (.offer id) fun t r =>
      r.getX d = o.value.setWidth 64 ∧ r.xState d = RegSt.full ∧ r.recvs = [] ∧ field r.u.wchst 0 4 = 0 ∧ sends t (.ack false)) ∧
    (∀ w ph wrong, brings s id c ep (.ack wrong) → q.wait = some w → w.kind = .send ep ph →
      let status := if wrong ∧ e.withdrawing = false then 2 else 0
      (q.hold = false → lands (.ack id) fun _ r => completes r status) ∧
      (q.hold = true → lands (.ack id) fun t r => r = q ∧ (t.endpoint c ep).bind (·.ackKept) = some status)) ∧
    (∀ pid, brings s id c ep (.recv pid) → lands (.recv id) fun t r => (t.endpoint c ep).bind (·.recvRec) = some pid ∧ r = q) ∧
    (brings s id c ep .withdraw → e.sending = false →
      (e.offer.isSome → lands (.withdraw id) fun t r => (t.endpoint c ep).bind (·.offer) = none ∧ r = q ∧ sends t .withdrawn) ∧
      (e.offer = none → lands (.withdraw id) fun t r => t.endpoint c ep = some e ∧ r = q)) ∧
    (∀ w, brings s id c ep .withdrawn → q.wait = some w → w.kind = .send ep .withdrawing → e.withdrawing = true → q.hold = false →
      (e.victim = none → q.u.wtmo.getLsbD 63 = false → lands (.withdrawn id) fun t r => completes r 1 ∧ (t.endpoint c ep).map (·.sendPending) = some false) ∧
      (∀ count, e.victim = some count → e.owner < 15 → lands (.withdrawn id) fun t r => r.st = .faulted ∧ r.pc = q.pc ∧ r.x = q.x ∧ r.v = q.v ∧
        field r.u.wchst 0 4 = 4 ∧ (t.endpoint c ep).map (·.sendPending) = some false ∧
        ∃ z, r.pendTrap = some z ∧ z.slot = e.owner ∧ z.cause = 26 ∧ z.pc = q.pc ∧ z.tval = BitVec.ofNat 64 count ∧ z.extra = BitVec.ofNat 64 ep)) ∧
    (∀ w, brings s id c ep .broken → q.wait = some w → w.kind = .send ep .offered → q.hold = false → q.recvs = [] → lands (.broken id) fun t r =>
      completes r 3 ∧ (t.endpoint c ep).map (fun f => (f.broken, f.sendPending)) = some (true, false)) ∧
    (∀ w o, q.wait = some w → w.kind = .send ep (.release o) → e.broken = false → ∃ t, exec (.sendRelease c e.owner w.serial) s = .next t ∧
      (t.slot c e.owner).waitKind = some (.send ep .offered) ∧ (t.slot c e.owner).pc = q.pc ∧ (t.slot c e.owner).x = q.x ∧
      (t.endpoint c ep).map (·.sendPending) = some true ∧ sends t (.offer o) ∧ SameMemory s t) ∧
    (∀ r d, receiving r d → ∃ t, exec (.receiveTimeout c e.owner r.serial) s = .next t ∧ (t.slot c e.owner).xState d = { fe := .empty, prod := none } ∧
      (t.slot c e.owner).x = q.x ∧ (t.slot c e.owner).recvs = [] ∧ field (t.slot c e.owner).u.wchst 0 4 = 1 ∧ (t.endpoint c ep).bind (·.recvOut) = none ∧
      sends t .withdraw ∧ SameMemory s t)

/-- A slot that waits for a receive's value, on one edge, is a node of the wait-for graph (R230): its receive is outstanding at an endpoint of its own whose other end
is on another core of the panel. -/
structure Sys2Proof.Claims.AwaitsReceive (s : State) (c i : Nat) (w : Wait) (r : Recv) (d : BitVec 5) (e : Endpoint) : Prop where
  slot : i < 15
  blocked : (s.slot c i).st = .blocked
  held : (s.slot c i).hold = false
  wait : (s.slot c i).wait = some w
  kind : ∃ more dst, w.kind = .source (.x d) more dst
  dest : d ≠ 0 ∧ r.dst = .x d
  prod : ((s.slot c i).xState d).prod = some (.receive r.ch)
  receive : (s.slot c i).recvs = [r]
  ends : s.endpoint c r.ch = some e
  owner : e.owner = i
  side : e.sending = false
  open_ : e.broken = false
  peer : e.peerCore ≠ c ∧ e.peerCore < 16384

/-- R231 to R235, R239: the probe timer of a node that waits for a receive and has sent no probe sends one on its edge, with its process and block sequence number, one member
and one hop, once a period has passed since the wait began, and runs again within a period. A probe that comes back to its initiator, or a last REPLY to it, with the sequence number unchanged, confirms a
deadlock: a record is appended to the die's queue, the receive is withdrawn with STATUS VICTIM, and the slot takes a trap of cause 26, whose record, with the member count in tval and the
endpoint in extra, is posted at the end of the cycle. A probe with another sequence number, and a REPLY before the last, change neither its state nor its registers. -/
def Obligations.DeadlocksAreConfirmed : Prop :=
  ∀ (s : State) (c i : Nat) (w : Wait) (r : Recv) (d : BitVec 5) (e : Endpoint), AwaitsReceive s c i w r d e →
    let q := s.slot c i
    let own := fun p : Probe => p.init = q.pidWord ∧ p.root = q.pidWord
    let victim := fun (t : State) (count : Nat) =>
      (t.slot c i).st = .faulted ∧ (t.slot c i).pc = q.pc ∧ (t.slot c i).x = q.x ∧ (t.slot c i).xState d = { fe := .empty, prod := none } ∧ (t.slot c i).recvs = [] ∧
      field (t.slot c i).u.wchst 0 4 = 4 ∧ field (t.slot c i).u.wchst 8 8 = r.ch % 256 ∧ SameMemory s t ∧
      (∃ z, (t.slot c i).pendTrap = some z ∧ z.slot = i ∧ z.cause = 26 ∧ z.pc = q.pc ∧ z.tval = BitVec.ofNat 64 (min count 0xFFFF) ∧
        z.extra = BitVec.ofNat 64 r.ch) ∧
      (∃ a ∈ t.agenda, a.act = .event (.trapRecordPendingPost c) ∧ a.cycle = s.cycle) ∧
      ((s.die (dieOf c)).dlk.full 16 = false → (t.die (dieOf c)).dlk.tail = ((s.die (dieOf c)).dlk.tail + 1) % 32)
    (s.probePeriod c ≠ 0 → q.lastProbe = none → w.since + s.probePeriod c ≤ s.cycle → ∃ t, exec (.probeTimer c i w.serial) s = .next t ∧
      (∃ n m p, KMap.get t.net n = some m ∧ m.dst = e.peerCore ∧ m.body = .probe e.peerEp false p ∧ own p ∧ p.initSeq = q.bseq.toNat ∧ p.rootSeq = q.bseq.toNat ∧
        p.orRooted = false ∧ p.hops = 1 ∧ p.count = 1 ∧ p.list = [{ pid := q.pidWord, kind := 1 }]) ∧
      (t.slot c i).st = .blocked ∧ (t.slot c i).x = q.x ∧ SameMemory s t ∧
      ∃ a ∈ t.agenda, a.act = .event (.probeTimer c i w.serial) ∧ a.cycle ≤ s.cycle + s.probePeriod c) ∧
    (s.probePeriod c ≠ 0 → q.lastProbe = none → s.cycle < w.since + s.probePeriod c → ∃ t, exec (.probeTimer c i w.serial) s = .next t ∧
      { t with agenda := s.agenda } = s ∧ ∃ a ∈ t.agenda, a.act = .event (.probeTimer c i w.serial) ∧ a.cycle ≤ w.since + s.probePeriod c) ∧
    (∀ (id ep : Nat) (m : Msg) (p : Probe) (f : Endpoint), KMap.get s.net id = some m → m.dst = c → m.body = .probe ep true p → s.endpoint c ep = some f → f.owner = i →
      ep ≠ r.ch → own p → p.orRooted = false → p.hops ≠ (s.core c).processes → f.offer.any (fun o => o.pid == p.from_) = true →
      (p.initSeq = q.bseq.toNat → ∃ t, exec (.probe id) s = .next t ∧ victim t p.count) ∧
      (p.initSeq ≠ q.bseq.toNat → ∃ t, exec (.probe id) s = .next t ∧ t.slot c i = q ∧ SameMemory s t)) ∧
    (∀ (id : Nat) (m : Msg) (k : Mark) (list : List Member) (count : Nat), KMap.get s.net id = some m → m.dst = c → q.marks = [k] → k.init = q.pidWord →
      k.seq = q.bseq.toNat → m.body = .reply i k.init k.seq q.pidWord q.bseq.toNat list count →
      (k.pending = 1 → ∃ t, exec (.reply id) s = .next t ∧ victim t (min (k.count + count) 0xFFFF)) ∧
      (2 ≤ k.pending → ∃ t, exec (.reply id) s = .next t ∧ (t.slot c i).marks = [{ k with
        pending := k.pending - 1
        gathered := (k.gathered ++ list).take 32
        count := min (k.count + count) 0xFFFF }] ∧ { t.slot c i with marks := q.marks } = q ∧ SameMemory s t))

/-! ### The tensor unit -/

/-- The matrix instructions and their format numbers (R274, R275). -/
noncomputable def Sys2Proof.Claims.mmaOps : List ((BitVec 3 → BitVec 5 → BitVec 5 → Bool → Instr) × Nat) :=
  [(.mmaFp8, 0), (.mmaBf16, 1), (.mmaFp16, 2), (.mmaMxf8, 3), (.mmaMxf4, 4), (.mmaDxb8, 5), (.mmaDxb4, 6), (.mmaI8, 7)]

/-- A tensor operand within the local alias below the service region, whatever its format: sixteen rows and their exponent bytes (R270, R273). -/
def Sys2Proof.Claims.operandFits (a : Word) (stride : Nat) : Prop :=
  a.toNat % 64 = 0 ∧ a.toNat + 15 * (if stride = 0 then 128 else stride * 64) + 128 ≤ 0x1E0000 ∧ a.toNat + 2304 ≤ 0x1E0000

/-- The step `s` to `t` changes of the slot only its accesses, and moves it past its instruction; it changes no memory and, of the accumulators, only `acc`. -/
structure Sys2Proof.Claims.TensorStep (s t : State) (acc : BitVec 3) : Prop where
  pc : t.me.pc = s.me.pc + 4
  rest : { t.me with accs := s.me.accs }.still = s.me.still
  others : ∀ n, n ≠ acc → t.here.getAcc n = s.here.getAcc n
  slots : ∀ c i, (c ≠ s.curCore ∨ i ≠ s.curSlot) → t.slot c i = s.slot c i
  memory : SameMemory s t

/-- No read of an accumulator traps (R48): it is FULL, or EMPTY with its `wfetrap` bit clear. -/
def Sys2Proof.Claims.untrapped (s : State) (acc : BitVec 3) : Prop :=
  (s.here.getAcc acc).reg.fe = .full ∨ ((s.here.getAcc acc).reg.fe = .empty ∧ s.me.u.wfetrap.getLsbD (48 + acc.toNat) = false)

/-- R48, R275, R277, R279, R315, R328: MACQ acquires a free accumulator, completes on an owned one, and waits for another slot's; MREL releases it; MZERO writes zeros and clears its flags, FULL. An
`mma` of any format whose operands lie in the local alias, in M-mode, leaves its accumulator EMPTY with its value and the tensor unit as its producer, and enqueues itself with the
operands, formats, strides and scales as at issue; it waits while no drain tile is free or the slot has an `mma` that has not started. Without ownership MREL, MZERO and the `mma`s trap
with cause 28; an accumulator to be read that is POISONED, or EMPTY under `wfetrap`, traps with cause 24 or 25, before any check of an operand; a misaligned operand traps
with cause 4, a reserved element kind with cause 31. That B's alignment is checked before A's range is the model's choice (log 115). -/
def Obligations.TensorInstructionsIssue : Prop :=
  ∀ (acc : BitVec 3) (rs1 rs2 : BitVec 5) (z : Bool) (s : State), s.Running →
    let a := s.here.getAcc acc
    let mine : Prop := a.owner = some s.curSlot
    let becomes := fun (i : Instr) (b : Acc) => Completes i s (s.modHere fun k => k.modAcc acc fun _ => b) s.me
    (a.owner = none → becomes (.macq acc) { a with owner := some s.curSlot }) ∧
    (mine → Completes (.macq acc) s s s.me) ∧
    (∀ i, a.owner = some i → i ≠ s.curSlot → ∃ t, exec (.macq acc) s = .next t ∧ Waits s t (.macq acc.toNat)) ∧
    (mine → becomes (.mrel acc) { a with owner := none }) ∧
    (mine → s.Free (.acc acc) → s.Unheld → becomes (.mzero acc) { a with
      words := 0
      afl := 0
      reg := RegSt.full }) ∧
    (¬ mine → ∀ i ∈ [Instr.mrel acc, .mzero acc] ++ mmaOps.map (fun p => p.1 acc rs1 rs2 z), exec i s = .next (s.trap 28 (acc.setWidth 64))) ∧
    (mine → z = false → s.Full (.x rs1) → s.Full (.x rs2) → ∀ p ∈ mmaOps, let i := p.1 acc rs1 rs2 z
      (a.reg.fe = .poisoned → exec i s = .next (s.trap 24 (BitVec.ofNat 64 (64 + acc.toNat)))) ∧
      (a.reg.fe = .empty → s.me.u.wfetrap.getLsbD (48 + acc.toNat) = true → exec i s = .next (s.trap 25 (BitVec.ofNat 64 (64 + acc.toNat))))) ∧
    (mine → s.Full (.x rs1) → s.Full (.x rs2) → z = true ∨ untrapped s acc → ∀ p ∈ mmaOps,
      let i := p.1 acc rs1 rs2 z
      let kinds : Prop := p.2 = 0 ∨ p.2 = 3 → field s.me.u.wfmt 0 2 < 2 ∧ field s.me.u.wfmt 2 2 < 2
      ((s.x rs1).toNat % 64 ≠ 0 → exec i s = .next (s.trap 4 (s.x rs1))) ∧
      ((s.x rs1).toNat % 64 = 0 → (s.x rs2).toNat % 64 ≠ 0 → exec i s = .next (s.trap 4 (s.x rs2))) ∧
      (s.me.mode = .m → operandFits (s.x rs1) (field s.me.u.wmstr 6 10) → operandFits (s.x rs2) (field s.me.u.wmstr 22 10) →
        (¬ kinds → exec i s = .next (s.trap 31 0)) ∧
        (kinds → s.Free (.acc acc) → (z = false → s.Full (.acc acc)) →
          (s.here.th.tiles.length < 4 → (∀ o ∈ s.here.tq, o.slot ≠ s.curSlot) → s.Unheld → ∃ t o, exec i s = .next t ∧ TensorStep s t acc ∧
            t.here.getAcc acc = { a with reg := { fe := .empty, prod := some .tensor } } ∧ t.here.tq = s.here.tq ++ [o] ∧ o.slot = s.curSlot ∧ o.acc = acc.toNat ∧
            o.a = s.x rs1 ∧ o.b = s.x rs2 ∧ o.fmt.toNat = p.2 ∧ o.z = z ∧ o.next = 0 ∧ o.poison = false ∧ o.wfmt = s.me.u.wfmt ∧ o.wscl = s.me.u.wscl ∧
            o.wmstr = s.me.u.wmstr ∧ t.me.accs = s.me.accs ++ [{ id := o.access, path := .mx, scope := .core, write := false }] ∧
            (s.here.trun = none → ∃ d ∈ t.agenda, d.act = .event (.mmaStart s.curCore))) ∧
          (4 ≤ s.here.th.tiles.length → ∃ t, exec i s = .next t ∧ Waits s t (.mma true)) ∧
          (s.here.th.tiles.length < 4 → (∃ o ∈ s.here.tq, o.slot = s.curSlot) → ∃ t, exec i s = .next t ∧ Waits s t (.mma false)))))

/-- The bytes of a row of the drain targets: FP32, BF16, FP16, E4M3, E5M2, INT32, INT8, and from 8 on MXFP8 of E4M3 and of E5M2, MXFP4, DXB8 and
DXB4 (R280). -/
def Sys2Proof.Claims.targetRow (tgt : Nat) : Nat := ([64, 32, 32, 16, 16, 64, 16, 0, 32, 32, 16, 32, 16][tgt]?).getD 0

/-- The format of a floating-point target 0 to 4, and the block format of a target 8 to 12 (R280). -/
def Sys2Proof.Claims.targetFmt (tgt : Nat) : Fmt := ([Fmt.fp32, .bf16, .fp16, .e4m3, .e5m2][tgt]?).getD .fp32
def Sys2Proof.Claims.targetBlock (tgt : Nat) : BlockFmt :=
  ([BlockFmt.mx .e4m3, .mx .e5m2, .mx .e2m1, .dxb 6, .dxb 2][tgt - 8]?).getD (.dxb 2)

/-- A value times a power of two. -/
def Sys2Proof.Claims.timesPow (x : Machine.Num) (e : Int) : Machine.Num :=
  match x with
  | .fin d => .fin { n := d.n, e := d.e + e }
  | y => y

/-- What a drain to a target 0 to 6 makes of a word: the FP32 value times 2^SD rounded once, the word itself, or the integer clamped to
8 bits (R281). -/
def Sys2Proof.Claims.drainCode (tgt : Nat) (sd : Int) (w : Nat) : Nat :=
  if tgt ≤ 4 then ((targetFmt tgt).round .rne (timesPow (Fmt.fp32.decode w) sd)).1
  else if tgt = 5 then w
  else ((max (-128) (min 127 (BitVec.ofNat 32 w).toInt)) % 256).toNat

/-- Row `i` of a drain's snapshot, `b` the words of the second accumulator of a block target: its bytes and its exponent bytes (R280, R281, R326). -/
def Sys2Proof.Claims.drainRow (tgt : Nat) (sd : Int) (spread : Nat) (a b : AccWord) (i : Nat) : List Byte × List Byte :=
  let word := fun (x : AccWord) j => field x (32 * (16 * i + j)) 32
  if tgt ≤ 6 then
    let n := targetRow tgt / 16
    ((List.range (16 * n)).map fun k => BitVec.ofNat 8 (drainCode tgt sd (word a (k / n)) / 256 ^ (k % n)), [])
  else
    let q := (targetBlock tgt).quantise spread ((List.range 32).map fun j => Fmt.fp32.decode (if j < 16 then word a j else word b (j - 16)))
    let code := fun j => q.1.getD j 0
    (if tgt = 10 ∨ tgt = 12 then (List.range 16).map fun k => BitVec.ofNat 8 (code (2 * k) % 16 + 16 * (code (2 * k + 1) % 16))
      else (List.range 32).map fun k => BitVec.ofNat 8 (code k),
     if tgt ≤ 10 then [BitVec.ofNat 8 q.2.1] else [BitVec.ofNat 8 q.2.1, BitVec.ofNat 8 q.2.2.1])

/-- A control word of a drain, without reserved bits, of a target of the table, and a row distance that `wmstr` gives (R270, R280). -/
def Sys2Proof.Claims.drainForm (ctl wmstr : Word) (stride : Nat) : Prop :=
  field ctl 5 59 = 0 ∧ (field ctl 0 4 ≤ 6 ∨ (8 ≤ field ctl 0 4 ∧ field ctl 0 4 ≤ 12)) ∧ (field wmstr 36 12 = 0 ∨ targetRow (field ctl 0 4) ≤ field wmstr 36 12 * 16) ∧
    stride = if field wmstr 36 12 = 0 then targetRow (field ctl 0 4) else field wmstr 36 12 * 16

/-- What a drain does to its accumulator: zeros and no flags under CLR, nothing otherwise. -/
def Sys2Proof.Claims.drained (a : Acc) (ctl : Word) : Acc :=
  if ctl.getLsbD 4 then { a with
    words := 0
    afl := 0
    reg := RegSt.full }
  else a

/-- The parts of 64 bytes at an address that lie in one row of the scratchpad each: address, place among the bytes, length. -/
def Sys2Proof.Claims.rowPieces (a : Nat) : List (Nat × Nat × Nat) :=
  if a % 64 = 0 then [(a, 0, 64)] else [(a, 0, 64 - a % 64), (a / 64 * 64 + 64, 64 - a % 64, a % 64)]

/-- R279 to R283: MLOAD of an aligned tile leaves its accumulator EMPTY and starts its sixteen rows: row i is first attempted in the banks in cycle
t + 4 + i, and goes to word row i of the accumulator. MDRAIN of a FULL accumulator to any target, of two
where the target is a block format, and MDRAIN.D and MDRAIN.Q to the targets legal in them, take the snapshot and go on: CLR leaves the accumulators zero and FULL; MDRAIN occupies a drain buffer and puts the writes of
its rows and exponent bytes, and no others, before the banks, row i first attempted in cycle t + 4 + i and the exponents in cycle t + 20; MDRAIN.D keeps sixteen places of the outbound queue, which its rows enter in cycles t + 4 to t + 19, MDRAIN.Q takes a tile of the drain
queue. A row holds the words times 2^SD rounded once to the target's format, the integers themselves or clamped to 8 bits, or the codes of the row's block of
32 values, whose quantisation VectorConversionResults states; that the sixteen places are kept from issue is the model's reading of R282 (log 46). A control word with a reserved bit traps with cause 31, an accumulator that the slot does not own, the second of a block target among them, with cause 28, before it, and with both buffers busy a drain waits. Of the registers, only `wvflags` changes. -/
def Obligations.LoadsAndDrainsStart : Prop :=
  ∀ (acc : BitVec 3) (rs1 rs2 : BitVec 5) (s : State), s.Running → s.Full (.x rs1) → s.Full (.x rs2) →
    let a := s.here.getAcc acc
    let d := s.x rs1
    let ctl := s.x rs2
    let mine : Prop := a.owner = some s.curSlot
    let busy : Prop := 2 ≤ (s.here.drains.filter fun x => x.left != 0).length
    let drains := [Instr.mdrain acc rs1 rs2 false, .mdrainD acc rs1 rs2 false, .mdrainQ acc rs1 rs2 false]
    let onlyFlags := fun (t : State) => { t.me with
      accs := s.me.accs
      u := { t.me.u with wvflags := s.me.u.wvflags } }.still = s.me.still
    let snapshot := fun (t : State) => t.me.pc = s.me.pc + 4 ∧ onlyFlags t ∧
      (∀ n, t.here.getAcc n = if n = acc ∨ (8 ≤ field ctl 0 4 ∧ n = acc + 1) then drained (s.here.getAcc n) ctl else s.here.getAcc n) ∧
      (∃ n, t.here.drains.map (fun x => (x.id, x.slot, x.acc, x.amax)) = s.here.drains.map (fun x => (x.id, x.slot, x.acc, x.amax)) ++ [(n, s.curSlot, acc.toNat, none)]) ∧
      SameMemory s t
    (¬ mine → ∀ i ∈ Instr.mload acc rs1 :: drains, exec i s = .next (s.trap 28 (acc.setWidth 64))) ∧
    (mine → untrapped s acc →
      let pair : Prop := acc.toNat % 2 = 0 ∧ 8 ≤ field ctl 0 4 ∧ field ctl 0 4 ≤ 12
      let second : Prop := (s.here.getAcc (acc + 1)).owner = some s.curSlot
      (pair → ¬ second → ∀ i ∈ drains, exec i s = .next (s.trap 28 ((acc + 1).setWidth 64))) ∧
      (field ctl 5 59 ≠ 0 → (pair → second ∧ untrapped s (acc + 1)) → ∀ i ∈ drains, exec i s = .next (s.trap 31 0))) ∧
    (mine → d.toNat % 16 ≠ 0 → exec (.mload acc rs1) s = .next (s.trap 4 d)) ∧
    (mine → s.Free (.acc acc) → s.Unheld → s.me.mode = .m → d.toNat % 16 = 0 → d.toNat + 15 * (if field s.me.u.wmstr 36 12 = 0 then 64 else field s.me.u.wmstr 36 12 * 16) + 64 ≤ 0x1E0000 →
      ∃ t m, exec (.mload acc rs1) s = .next t ∧ TensorStep s t acc ∧ t.here.getAcc acc = { a with reg := { fe := .empty, prod := some .tensor } } ∧
        KMap.get t.here.mloads acc.toNat = some m ∧ m.slot = s.curSlot ∧ m.words = 0 ∧ m.poison = false ∧
        (let pieces := (List.range 16).flatMap fun i =>
           (rowPieces (d.toNat + i * (if field s.me.u.wmstr 36 12 = 0 then 64 else field s.me.u.wmstr 36 12 * 16))).map fun p => (i, p)
         m.left = pieces.length ∧
         t.here.bank = s.here.bank ++ pieces.map fun p =>
           { cls := .tensor, bank := p.2.1 / 64 % 32, first := s.cycle + 4 + p.1, act := .mloadRow acc.toNat p.2.1 (64 * p.1 + p.2.2.1) p.2.2.2 }) ∧
        (∀ i < 16, ∃ e ∈ t.agenda, e.act = .event (.bankGrant s.curCore) ∧ e.cycle = s.cycle + 4 + i) ∧ t.me.accs = s.me.accs ++ [{ id := m.access, path := .mx, scope := .core, write := false }]) ∧
    (∀ stride, mine → s.Full (.acc acc) → s.Free (.acc acc) → drainForm ctl s.me.u.wmstr stride →
      let tgt := field ctl 0 4
      let b := s.here.getAcc (acc + 1)
      let step := if tgt ≤ 10 then 8 else 16
      let row := drainRow tgt (s.me.u.wscl.extractLsb' 16 8).toInt (field s.me.u.wfmt 8 4) a.words b.words
      (s.me.mode = .m → d.toNat % 16 = 0 → d.toNat + 15 * stride + targetRow tgt ≤ 0x1E0000 →
        (8 ≤ tgt → acc.toNat % 2 = 0 ∧ b.owner = some s.curSlot ∧ s.Full (.acc (acc + 1)) ∧ d.toNat + 2048 + 15 * step + (if tgt ≤ 10 then 1 else 2) ≤ 0x1E0000) →
        (busy → ∃ t, exec (.mdrain acc rs1 rs2 false) s = .next t ∧ Waits s t .unlimited) ∧
        (¬ busy → s.Unheld → ∃ t n l, exec (.mdrain acc rs1 rs2 false) s = .next t ∧ snapshot t ∧
          t.me.accs = s.me.accs ++ [{ id := n, path := .mx, scope := .core, write := false }] ∧ t.here.bank = s.here.bank ++ l ∧
          let puts := fun (first to' : Nat) (y : Byte) => ∃ r ∈ l, r.cls = .tensor ∧ r.first = first ∧ ∃ segs, r.act = .drainRow n segs ∧
            ∃ g ∈ segs, g.1 ≤ to' ∧ g.2[to' - g.1]? = some y
          (∀ i < 16, ∀ k y, (row i).1[k]? = some y → puts (s.cycle + 4 + i) (d.toNat + i * stride + k) y) ∧
          (∀ i < 16, ∀ k y, (row i).2[k]? = some y → puts (s.cycle + 20) (d.toNat + 2048 + i * step + k) y) ∧
          (∀ first to' y, puts first to' y → ∃ i < 16, ∃ k, ((row i).1[k]? = some y ∧ to' = d.toNat + i * stride + k) ∨
            ((row i).2[k]? = some y ∧ to' = d.toNat + 2048 + i * step + k)))) ∧
      (∀ core, tgt ≤ 6 → s.here.checkDa s.panel s.me.mode d 16 = .ok (s.panel, core) → field d 0 21 + 15 * stride + targetRow (field ctl 0 4) ≤ 0x200000 → ¬ busy → s.Unheld →
        (16 < s.here.outbound → ∃ t, exec (.mdrainD acc rs1 rs2 false) s = .next t ∧ Waits s t .unlimited) ∧
        (s.here.outbound ≤ 16 → ∃ t x, exec (.mdrainD acc rs1 rs2 false) s = .next t ∧ snapshot t ∧ t.here.outq = s.here.outq ∧ t.here.drains = s.here.drains ++ [x] ∧
          x.rows.map (fun r => (r.off, r.size, r.target, r.asid, r.ready)) =
            (List.range 16).map (fun i => (field d 0 21 + i * stride, targetRow (field ctl 0 4), core, field s.here.wasid 44 10, s.cycle + 8 + i)) ∧
          (∀ i < 16, ∃ r, x.rows[i]? = some r ∧ ∀ k y, (row i).1[k]? = some y → field r.data (8 * k) 8 = y.toNat) ∧
          t.me.accs.length = s.me.accs.length + 16 ∧
          ∀ i < 16, ∃ e ∈ t.agenda, e.act = .event (.depositDepart s.curCore 0) ∧ e.cycle = s.cycle + 4 + i)) ∧
      (field ctl 0 4 = 0 → s.me.mode = .m → d.toNat % 64 = 0 → d.toNat + 64 ≤ 0x1E0000 → s.here.poisoned d.toNat 64 = false →
        (let p := planeDesc (BitVec.ofNat 512 (s.here.spad.load 64 d.toNat))
         p.src = 0 ∧ p.elems = 256 ∧ p.sfmt = 0) →
        ¬ busy → s.Unheld → s.here.th.tiles = [] → s.here.th.ops = [] → ∃ t, exec (.mdrainQ acc rs1 rs2 false) s = .next t ∧ t.me.pc = s.me.pc + 4 ∧ t.me.x = s.me.x ∧
          t.me.v = s.me.v ∧ t.me.m = s.me.m ∧ t.here.getAcc acc = drained a ctl ∧ SameMemory s t ∧
          (let h := vecGet s.here.grp (planeDesc (BitVec.ofNat 512 (s.here.spad.load 64 d.toNat))).gh 0
           ∀ g, KMap.get s.sow.groups (field h 0 12) = some g → g.used = true → h.getLsbD 63 = true → field h 16 4 = g.generation → s.curCore ∈ g.members → s.planes = [] →
            KMap.get t.here.th.tiles 0 = some (a.words, (s.me.u.wscl.extractLsb' 16 8).toInt) ∧ ∃ o, t.here.th.ops = [o] ∧ o.drain = true ∧ o.drainTile = some 0 ∧ o.slot = s.curSlot)))

/-- The products of one slice of `mma.i8`: the 32 signed bytes of row `i` of A and of row `j` of B that slice `k` covers, as the granted rows hold them (R273, R274). -/
def Sys2Proof.Claims.int8Products (r : TensorRun) (k i j : Nat) : Int :=
  let element := fun (base n : Nat) => (BitVec.ofNat 8 (rowByte r.data (base + 32 * k + n))).toInt
  let a := r.op.a.toNat + i * rowStride r.op.wmstr 6
  let b := r.op.b.toNat + j * rowStride r.op.wmstr 22
  ((List.range 32).map fun n => element a n * element b n).sum

/-- The exact value of element `n` of row `i` of an operand, from the bytes that its rows and exponent bytes hold, in the formats but INT8; none for
a NaN, a NaN block or an infinity (R271, R273, R274, R317, R318, R321, R325). -/
def Sys2Proof.Claims.tensorElement (r : TensorRun) (isB : Bool) (i n : Nat) : Option Dyad :=
  let x := if isB then r.op.b.toNat else r.op.a.toNat
  let base := x + i * rowStride r.op.wmstr (if isB then 22 else 6)
  let byte := fun p => rowByte r.data p
  let half := byte (base + 2 * n) + 256 * byte (base + 2 * n + 1)
  let nibble := byte (base + n / 2) / 16 ^ (n % 2) % 16
  let number := fun (f : Fmt) (code : Nat) (e : Int) => match f.decode code with
    | .fin d => some { n := d.n, e := d.e + e }
    | .zero _ => some { n := 0, e := 0 }
    | _ => none
  let kind := if field r.op.wfmt (if isB then 2 else 0) 2 = 1 then Fmt.e5m2 else .e4m3
  let scaled := fun (f : Fmt) (code : Nat) =>
    let e := byte (x + 2048 + 8 * i + n / 32)
    if e = 255 then none else number f code ((e : Int) - 127)
  let paired := fun (w code : Nat) =>
    let ea := byte (x + 2048 + 16 * i + 2 * (n / 32))
    let eb := byte (x + 2048 + 16 * i + 2 * (n / 32) + 1)
    let m : Int := (code % 2 ^ w : Nat)
    let e := if code / 2 ^ (w + 1) % 2 = 0 then ea else eb
    if ea = 255 ∨ eb = 255 then none
    else some { n := if code / 2 ^ w % 2 = 1 then -m else m, e := (e : Int) - 127 - ((w : Int) - 1) }
  match r.op.fmt.toNat with
  | 0 => number kind (byte (base + n)) (r.op.wscl.extractLsb' (if isB then 8 else 0) 8).toInt
  | 1 => number .bf16 half 0
  | 2 => number .fp16 half 0
  | 3 => scaled kind (byte (base + n))
  | 4 => scaled .e2m1 nibble
  | 5 => paired 6 (byte (base + n))
  | 6 => paired 2 nibble
  | _ => none

/-- R274, R275, R276, R325: a slice of `mma.i8` adds to word (i, j) the products of row i of A and row j of B, clamped to 32 bits, and sets SAT where a clamp acts, bit 0 of the accumulator's flags in the model's order (log 46); a slice of a
format of numbers whose row of A or of B holds a NaN gives the canonical NaN, and so does one whose accumulator word is a NaN; where all of them
are finite, the word becomes the exact sum of the 32 products rounded to FP32 and then added to the word, rounded again (HeldValuesRoundToThemselves states the rounding). R277, R278, R279, R281, R284, R325, R327, R344: the oldest queued `mma` starts on a free tensor unit with a free drain tile, unthrottled; the slices that are over are applied, one after another; an `mma` of a slot
held since before the end of its slice stops with its partial sum in the accumulator; after the last slice of its format, of 2, 4 or 8, the `mma` completes, and its accumulator holds the result, FULL, or is POISONED with its value kept; the unit is free and the slot's access ends. An `mload` whose rows have arrived makes its
accumulator FULL with them and clears its flags, or POISONED with value and flags kept; the rows of an `mdrain.d` enter the outbound queue 4 cycles before they leave; a drain that is done frees its buffer and ends its access; an amax update that waits for nothing is enqueued. No memory changes. -/
def Obligations.TensorUnitRuns : Prop :=
  (∀ (r : TensorRun) (i j : Nat), i < 16 → j < 16 →
     let word := fun (x : AccWord) => field x (32 * (16 * i + j)) 32
     let after := r.applySlice
     let k := r.op.next
     after.op.next = k + 1 ∧
     (r.op.fmt = 7#4 →
       let exact : Int := (BitVec.ofNat 32 (word r.words)).toInt + int8Products r k i j
       (BitVec.ofNat 32 (word after.words)).toInt = max (-(2 ^ 31)) (min (2 ^ 31 - 1) exact) ∧
       (exact < -(2 ^ 31) ∨ 2 ^ 31 ≤ exact → after.afl.getLsbD 0 = true)) ∧
     (r.op.fmt.toNat < 7 → (((Fmt.fp32.decode (word r.words)).isNan = true) ∨
       ∃ n < 32, (r.op.elem r.data false i (32 * k + n)).isNan = true ∨ (r.op.elem r.data true j (32 * k + n)).isNan = true) → word after.words = 0x7FC00000) ∧
     (r.op.fmt.toNat < 7 → ∀ xa xb : Nat → Dyad,
       (∀ n < 32, tensorElement r false i (32 * k + n) = some (xa n) ∧ tensorElement r true j (32 * k + n) = some (xb n)) →
       (Fmt.fp32.decode (word r.words)).finite = true →
       let sum := (List.range 32).foldl (fun t n => Dyad.add t (Dyad.mul (xa n) (xb n))) { n := 0, e := 0 }
       let rounded := Fmt.fp32.decode (Fmt.fp32.round .rne (.of sum false)).1
       word after.words = (Fmt.fp32.round .rne (rounded.add (Fmt.fp32.decode (word r.words))).1).1)) ∧
  (∀ (s : State) (c : Nat),
     let k := s.core c
     (∀ op rest, k.tq = op :: rest → k.trun = none → k.th.tiles.length < 4 → s.sec.pthr = 0 → ∃ t r, exec (.mmaStart c) s = .next t ∧ (t.core c).tq = rest ∧
       (t.core c).trun = some r ∧ r.op = op ∧ r.start = s.cycle ∧ (t.core c).acc = k.acc ∧ SameMemory s t ∧
       (op.z = true → op.next = 0 → r.words = 0 ∧ r.afl = 0) ∧ (op.z = false → r.words = (k.getAcc (BitVec.ofNat 3 op.acc)).words) ∧
       ∃ d ∈ t.agenda, d.act = .event (.mmaSliceEnd c)) ∧
     (∀ r, k.trun = some r → r.early = 0 → r.late = 0 → r.abandon = none → r.earlyLast ≤ r.start + 7 → r.lateLast ≤ r.start + 15 → r.op.fmt.toNat < 8 →
       let n := [4, 2, 2, 4, 8, 4, 8, 4].getD r.op.fmt.toNat 0
       let ends := fun q => r.start + (q + 1) * (16 / n) - 1
       (∀ m, r.cut = none → 0 < m → r.op.next + m ≤ n → ends (r.op.next + m - 1) ≤ s.cycle → s.cycle < ends (r.op.next + m) →
         ∃ t, exec (.mmaSliceEnd c) s = .next t ∧ (t.core c).trun = some (Nat.repeat TensorRun.applySlice m r) ∧ (t.core c).acc = k.acc ∧ SameMemory s t ∧
           (if r.op.next + m = n then ∃ d ∈ t.agenda, d.act = .event (.mmaComplete c) ∧ d.cycle = s.cycle + 1
             else ∃ d ∈ t.agenda, d.act = .event (.mmaSliceEnd c) ∧ d.cycle = ends (r.op.next + m))) ∧
       (∀ x, r.cut = some x → x ≤ ends r.op.next → r.op.next + 1 < n → ends r.op.next ≤ s.cycle → r.op.slot < 16 → r.op.acc < 8 → (s.slot c r.op.slot).hold = true →
         ∃ t, exec (.mmaSliceEnd c) s = .next t ∧ (t.core c).trun = none ∧ (t.slot c r.op.slot).stopped = r.applySlice.op :: (s.slot c r.op.slot).stopped ∧
           ((t.core c).getAcc (BitVec.ofNat 3 r.op.acc)).words = r.applySlice.words ∧
           ((t.core c).getAcc (BitVec.ofNat 3 r.op.acc)).reg = (k.getAcc (BitVec.ofNat 3 r.op.acc)).reg ∧ SameMemory s t)) ∧
     (∀ r, k.trun = some r → r.op.fmt.toNat < 8 → [4, 2, 2, 4, 8, 4, 8, 4].getD r.op.fmt.toNat 0 ≤ r.op.next → r.op.acc < 8 → r.op.slot < 16 → ∃ t, exec (.mmaComplete c) s = .next t ∧ (t.core c).trun = none ∧ SameMemory s t ∧
       (∀ a ∈ (t.slot c r.op.slot).accs, a.id ≠ r.op.access) ∧ (t.slot c r.op.slot).x = (s.slot c r.op.slot).x ∧
       let a := k.getAcc (BitVec.ofNat 3 r.op.acc)
       (t.core c).getAcc (BitVec.ofNat 3 r.op.acc) = (if r.op.poison then { a with reg := { fe := .poisoned, prod := none } } else { a with
         words := r.words
         afl := r.afl
         reg := RegSt.full })) ∧
     (∀ (n : BitVec 3) m, KMap.get k.mloads n.toNat = some m → m.slot < 16 → ∃ t, exec (.mloadComplete c n.toNat) s = .next t ∧ KMap.get (t.core c).mloads n.toNat = none ∧
       (∀ a ∈ (t.slot c m.slot).accs, a.id ≠ m.access) ∧ SameMemory s t ∧
       (t.core c).getAcc n = (if m.poison then { k.getAcc n with reg := { fe := .poisoned, prod := none } } else { k.getAcc n with
         words := m.words
         afl := 0
         reg := RegSt.full })) ∧
     (∀ x r rest, k.drains = [x] → x.rows = r :: rest → r.core = c → r.awaited = [] → r.ready ≤ s.cycle + 4 → s.cycle ≤ r.ready → (∀ q ∈ rest, s.cycle + 4 < q.ready) →
       (∀ q ∈ k.outq, 0 < q.1) → 0 < s.nextId → ∃ t id, exec (.depositDepart c 0) s = .next t ∧ (t.core c).outq = k.outq ++ [(id, r)] ∧ (t.core c).drains = [{ x with rows := rest }] ∧
         SameMemory s t ∧ ∃ e ∈ t.agenda, e.act = .event (.depositDepart c id) ∧ e.cycle = r.ready) ∧
     (∀ x, k.drains = [x] → x.amax = none → x.slot < 16 → ∃ t, exec (.drainComplete c x.id) s = .next t ∧ (t.core c).drains = [] ∧
       (∀ a ∈ (t.slot c x.slot).accs, a.id ≠ x.id) ∧ (t.core c).acc = k.acc ∧ SameMemory s t) ∧
     (∀ x d, k.drains = [x] → x.amax = some d → x.left = 0 → d.awaited = [] → d.core = c → ∃ t id, exec (.amaxUpdate c x.id) s = .next t ∧ (t.core c).drains = [] ∧
       (t.core c).outq.map (·.2) = k.outq.map (·.2) ++ [{ d with ready := max d.ready s.cycle }] ∧ SameMemory s t ∧
       ∃ e ∈ t.agenda, e.act = .event (.depositDepart c id)))

/-! ### The Gleaner -/

/-- The status word of a list (R288). -/
def Sys2Proof.Claims.listWord (lid st done : Nat) : Word := BitVec.ofNat 64 (st + lid * 2 ^ 16 + min done 0xFFFF * 2 ^ 32)

/-- R287, R288, R289, R333: CE.GO of an aligned descriptor below the service region, in M-mode, with fewer than eight lists active, adds a list with the next LID (one that an active list holds is passed over: log 71), answers the LID, and counts one access on the ENG path;
with eight it waits; a misaligned address traps with cause 4, one outside the local alias with cause 5. CE.STAT and CE.WAIT answer the status word of a list: ACTIVE while it runs, its last word once it has
ended, UNKNOWN otherwise; CE.WAIT waits while it runs, and in its form for all lists while the slot has one, else it answers 0. CE.ABORT answers CE.STAT's word and aborts a list that runs. -/
def Obligations.GleanerInstructionResults : Prop :=
  ∀ (rd rs1 : BitVec 5) (s : State), s.Running → s.Full (.x rs1) → s.Free (.x rd) →
    let a := s.x rs1
    let g := s.here.gl
    let lid := field a 0 16
    let go := exec (.ceGo rd rs1) s
    (a.toNat % 64 ≠ 0 → go = .next (s.trap 4 a)) ∧
    (a.toNat % 64 = 0 → 0x200000 ≤ a.toNat → go = .next (s.trap 5 a)) ∧
    (a.toNat % 64 = 0 → a.toNat + 64 ≤ 0x1E0000 → s.me.mode = .m → s.Unheld →
      (8 ≤ g.lists.length → ∃ t, go = .next t ∧ Waits s t (.ceGo rd)) ∧
      (g.lists.length < 8 → ∃ t l, go = .next t ∧ t.here.gl.lists = g.lists ++ [l] ∧ (∀ m ∈ g.lists, m.lid ≠ l.lid) ∧
        (1 ≤ g.nextLid → g.nextLid ≤ 0xFFFF → (∀ m ∈ g.lists, m.lid ≠ g.nextLid) → l.lid = g.nextLid) ∧ l.slot = s.curSlot ∧ l.next = a.toNat ∧ l.wasid = s.here.wasid ∧
        l.wlocwin = s.me.u.wlocwin ∧ l.mode = s.me.mode ∧ l.inFlight = [] ∧ t.here.gl.nextLid = (if l.lid = 0xFFFF then 1 else l.lid + 1) ∧
        t.me.accs = s.me.accs ++ [{ id := l.access, path := .eng, scope := .core, write := false }] ∧ t.me.pc = s.me.pc + 4 ∧
        { t.me with accs := s.me.accs }.still = (s.me.setX rd (BitVec.ofNat 64 l.lid)).still ∧ SameMemory s t ∧
        ∃ d ∈ t.agenda, d.act = .event (.gleanerEntryStart s.curCore l.lid) ∧ d.cycle = s.cycle + 1)) ∧
    ((∀ l ∈ g.lists, l.lid ≠ lid) →
      let word := match g.kept.find? fun e => e.1 == lid with | some e => e.2 | none => listWord lid 15 0
      WritesX (.ceStat rd rs1) s rd word ∧ WritesX (.ceAbort rd rs1) s rd word ∧ (a.getLsbD 63 = false → WritesX (.ceWait rd rs1) s rd word)) ∧
    (∀ l, g.lists = [l] → l.lid = lid → WritesX (.ceStat rd rs1) s rd (listWord lid 14 l.done) ∧
      (a.getLsbD 63 = false → ∃ t, exec (.ceWait rd rs1) s = .next t ∧ Waits s t (.ceWait rd (some lid))) ∧
      ∃ t m, exec (.ceAbort rd rs1) s = .next t ∧ t.here.gl.lists = [m] ∧ m.aborted = true ∧ m.pending = none ∧ m.inFlight = l.inFlight ∧
        t.me.x = (s.me.setX rd (listWord lid 14 l.done)).x ∧ t.me.pc = s.me.pc + 4 ∧ SameMemory s t ∧
        (l.inFlight = [] → ∃ d ∈ t.agenda, d.act = .event (.gleanerListEnd s.curCore lid))) ∧
    (a.getLsbD 63 = true → (∃ l ∈ g.lists, l.slot = s.curSlot) → ∃ t, exec (.ceWait rd rs1) s = .next t ∧ Waits s t (.ceWait rd none)) ∧
    (a.getLsbD 63 = true → (∀ l ∈ g.lists, l.slot ≠ s.curSlot) → s.me.wait = none → WritesX (.ceWait rd rs1) s rd 0)

/-- One of some parts of an entry's work writes a byte at an address. -/
def Sys2Proof.Claims.writesByte (l : List GleanOp) (a : Nat) (b : Byte) : Prop := ∃ w bs, GleanOp.write w bs ∈ l ∧ w ≤ a ∧ bs[a - w]? = some b

/-- The magnitudes of an MXFP6 code and of the MXFP8 code that EXPAND6 writes for it, as whole multiples of the source's least one (R310, R320):
of E2M3 and E4M3, or with MOD of E3M2 and E5M2. The bit above the magnitude is the sign. -/
def Sys2Proof.Claims.sameValue6 (md : Bool) (x y : Nat) : Prop :=
  let mag := fun (f code : Nat) => let e := code / 2 ^ f; if e = 0 then code else (2 ^ f + code % 2 ^ f) * 2 ^ (e - 1)
  y < 256 ∧ y / 128 = x / 32 ∧
    if md then mag 2 (y % 128) = 2 ^ 12 * mag 2 (x % 32) else mag 3 (y % 128) = 2 ^ 6 * mag 3 (x % 32)

/-- R286, R332: over all its parts a FILL writes byte n of its destination with byte n mod 8 of its pattern, and no other byte; a part of a COPY whose source bytes have been read whole writes them at the same
offset of the destination, and one that met an uncorrectable error writes nothing. An element of a GATHER is written from the place that its index names, and not at all where a
row of it or of its index was affected; EXPAND6 writes for each packed code the code of the same value, and copies the scales; EXPAND24 places the two values of each group of four where its
metadata says, zeros elsewhere, and nothing where the metadata was affected; none of them writes a byte outside its destinations. A row of a DEPOSIT whose bytes were all read is one deposit of them at its offset, and no
deposit otherwise. R286, R288, R330, R331, R333: a list with nothing read and a place free reads its next descriptor in the next cycle; at an END it closes, at a CHAIN it goes on at its AUX. A translation that has arrived lets an access to
HBM leave. An entry that is done leaves the list, counts as done and raises its counter by 1 or by its bytes; a closing list with nothing in flight ends with its status word: COMPLETE and one entry more, ABORTED, or the status and
index it failed with; on a halted core none ends unless its sheaf is being killed (R220, R343). No memory changes. -/
def Obligations.CopyEngineWrites : Prop :=
  (∀ e : Entry,
     (e.op = 1 → ∀ got, (∀ n < e.len, ∃ i, writesByte (e.partWrites got i) (e.dst + n) (BitVec.ofNat 8 (e.aux / 2 ^ (8 * (n % 8))))) ∧
       ∀ i a b, writesByte (e.partWrites got i) a b → e.dst ≤ a ∧ a < e.dst + e.len ∧ b = BitVec.ofNat 8 (e.aux / 2 ^ (8 * ((a - e.dst) % 8)))) ∧
     (∀ (i off n : Nat) (got : List (Nat × Bytes)), e.op = 0 → partAt e.dst e.len i = some (off, n) → e.src + e.len ≤ 2 ^ 64 →
       ((∃ g ∈ got, none ∈ g.2) → e.partWrites got i = []) ∧
       ((∀ g ∈ got, none ∉ g.2) → ∀ k < n, ∀ b, gotByte got (e.src + off + k) = some b → writesByte (e.partWrites got i) (e.dst + off + k) b)) ∧
     (e.op = 2 → ∀ k < e.len, ∀ got,
       let affected : Prop := ∃ g ∈ got, none ∈ g.2
       (∀ b0 b1 b2 b3 : Byte, (e.pre.drop (4 * k)).take 4 = [some b0, some b1, some b2, some b3] →
         let a := e.src + (b0.toNat + 2 ^ 8 * b1.toNat + 2 ^ 16 * b2.toNat + 2 ^ 24 * b3.toNat) * e.aux2
         (affected → e.partWrites got k = []) ∧
         (¬ affected → ∀ n < e.aux2, ∀ b, gotByte got (a + n) = some b → writesByte (e.partWrites got k) (e.dst + k * e.aux2 + n) b)) ∧
       (none ∈ (e.pre.drop (4 * k)).take 4 → e.partWrites got k = []) ∧
       ∀ a b, writesByte (e.partWrites got k) a b → e.dst + k * e.aux2 ≤ a ∧ a < e.dst + (k + 1) * e.aux2) ∧
     (e.op = 3 → e.len % 32 = 0 → ∀ got,
       (∀ n < e.len, ∀ b0 b1 b2 : Byte, gotByte got (e.src + 3 * (n / 4)) = some b0 → gotByte got (e.src + 3 * (n / 4) + 1) = some b1 →
         gotByte got (e.src + 3 * (n / 4) + 2) = some b2 →
         let x := (b0.toNat + 2 ^ 8 * b1.toNat + 2 ^ 16 * b2.toNat) / 2 ^ (6 * (n % 4)) % 64
         ∃ i y, sameValue6 e.mod x y ∧ writesByte (e.partWrites got i) (e.dst + n) (BitVec.ofNat 8 y)) ∧
       (∀ n < e.len / 32, ∀ b, gotByte got (e.aux + n) = some b → ∃ i, writesByte (e.partWrites got i) (e.aux2 + n) b) ∧
       ∀ i a b, writesByte (e.partWrites got i) a b → (e.dst ≤ a ∧ a < e.dst + e.len) ∨ (e.aux2 ≤ a ∧ a < e.aux2 + e.len / 32)) ∧
     (e.op = 4 → e.len % 4 = 0 → ∀ got,
       let es := if e.mod then 2 else 1
       (∀ n < e.len * es,
         let g := n / (4 * es)
         let p := n / es % 4
         let puts := fun b => ∃ i, writesByte (e.partWrites got i) (e.dst + n) b
         (∀ m : Byte, e.pre[g / 2]? = some (some m) →
           let nib := m.toNat / 16 ^ (g % 2) % 16
           (p = nib % 4 → ∀ b, gotByte got (e.src + 2 * es * g + n % es) = some b → puts b) ∧
           (p = nib / 4 → p ≠ nib % 4 → ∀ b, gotByte got (e.src + 2 * es * g + es + n % es) = some b → puts b) ∧
           (p ≠ nib % 4 → p ≠ nib / 4 → puts 0)) ∧
         (e.pre[g / 2]? = some none → ∀ b, ¬ puts b)) ∧
       ∀ i a b, writesByte (e.partWrites got i) a b → e.dst ≤ a ∧ a < e.dst + e.len * es) ∧
     (e.op = 5 → ∀ i got,
       (∀ bs : List Byte, bs.length = 64 → (∀ k b, bs[k]? = some b → gotByte got (e.src + 64 * i + k) = some b) → e.partWrites got i = [.deposit i bs]) ∧
       ((∃ k < 64, gotByte got (e.src + 64 * i + k) = none) → e.partWrites got i = [])) ∧
     (e.op = 5 → ∀ (s : State) (c core row : Nat) (l : GList) (bs : List Byte), bs.length = 64 → 64 * row + 64 ≤ e.len → e.dst < 2 ^ 64 →
       e.dst % 2 ^ 21 + e.len ≤ 0x200000 → (s.core c).checkDa s.panel l.mode (BitVec.ofNat 64 e.dst) 64 = .ok (s.panel, core) →
       ∃ d, s.rowDeposit c l e row bs = some d ∧ d.target = core ∧ d.off = e.dst % 2 ^ 21 + 64 * row ∧ d.size = 64 ∧ d.data.toNat = leNat bs ∧
         d.cnt = daCounter (BitVec.ofNat 64 e.dst) ∧ d.core = c ∧ d.asid = field l.wasid 44 10)) ∧
  (∀ (s : State) (c : Nat) (l : GList), (s.core c).gl.lists = [l] → l.slot < 16 →
     let g := (s.core c).gl
     let now := fun (t : State) (m : GList) => (t.core c).gl.lists = [m] ∧ SameMemory s t
     (l.ended = false → l.aborted = false → l.failed = none → l.reading = false → l.inFlight = [] → g.frozen = false → s.halted c = false →
       (l.pending = none → ∃ t, exec (.gleanerEntryStart c l.lid) s = .next t ∧ now t { l with reading := true } ∧
         ∃ r, (t.core c).bank = (s.core c).bank ++ [r] ∧ r.cls = .gleaner ∧ r.first = s.cycle + 1 ∧ r.bank = l.next / 64 % 32) ∧
       (∀ e, l.pending = some e → e.op = 6 → ∃ t, exec (.gleanerEntryStart c l.lid) s = .next t ∧ now t { l with
         pending := none
         next := e.aux
         done := l.done + 1 }) ∧
       (∀ e, l.pending = some e → e.op = 7 → ∃ t, exec (.gleanerEntryStart c l.lid) s = .next t ∧ now t { l with
         pending := none
         ended := true } ∧ ∃ d ∈ t.agenda, d.act = .event (.gleanerListEnd c l.lid))) ∧
     (∀ e part a bs p due z, l.inFlight = [e] → e.wants = [{ page := p, due := due, cut := none }] → due ≤ s.cycle → e.dead = false → e.finished = false → e.toWrite = [(part, .write a bs)] →
       e.toRead = [] → field l.wasid 60 4 = 9 → 0x200000 ≤ a → a < 2 ^ 47 → p = a / 4096 → e.pages = [] → g.sentAt ≠ some s.cycle → s.sec.pthr < 4 → (s.die (dieOf c)).tlb2.find? (fun x => x.hits p (field l.wasid 44 10)) = some z →
       permOk z.perm .s true false .write = true → s.physOk (z.phys a) .write .m bs.length false = true → bitsOf (z.phys a) 48 8 = 1 →
       ∃ t id r, exec (.gleanerTranslate c l.lid) s = .next t ∧ KMap.get t.reqs id = some r ∧ r.core = c ∧ r.op = .gleanWrite l.lid e.index bs ∧ r.addr = z.phys a ∧
         SameMemory s t) ∧
     (∀ e n, l.inFlight = [e] → e.finished = true → e.left = 0 → e.bad = false → e.cnt = some n → e.op = 0 → s.sow.mailbox = [] → n < 64 →
       ∃ t, exec (.gleanerEntryComplete c l.lid e.index) s = .next t ∧ now t { l with
         inFlight := []
         done := l.done + 1 } ∧ (∀ a ∈ (t.slot c l.slot).accs, a.id ≠ e.access) ∧
         let k := s.counter c n
         let amount := if k.mode = 1 then e.len else 1
         t.counter c n = if amount = 0 then k else raised k amount) ∧
     (l.inFlight = [] → s.halted c = true → s.beingKilled c = false → exec (.gleanerListEnd c l.lid) s = .next s) ∧
     (l.inFlight = [] → s.halted c = false ∨ s.beingKilled c = true →
       let ends := fun (w : Word) => ∃ t, exec (.gleanerListEnd c l.lid) s = .next t ∧ (t.core c).gl.lists = [] ∧ (t.core c).gl.kept.getLast? = some (l.lid, w) ∧
         KMap.get (t.core c).gl.lastBy l.slot = some w ∧ SameMemory s t
       (∀ st n, l.failed = some (st, n) → ends (listWord l.lid st n)) ∧
       (l.failed = none → l.aborted = true → ends (listWord l.lid 1 l.done)) ∧
       (l.failed = none → l.aborted = false → l.ended = true → ends (listWord l.lid 0 (l.done + 1)))))

/-! ### The Thresher and plane operations -/

/-- The status word of a plane operation (R292). -/
def Sys2Proof.Claims.planeWord (oid tile st : Nat) (aovf eovf : Bool) : Word :=
  BitVec.ofNat 64 (st + eovf.toNat * 2 ^ 8 + aovf.toNat * 2 ^ 9 + tile * 2 ^ 16 + oid * 2 ^ 32)

/-- R291, R292, R293, R329: PL.GO of an aligned descriptor below the service region, in M-mode, with fewer than eight operations, adds one with the next OID (one of an active operation is passed over: log 71), answers the OID, and starts the read of the descriptor; with eight
it waits; a misaligned address traps with cause 4, one outside the local alias with cause 5. PL.STAT and PL.WAIT answer the status word of an operation: its last one once it has ended, UNKNOWN if it is neither active nor kept; while it runs
PL.STAT answers ACTIVE and PL.WAIT waits. PL.CANCEL without a live tile answers 256; with one it answers the planes landed, freezes the tile, sets CANCEL on its counter and ends the operation at this rank. -/
def Obligations.ThresherInstructionResults : Prop :=
  ∀ (rd rs1 : BitVec 5) (s : State), s.Running → s.Full (.x rs1) → s.Free (.x rd) →
    let a := s.x rs1
    let h := s.here.th
    let n := field a 0 16
    let go := exec (.plGo rd rs1) s
    (a.toNat % 64 ≠ 0 → go = .next (s.trap 4 a)) ∧
    (a.toNat % 64 = 0 → 0x200000 ≤ a.toNat → go = .next (s.trap 5 a)) ∧
    (a.toNat % 64 = 0 → a.toNat + 64 ≤ 0x1E0000 → s.me.mode = .m → s.Unheld →
      (8 ≤ h.ops.length → ∃ t, go = .next t ∧ Waits s t (.plGo rd)) ∧
      (h.ops.length < 8 → ∃ t o r, go = .next t ∧ t.here.th.ops = h.ops ++ [o] ∧ (∀ x ∈ h.ops, x.oid ≠ o.oid) ∧
        (1 ≤ h.nextOid → h.nextOid ≤ 0xFFFF → (∀ x ∈ h.ops, x.oid ≠ h.nextOid) → o.oid = h.nextOid) ∧ o.slot = s.curSlot ∧ o.mode = s.me.mode ∧ o.wlocwin = s.me.u.wlocwin ∧
        o.joined = none ∧ t.here.th.nextOid = (if o.oid = 0xFFFF then 1 else o.oid + 1) ∧ t.me.pc = s.me.pc + 4 ∧
        t.me.accs = s.me.accs ++ [{ id := o.access, path := .eng, scope := .core, write := false }] ∧
        { t.me with accs := s.me.accs }.still = (s.me.setX rd (BitVec.ofNat 64 o.oid)).still ∧ SameMemory s t ∧
        t.here.bank = s.here.bank ++ [r] ∧ r.cls = .thresher ∧ r.first = s.cycle + 1 ∧ r.bank = a.toNat / 64 % 32)) ∧
    ((∀ o ∈ h.ops, o.oid ≠ n) →
      let word := match h.kept.find? fun e => e.1 == n with | some e => e.2 | none => planeWord n 0 15 false false
      WritesX (.plStat rd rs1) s rd word ∧ (a.getLsbD 63 = false → WritesX (.plWait rd rs1) s rd word)) ∧
    (∀ o, h.ops = [o] → o.oid = n → (o.joined = none → WritesX (.plStat rd rs1) s rd (planeWord n o.tile 14 false o.eovf)) ∧
      (a.getLsbD 63 = false → ∃ t, exec (.plWait rd rs1) s = .next t ∧ Waits s t (.plWait rd (some n)))) ∧
    (a.getLsbD 63 = true → (∃ o ∈ h.ops, o.slot = s.curSlot) → ∃ t, exec (.plWait rd rs1) s = .next t ∧ Waits s t (.plWait rd none)) ∧
    (a.getLsbD 63 = true → (∀ o ∈ h.ops, o.slot ≠ s.curSlot) → s.me.wait = none → WritesX (.plWait rd rs1) s rd 0) ∧
    ((∀ o ∈ h.ops, o.tile ≠ n) → WritesX (.plCancel rd rs1) s rd 256) ∧
    (∀ o p m x r, h.ops = [o] → o.tile = n → o.joined = some (p, m) → KMap.get s.planes p = some x → KMap.get x.ranks m = some r → r.recv = true → r.ending = none →
      r.desc.cnt < 64 → ∃ t, exec (.plCancel rd rs1) s = .next t ∧ t.me.pc = s.me.pc + 4 ∧ t.me.x = (s.me.setX rd (BitVec.ofNat 64 r.least)).x ∧
        (t.rank p m).map (fun q => (q.frozen, q.ending)) = some (true, some 1) ∧ t.counter r.core r.desc.cnt = { s.counter r.core r.desc.cnt with cancel := true } ∧
        SameMemory s t ∧ ∃ d ∈ t.agenda, d.act = .event (.thresherOperationEnd p m) ∧ d.cycle = s.cycle + 1)

/-- A message of a plane operation on its way from one node of its tree to another, or from a router to its own Thresher, of its group's present
generation (R222). -/
def Sys2Proof.Claims.carriesPlane (s : State) (id p : Nat) (o : PlaneOp) (src dst : Nat) (body : Body) : Prop :=
  ∃ m, KMap.get s.net id = some m ∧ m.src = src ∧ m.dst = dst ∧ m.body = body ∧ KMap.get s.planes p = some o ∧
    (s.group (m.generation / 16)).generation = m.generation % 16

/-- A message of a plane operation has left one node for another. -/
def Sys2Proof.Claims.leaves (t : State) (src dst : Nat) (body : Body) : Prop :=
  ∃ k m, KMap.get t.net k = some m ∧ m.net = .pln ∧ m.src = src ∧ m.dst = dst ∧ m.body = body

/-- Two integers of a block combined by a unit of a router or relay (R388): the signed maximum or minimum, or the sum modulo 2^64. -/
def Sys2Proof.Claims.combined (op : AtomicOp) (x y : Int) : Int :=
  match op with | .max => max x y | .min => min x y | _ => (BitVec.ofInt 64 (x + y)).toInt

/-- A bank grant at which a row of a landing block of a rank is written: an element that begins in the row holds its value, rounded toward zero to the
destination's format, whole, and every other byte is as before (R382). -/
def Sys2Proof.Claims.writesBlock (s t : State) (r : Rank) (block row : Nat) (value : Nat → Machine.Num) : Prop :=
  let w := destWidth r.desc.dfmt
  let place := fun e => r.desc.dst + (32 * block + e) * w
  (∀ e < 32, place e / 64 = row →
    (t.core r.core).spad.load w (place e) = ((destFmt r.desc.dfmt).round .rtz (value e)).1 % 2 ^ (8 * w)) ∧
  ∀ a, (∀ e < 32, place e / 64 = row → a < place e ∨ place e + w ≤ a) → (t.core r.core).spad.read a = (s.core r.core).spad.read a

/-- What the bank grants of a landing HEADER or PLANE write at a receiver, row by row (R375, R382). -/
def Sys2Proof.Claims.landsRowByRow (s : State) (id p m : Nat) (o : PlaneOp) (r : Rank) : Prop :=
  ∀ (body : Body) (landing : Instr) (row : Nat), carriesPlane s id p o r.core r.core body →
    (s.core r.core).bank = [{ cls := .inbound, bank := row % 32, first := s.cycle, act := .planeRow id row }] → (s.core r.core).lastGrant = [] →
    let P := r.desc.planes
    let grant := fun Q : State → Prop => ∃ t, exec (.bankGrant r.core) s = .next t ∧ t.mem = s.mem ∧ (t.core r.core).bank = [] ∧
      (∃ d ∈ t.agenda, d.act = .event landing ∧ d.cycle = s.cycle) ∧ Q t
    (∀ stream b exp signs flits, body = .header p stream m b exp 0 signs flits [] → landing = .header id →
      (r.frozen = false → grant fun t => writesBlock s t r b row fun e => prefixValue exp P (signs.getLsbD e) 0) ∧
      (r.frozen = true → grant fun t => (t.core r.core).spad = (s.core r.core).spad)) ∧
    (∀ stream b exp flags signs flits codes, body = .header p stream m b exp flags signs flits codes → landing = .header id → flags.getLsbD 0 = true →
      codes.length = 32 → r.frozen = false →
      grant fun t => writesBlock s t r b row fun e => (if r.desc.reduces then Fmt.fp32 else r.desc.source).decode (codes.getD e 0)) ∧
    (∀ stream b j l flits bits, body = .plane p stream m b j flits bits → landing = .plane id → KMap.get r.blocks b = some l → l.mags.length = 32 →
      (r.frozen = false → grant fun t => writesBlock s t r b row fun e =>
        prefixValue l.exp P (l.signs.getLsbD e) (l.mags.getD e 0 + if bits.getLsbD e then 2 ^ (P - j) else 0)) ∧
      (r.frozen = true → grant fun t => (t.core r.core).spad = (s.core r.core).spad))

/-- R370, R371, R375, R376, R377, R382, R383, R388, R429: what the messages of a plane operation do. A rank one of whose source blocks has been read keeps its elements in order and the block's exponent, that of its largest finite magnitude, 0 without one; the answer to the exponent round, of up to 64 blocks, gives a rank their exponents; that a rank sends
the elements of its one read is the model's choice, where R429 allows a second (log 62). The EROUNDs of the same blocks, and the UP messages of a block, of all branches of a node combine there, by the unsigned maximum, and by 64-bit addition, signed maximum or minimum, and go on to its parent,
or stay at the root. At the bank grants of a landing HEADER or PLANE each element of its block takes its prefix, or the final code of a VERB block, in the destination's format, row by row, and a frozen tile keeps what it
holds; a HEADER gives a receiver's block its exponent and signs, a PLANE adds its bit to each magnitude and counts as landed; the counter
rises by what the least number of planes landed rose by. R153, R291, R370, R384, R385, R387: the last participant's join starts an operation under the first rank's fields; a CANCEL that lands at a node removes its branch there, and goes on to the
parent where none is left, or stops the source it names; a message of another generation than its group's is dropped and counted (R222); an uncorrectable error, or the halt of a core once what its Thresher has in flight is complete, ends the operation FAULT at every
participant and freezes the receivers' tiles; an operation that ends at a rank leaves its Thresher, which keeps its status, and the slot's access ends. -/
def Obligations.PlaneOperationsRun : Prop :=
  (∀ (s : State) (id p m : Nat) (o : PlaneOp) (r : Rank), KMap.get s.planes p = some o → KMap.get o.ranks m = some r → m < 65536 →
     r.ended = false → o.faulted = false → o.halting = false →
     let nb := r.desc.sourceBlocks
     (∀ b, b + 1 < nb → r.codes.length = 32 * b → r.desc.sfmt = 0 → ∃ t q, exec (.sourceRead p m b) s = .next t ∧ t.rank p m = some q ∧
       q.codes = r.codes ++ (List.range 32).map (fun i => leNat (((r.raw.flatMap fun x => x.2).drop (4 * i)).take 4)) ∧ SameMemory s t ∧
       (∃ d ∈ t.agenda, d.act = .event (.bankGrant r.core) ∧ d.cycle = s.cycle + 1) ∧
       let block := (q.codes.drop (32 * b)).map fun c => Fmt.fp32.decode c
       let magnitude := fun x : Machine.Num => ({ n := x.dyad.n.natAbs, e := x.dyad.e } : Dyad)
       ∃ e : Nat, q.exps = r.exps ++ [e] ∧ ((∀ x ∈ block, x.finite = true → x.dyad.n = 0) → e = 0) ∧
         ∀ x ∈ block, x.dyad.n ≠ 0 → (∀ y ∈ block, (magnitude x).lt (magnitude y) = false) → e = min (x.dyad.log2 + 127).toNat 254) ∧
     (∀ first exps src, src ≠ r.core → carriesPlane s id p o src r.core (.eround p true first exps) → o.rankAt r.core = some (m, r) → r.send = true → r.rejected = false →
       ∃ t q, exec (.eround id) s = .next t ∧ t.rank p m = some q ∧ q.exps = r.exps.take first ++ exps ++ r.exps.drop (first + exps.length) ∧
         q.estars = first + exps.length ∧ q.codes = r.codes ∧ SameMemory s t ∧
         (first = 0 → ∃ d ∈ t.agenda, d.act = .event (.sourceRead p m nb) ∧ d.cycle = s.cycle + 1)) ∧
     (∀ (b n x y : Nat) (held : Option Nat) (u v : UpMsg), y ≠ n → x ≠ y → carriesPlane s id p o y n (.up p b u) →
       o.inputs = [{ node := n, branch := x, msg := held, body := .up p b v }] → o.branches n o.senders = [x, y] → o.waits = [] → (∀ z ∈ o.places, z.src ≠ n) →
       u.ints.length = 32 → v.ints.length = 32 → (∀ k ∈ u.ints ++ v.ints, -(2 ^ 63) ≤ k ∧ k < 2 ^ 63) → o.combine = .add ∨ o.combine = .max ∨ o.combine = .min →
       ∃ t q, exec (.up id) s = .next t ∧ KMap.get t.planes p = some q ∧ q.inputs = [] ∧ SameMemory s t ∧ ∃ w : UpMsg,
         w.nan = v.nan ||| u.nan ∧ w.pinf = v.pinf ||| u.pinf ∧ w.minf = v.minf ||| u.minf ∧
         (∀ e < 32, w.ints[e]? = some (combined o.combine (v.ints.getD e 0) (u.ints.getD e 0))) ∧
         (w.ovf = true ↔ v.ovf = true ∨ u.ovf = true ∨ (o.combine = .add ∧ ∃ e < 32, let z := v.ints.getD e 0 + u.ints.getD e 0; z < -(2 ^ 63) ∨ 2 ^ 63 ≤ z)) ∧
         (∀ up, o.tree.parent n = some up → leaves t n up (.up p b w)) ∧
         (∀ d, o.tree.parent n = none → o.ref = some d → o.out = [] → q.out.map (fun z => z.sum) = [w])) ∧
     (∀ (n x y first : Nat) (held : Option Nat) (u v : List Nat), y ≠ n → x ≠ y → carriesPlane s id p o y n (.eround p false first u) →
       o.inputs = [{ node := n, branch := x, msg := held, body := .eround p false first v }] → o.branches n o.senders = [x, y] → o.waits = [] → (∀ z ∈ o.places, z.src ≠ n) →
       u.length = v.length → (∀ e ∈ u ++ v, e < 256) → ∃ t, exec (.eround id) s = .next t ∧ SameMemory s t ∧ ∃ w : List Nat, w.length = u.length ∧
         (∀ e < u.length, w[e]? = some (max (v.getD e 0) (u.getD e 0))) ∧ (∀ up, o.tree.parent n = some up → leaves t n up (.eround p false first w))) ∧
     landsRowByRow s id p m o r ∧
     (r.recv = true → r.frozen = false → r.desc.planes ≠ 0 →
       (∀ b exp signs, r.least = 0 → b < r.desc.destElems / 32 → (∃ flits, carriesPlane s id p o r.core r.core (.header p 0 m b exp 0 signs flits [])) → ∃ t q l, exec (.header id) s = .next t ∧ t.rank p m = some q ∧
         KMap.get q.blocks b = some l ∧ l.exp = exp ∧ l.signs = signs ∧ l.mags = List.replicate 32 0 ∧ l.planes = 0 ∧ q.ending = r.ending ∧ SameMemory s t) ∧
       (∀ b j l flits bits, r.desc.destElems = 32 → b = 0 → 0 < j → j < r.desc.planes → KMap.get r.blocks b = some l → l.mags.length = 32 → carriesPlane s id p o r.core r.core (.plane p 0 m b j flits bits) →
         ∃ t q l', exec (.plane id) s = .next t ∧ t.rank p m = some q ∧ KMap.get q.blocks b = some l' ∧ l'.planes = j ∧ l'.exp = l.exp ∧ l'.signs = l.signs ∧ q.least = j ∧
           (∀ e < 32, l'.mags[e]? = some (l.mags.getD e 0 + if bits.getLsbD e then 2 ^ (r.desc.planes - j) else 0)) ∧ SameMemory s t ∧
           (j ≤ r.least → q.raises = r.raises) ∧
           (r.least < j → q.raises = r.raises ++ [(s.cycle + 2, j - r.least)] ∧ ∃ d ∈ t.agenda, d.act = .event (.planeCounterRaise p m) ∧ d.cycle = s.cycle + 2))) ∧
     (∀ n, r.raises = [(s.cycle, n)] → 0 < n → r.desc.cnt < 64 → ∃ t, exec (.planeCounterRaise p m) s = .next t ∧ t.counter r.core r.desc.cnt = raised (s.counter r.core r.desc.cnt) n ∧
       SameMemory s t)) ∧
  (∀ (s : State) (id p m : Nat) (o : PlaneOp) (r : Rank), KMap.get s.planes p = some o → KMap.get o.ranks m = some r → m < 65536 →
     (o.ranks = [(m, r)] → o.members = [r.core] → o.joined = [m] → o.ref = none → o.faulted = false → r.rejected = false → r.desc.badShared = false → r.send = true → r.recv = false →
       r.codes = [] → 0 < r.desc.sourceWidth → ∃ t q, exec (.thresherOperationStart p) s = .next t ∧ KMap.get t.planes p = some q ∧ q.ref = some r.desc ∧ SameMemory s t ∧
         (∃ e ∈ (t.core r.core).bank, e.cls = .thresher ∧ e.first = s.cycle + 1) ∧ ∃ d ∈ t.agenda, d.act = .event (.bankGrant r.core) ∧ d.cycle = s.cycle + 1) ∧
     (∀ n b, r.ended = false → b ≠ n → carriesPlane s id p o b n (.cancel p none) → ∃ t q, exec (.cancel id) s = .next t ∧ KMap.get t.planes p = some q ∧ (n, b) ∈ q.cancels ∧
       SameMemory s t ∧ ∀ up, o.tree.parent n = some up → o.mask n = [b] → (o.reduces = true → n ∈ o.begun) → o.waits = [] → (∀ z ∈ o.places, z.src ≠ n) → leaves t n up (.cancel p none)) ∧
     (∀ b, r.ended = false → b ≠ r.core → carriesPlane s id p o b r.core (.cancel p (some m)) → ∃ t q, exec (.cancel id) s = .next t ∧ t.rank p m = some q ∧ q.stopped = true ∧
       SameMemory s t) ∧
     (∀ src dst body x, KMap.get s.net id = some x → x.src = src → x.dst = dst → x.body = body → (s.group (x.generation / 16)).generation ≠ x.generation % 16 →
       dst < relayBase → ∀ i ∈ [Instr.eround id, .up id, .header id, .plane id, .cancel id], ∃ t, exec i s = .next t ∧ t.planes = s.planes ∧ SameMemory s t ∧
         KMap.get t.net id = none ∧ (t.die (dieOf dst)).stale = (if (s.die (dieOf dst)).stale = BitVec.allOnes 32 then (s.die (dieOf dst)).stale
           else (s.die (dieOf dst)).stale + 1)) ∧
     (o.halting = true → s.haltSettled p o = false → exec (.thresherFault p) s = .next s) ∧
     (o.halting = false ∨ s.haltSettled p o = true → r.ending = none → r.desc.cnt < 64 → o.ranks = [(m, r)] → ∃ t q, exec (.thresherFault p) s = .next t ∧ KMap.get t.planes p = some q ∧ q.faulted = true ∧ SameMemory s t ∧
       (KMap.get q.ranks m).bind (·.ending) = some 4 ∧ (r.recv = true → (KMap.get q.ranks m).map (·.frozen) = some true ∧ (t.counter r.core r.desc.cnt).cancel = true) ∧
       ∃ d ∈ t.agenda, d.act = .event (.thresherOperationEnd p m)) ∧
     (∀ st z, r.ending = some st → r.ended = false → o.ranks = [(m, r)] → (s.core r.core).th.ops = [z] → z.oid = r.oid → z.slot < 16 → z.joined = some (p, m) →
       ∃ t, exec (.thresherOperationEnd p m) s = .next t ∧ (t.core r.core).th.ops = [] ∧ SameMemory s t ∧ (∀ a ∈ (t.slot r.core z.slot).accs, a.id ≠ z.access) ∧
         (t.core r.core).th.kept.getLast? = some (r.oid, planeWord r.oid z.tile st o.aovf z.eovf) ∧
         KMap.get (t.core r.core).th.lastBy z.slot = some (planeWord r.oid z.tile st o.aovf z.eovf)))

/-! ### The Sower -/

/-- The issuing slot waits where it stands, for what an end of a module has discarded and counted; no launch has come or gone (R391, R403). -/
def Sys2Proof.Claims.lostAt (s t : State) (m e : Nat) : Prop :=
  t.me.st = .blocked ∧ t.me.pc = s.me.pc ∧ t.me.still = s.me.still ∧ t.sow.inbox = s.sow.inbox ∧ ((t.module m).end_ e).llost = ((s.module m).end_ e).llost + 1 ∧ SameMemory s t

/-- R200, R209, R287, R295: SOW waits until the slot's earlier accesses are performed; it then sends the 64 bytes of its record to the Sower and waits for the answer, which it gives its destination. A misaligned record
traps with cause 4, one outside the local alias with cause 5. The Sower answers 6 for an invalid record, 1 for an invalid image, a status of its other checks, and otherwise the ticket, its sequence number over its panel's number; the next
sequence number is one higher, the launch without predecessors is queued, and a signed image is extended into MEAS2. R353, R391: a restored context waits for the answer of the launch it had made, and the record and its answer wait where a module on
their way is held; where it is DOWN without HOLD they are lost, LLOST rises, and the slot goes on waiting. The model's own: what stands for the record and its answer on their way, and the wait for an answer that was lost (log 57); status 1 for an image that cannot be read
whole or is poisoned (log 81); the check of the record before that of the image (log 52); and that a restored context still has its launch (log 89). That the read of a poisoned record gives 6 is the model's choice (log 34) and is not stated. -/
def Obligations.LaunchesAreAnswered : Prop :=
  (∀ (rd rs1 : BitVec 5) (s : State), s.Running →
    let a := s.x rs1
    let go := exec (.sow rd rs1) s
    (s.launchOf = none → s.Full (.x rs1) → s.Free (.x rd) →
      (a.toNat % 64 ≠ 0 → go = .next (s.trap 4 a)) ∧
      (a.toNat % 64 = 0 → 0x200000 ≤ a.toNat → go = .next (s.trap 5 a)) ∧
      (a.toNat % 64 = 0 → a.toNat + 64 ≤ 0x1E0000 → s.me.mode = .m →
        (s.me.accs ≠ [] → ∃ t, go = .next t ∧ Waits s t .unlimited) ∧
        (s.me.accs = [] → s.here.poisoned a.toNat 64 = false →
          let shut := s.firstShut (route s.curCore relayBase true)
          (∀ m e, shut = some (m, e) →
            (s.discards m = false → ∃ t, go = .next t ∧ Waits s t .unlimited) ∧
            (e < 2 → s.discards m = true → ∃ t id, go = .next t ∧ t.me.issued = some id ∧ lostAt s t m e)) ∧
          (shut = none → ∃ t l, go = .next t ∧ t.me.st = .blocked ∧ t.me.pc = s.me.pc ∧ t.me.still = s.me.still ∧ t.me.issued = some l.id ∧
          t.sow.inbox = s.sow.inbox ++ [l] ∧ l.source = .slot s.curCore s.curSlot ∧ l.user = false ∧
          l.record = (List.range 8).map (fun k => BitVec.ofNat 64 (s.here.spad.load 8 (a.toNat + 8 * k))) ∧ SameMemory s t ∧
          ∃ d ∈ t.agenda, d.act = .event (.launchAccept l.id))))) ∧
    (∀ id, s.launchOf = some id →
      let s' := s.modHere fun k => { k with sows := k.sows.erase (s.curSlot, id) }
      let shut := s.firstShut (route relayBase s.curCore true)
      (∀ w, KMap.get s.sow.answers id = some w →
        (shut = none → Completes (.sow rd rs1) s (s'.modSow fun x => { x with answers := KMap.del x.answers id }) (s.me.setX rd w)) ∧
        (∀ m e, shut = some (m, e) →
          (s.discards m = false → ∃ t, go = .next t ∧ Waits s' t .unlimited ∧ t.me.issued = some id) ∧
          (e < 2 → s.discards m = true → ∃ t, go = .next t ∧ t.me.issued = some id ∧ lostAt s t m e ∧ KMap.get t.sow.answers id = none))) ∧
      (KMap.get s.sow.answers id = none → ∃ t, go = .next t ∧ Waits s' t .unlimited ∧ t.me.issued = some id)) ∧
    (∀ id, s.me.issued = some id → s.launchOf = some id) ∧ (s.me.issued = none → s.me.waitKind ≠ some .resumed → s.launchOf = none)) ∧
  (∀ (s : State) (l : Launch) (c i : Nat), s.sow.inbox = [l] → l.source = .slot c i → i < 16 → (s.slot c i).issued = some l.id →
    let s' := s.modSow fun w => { w with inbox := [] }
    let answers := fun (w : Word) (P : State → Prop) => ∃ t, exec (.launchAccept l.id) s = .next t ∧ KMap.get t.sow.answers l.id = some w ∧ SameMemory s t ∧ P t
    let nothing := fun (t : State) => t.sow.seq = s.sow.seq ∧ t.sow.sheaves = s.sow.sheaves ∧ t.sec.meas = s.sec.meas
    let a := (l.word 0).toNat
    (field (l.word 0) 0 12 ≠ 0 ∨ l.word 7 ≠ 0 ∨ field (l.word 1) 15 49 ≠ 0 → answers 6 nothing) ∧
    (s.recordOk l = true →
      ((s'.readImage a).1 = none → answers 1 nothing) ∧
      (∀ x data st, (s'.readImage a).1 = some (x, data) →
        let asid := if (l.word 1).getLsbD 14 then field (l.word 1) 4 10 else x.asid
        s'.launchStatus l x asid = st → (st ≠ 0 → st < 8 → answers (BitVec.ofNat 64 st) nothing) ∧
        (st = 0 → s.sow.sheaves = [] → (∀ k < 4, l.word (2 + k) = 0) → answers (BitVec.ofNat 64 (s.sow.seq * 64 + s.panel)) fun t =>
          t.sow.seq = s.sow.seq + 1 ∧ (∃ h, t.sow.sheaves = [(s.sow.seq, h)] ∧ h.ticket = BitVec.ofNat 64 (s.sow.seq * 64 + s.panel) ∧ h.st = .queued ∧ h.asid = asid ∧ h.sid = 0 ∧
            h.prio = (if (l.word 1).getLsbD 3 then field (l.word 1) 0 3 else x.prio) ∧ h.image = x ∧ h.done = l.word 6) ∧
          (t.sec.meas = if x.signed then vecSet s.sec.meas 2 (extendMeas (vecGet s.sec.meas 2 0) data) else s.sec.meas) ∧ ∃ d ∈ t.agenda, d.act = .event .placementStart))))

/-- A sheaf of one core of its home panel, without groups and wire contexts, its ticket's sequence number, and its core. -/
structure Sys2Proof.Claims.OneCore (h : Sheaf) (t c : Nat) : Prop where
  place : ∃ p, h.places = [p] ∧ coreAt p.die p.row0 p.col0 = c ∧ p.panel = h.here ∧ p.die < 32 ∧ p.row0 < 32 ∧ p.col0 < 16
  home : h.home = h.here ∧ t = h.ticket.toNat / 64
  shape : h.image.dies = 1 ∧ h.image.rows = 1 ∧ h.image.cols = 1
  parts : h.groups = [] ∧ h.image.groups = [] ∧ h.image.chans = [] ∧ h.image.wireMask = 0 ∧ h.wires = []
  alone : h.others = []

/-- A message is on its way to the Sower of another panel (R205). -/
def Sys2Proof.Claims.reserves (t : State) (panel : Nat) (b : Body) : Prop :=
  ∃ id m, KMap.get t.net id = some m ∧ m.src = relayBase ∧ m.dst = foreignTarget panel t.panel relayBase ∧ m.net = .chn ∧ m.body = b

/-- A core that a placement may take: it holds no sheaf, has not halted, and its die is offered (R204, R343). -/
def Sys2Proof.Claims.placeable (s : State) (c : Nat) : Prop := (s.core c).ticket = none ∧ s.halted c = false ∧ (s.die (dieOf c)).offered = true

/-- R204, R205, R207, R208: the queued launch of one die whose ASID is live is placed at the first rectangle of placeable cores, by die, row and column, which become its own, and loading follows; with none it stays where it is, or the next panel of the domain is asked for one. Loading waits where a
module on its way is held, and is lost where one is DOWN without HOLD (R391); it gives each started slot its entry, its process and its CSRs, fills the sheaf region from the image, zero elsewhere, numbers lists and operations from 1, and leaves the service region and slot 15 alone. The start wave, once every panel has loaded,
sends START to the die, which releases the loaded slots at a rotation boundary at least 64 cycles after START has landed: each is READY. The model's own: what the Sowers of two panels send each other and in which order the panels are asked (log 1, log 102); that loaded slots stay STOPPED until
their release (log 53); and what stands for a load on its way (log 57). -/
def Obligations.SheavesArePlacedAndStarted : Prop :=
  (∀ (s : State) (t : Nat) (h : Sheaf), s.sow.sheaves = [(t, h)] → h.st = .queued → h.image.dies = 1 → h.image.groups = [] → h.image.wireMask = 0 → s.sow.held = [] →
    s.sow.placing = none → h.home = s.panel → h.here = s.panel → t = h.ticket.toNat / 64 → 0 < h.image.rows → 0 < h.image.cols → (s.asidEntry h.asid).getLsbD 63 = true →
    let fits := fun d r c => d < 32 ∧ r + h.image.rows ≤ 32 ∧ c + h.image.cols ≤ 16 ∧ ∀ i < h.image.rows, ∀ j < h.image.cols, placeable s (coreAt d (r + i) (c + j))
    ((∀ d r c, ¬ fits d r c) → s.panelsAfter none = [] → exec .placementStart s = .next s) ∧
    ((∀ d r c, ¬ fits d r c) → ∀ q, (s.panelsAfter none).head? = some q → ∃ u, exec .placementStart s = .next u ∧ u.sow.sheaves = s.sow.sheaves ∧ SameMemory s u ∧
      ∃ a, u.sow.placing = some { sheaf := t, attempt := a, places := [], gids := [], panel := q, agree := [] } ∧
        reserves u q (.reserve 0 h.ticket a h.asid 0 0 0 h.image.rows h.image.cols 0 [])) ∧
    (∀ d r c, fits d r c → (∀ d' r' c', fits d' r' c' → d < d' ∨ (d = d' ∧ (r < r' ∨ (r = r' ∧ c ≤ c')))) → ∃ u h', exec .placementStart s = .next u ∧
      u.sow.sheaves = [(t, h')] ∧ h'.st = .loading ∧ h'.places = [{ panel := s.panel, die := d, row0 := r, col0 := c }] ∧ SameMemory s u ∧
      (∀ i < h.image.rows, ∀ j < h.image.cols, (u.core (coreAt d (r + i) (c + j))).ticket = some t) ∧ ∃ q ∈ u.agenda, q.act = .event (.sheafLoad t))) ∧
  (∀ (s : State) (t c : Nat) (h : Sheaf) (crew : Crew), KMap.get s.sow.sheaves t = some h → h.st = .loading → h.awaits = [h.here] → h.resumed = false → OneCore h t c → h.image.crews = [crew] →
    crew.selects 0 0 0 = true → crew.text.length ≤ 0x1E0000 → crew.dataAt + crew.data.length ≤ 0x1E0000 →
    let shut := s.firstShut (route relayBase c false)
    (∀ m e, shut = some (m, e) →
      (s.discards m = false → exec (.sheafLoad t) s = .next (s.at (s.cycle + 1) (.sheafLoad t))) ∧
      (e < 2 → s.discards m = true → ∃ u, exec (.sheafLoad t) s = .next u ∧ u.cores = s.cores ∧ SameMemory s u ∧ ((u.module m).end_ e).llost = ((s.module m).end_ e).llost + 1)) ∧
    (shut = none → ∃ u, exec (.sheafLoad t) s = .next u ∧ u.mem = s.mem ∧
      (∀ k, k ≠ c → u.core k = s.core k) ∧ { u.slot c 15 with resv := (s.slot c 15).resv } = s.slot c 15 ∧ (u.core c).wsheaf = h.word ∧ (u.core c).eps = [] ∧
      (∀ n, (u.core c).getAcc n = Acc.reset) ∧ (u.core c).gl.nextLid = 1 ∧ (u.core c).th.nextOid = 1 ∧
      (∀ a, a < 0x1E0000 → (u.core c).spad.read a =
        (if a < crew.text.length then crew.text.getD a 0 else if crew.dataAt ≤ a then crew.data.getD (a - crew.dataAt) 0 else 0)) ∧
      (∀ a, 0x1E0000 ≤ a → (u.core c).spad.read a = (s.core c).spad.read a) ∧
      (∀ i entry wfmt wscl, crew.slots = [(i, entry, wfmt, wscl)] → i < 15 → (u.slot c i).pc = entry ∧ (u.slot c i).pid = some i ∧ (u.slot c i).st = .stopped ∧
        (u.slot c i).u.wfmt = wfmt ∧ (u.slot c i).u.wscl = wscl ∧ (u.slot c i).x = Slot.reset.x ∧ ∀ j < 15, j ≠ i → u.slot c j = Slot.reset) ∧
      ∃ q ∈ u.agenda, q.act = .event (.startWave t) ∧ s.cycle < q.cycle)) ∧
  (∀ (s : State) (t c : Nat) (h : Sheaf), KMap.get s.sow.sheaves t = some h → h.st = .loading → h.awaits = [] → OneCore h t c →
    (∃ u n m, exec (.startWave t) s = .next u ∧ KMap.get u.net n = some m ∧ m.dst = c ∧ m.body = .start t ∧ SameMemory s u) ∧
    (∀ n m, s.net = [(n, m)] → m.dst = c → m.body = .start t → m.route = [] → m.due ≤ s.cycle → (s.die (dieOf c)).origin ≤ s.cycle → ∃ u q, exec (.startRelease (dieOf c) t) s = .next u ∧
      (∀ i, u.slot c i = s.slot c i) ∧ q ∈ u.agenda ∧ q.act = .event (.startRelease (dieOf c) t) ∧ s.cycle + 64 ≤ q.cycle ∧ q.cycle ≤ s.cycle + 79 ∧
      (q.cycle - (s.die (dieOf c)).origin) % 16 = 0) ∧
    (s.net = [] → h.starting = 1 → h.resumed = false → ∃ u h', exec (.startRelease (dieOf c) t) s = .next u ∧ KMap.get u.sow.sheaves t = some h' ∧ h'.st = .started ∧ SameMemory s u ∧
      ∀ i < 15, (s.slot c i).st = .stopped → ((s.slot c i).pid = none → u.slot c i = s.slot c i) ∧
        ((s.slot c i).pid ≠ none → u.slot c i = { s.slot c i with st := .ready } ∧ ∃ q ∈ u.agenda, q.act = .issue c i)))

/-- R212, R214 to R220, R404: a suspend holds the slots of the sheaf that hold processes and freezes its Gleaner, and begins a round of counts, which records the sums of its core's counts as the combine units form them, and is begun again 7 µs after it began. A round whose sums do not agree, or
before the units rest, begins another; one that agrees retires a sheaf that is retiring or was killed. A round whose traffic meets a held module waits; what a module that is DOWN without HOLD discards ends it until it is restarted. Retirement clears the core's sheaf region, its counters and its
windows, frees it, writes the completion record at DONE and ends the ticket with its status. A resume queues a suspended sheaf again. A kill stops every process of a sheaf on cores, and ends any other at once with status 4. The model's own: that BUSY clears once a resume is queued or a kill is done
(log 56); that retirement waits for the Gleaner and the Thresher as well (log 35); and which traffic stands for a round on its way, and the free part of its time (log 57, log 103). -/
def Obligations.SheavesAreSuspendedAndRetired : Prop :=
  ∀ (s : State) (t c : Nat) (h : Sheaf), s.sow.sheaves = [(t, h)] → t < 2 ^ 64 →
    let command := fun (u : State) => u.sow.busy = false ∧ u.sow.result = 0
    let round := fun (u : State) (n : Nat) => ∃ q ∈ u.agenda, q.act = .event (.quiescenceRound t) ∧ s.cycle < q.cycle ∧ q.cycle ≤ s.cycle + n ∧
      ∃ z, u.sow.sheaves = [(t, z)] ∧ z.st = h.st ∧ z.round = q.cycle ∧ z.roundStart = s.cycle ∧ ∃ r ∈ u.agenda, r.act = .event (.combineRoundRestart t) ∧ r.cycle = s.cycle + 12250
    let balanced : Prop := (s.core c).issuedTotal % 2 ^ 64 = (s.core c).landedTotal % 2 ^ 64 ∧ (s.core c).sentTotal % 2 ^ 64 = (s.core c).receivedTotal % 2 ^ 64
    let counted := fun (u : State) => round u 2100 ∧ ∃ z, u.sow.sheaves = [(t, z)] ∧ (z.sumsAgree = true ↔ balanced)
    let ending := h.st = .retiring ∨ h.st = .killing
    (OneCore h t c → h.st = .suspending → ∃ u, exec (.sowerSuspend t) s = .next u ∧ counted u ∧ SameMemory s u ∧ (u.core c).gl.frozen = true ∧
      ∀ i < 15, (u.slot c i).pc = (s.slot c i).pc ∧ (u.slot c i).x = (s.slot c i).x ∧ ((s.slot c i).pid ≠ none → (u.slot c i).hold = true)) ∧
    (h.st = .suspended → ∃ u z, exec (.sowerResume t) s = .next u ∧ command u ∧ u.sow.sheaves = [(t, z)] ∧ z.st = .queued ∧ z.resumed = true ∧ z.ticket = h.ticket ∧ SameMemory s u) ∧
    (OneCore h t c → h.st = .started ∨ h.st = .loading ∨ ending → (s.core c).eps = [] → ∃ u z, exec (.sowerKill t) s = .next u ∧ command u ∧ u.sow.sheaves = [(t, z)] ∧ z.st = .killing ∧ z.status = 4 ∧ SameMemory s u ∧
      ∀ i < 15, (u.slot c i).pid = none) ∧
    (h.home = h.here → h.st = .queued ∨ h.st = .waiting ∨ h.st = .suspended → h.done = 0 → ∃ u, exec (.sowerKill t) s = .next u ∧ command u ∧ u.sow.sheaves = [] ∧ u.sow.ended.head? = some (h.ticket, 4) ∧ SameMemory s u) ∧
    (h.st = .suspending ∨ ending →
      (s.cycle = h.roundStart + 12250 → ∃ u, exec (.combineRoundRestart t) s = .next u ∧ round u (max h.roundTime (h.roundTree.combineTime + 1)) ∧ SameMemory s u) ∧
      (s.cycle ≠ h.roundStart + 12250 → exec (.combineRoundRestart t) s = .next s)) ∧
    (OneCore h t c → h.st = .suspending ∨ ending → s.cycle = h.round → h.awaits = [] →
      let shut := s.firstShut (route c relayBase true)
      (∀ m e, shut = some (m, e) →
        (s.discards m = false → ∃ u, exec (.quiescenceRound t) s = .next u ∧ u.sow.sheaves = [(t, { h with round := s.cycle + 1 })] ∧ u.cores = s.cores ∧ SameMemory s u ∧
          ∃ q ∈ u.agenda, q.act = .event (.quiescenceRound t) ∧ q.cycle = s.cycle + 1) ∧
        (e < 2 → s.discards m = true → ∃ u, exec (.quiescenceRound t) s = .next u ∧ u.sow.sheaves = [(t, { h with round := 0 })] ∧ u.cores = s.cores ∧ SameMemory s u ∧
          ((u.module m).end_ e).llost = ((s.module m).end_ e).llost + 1)) ∧
      (shut = none → h.sumsAgree = false ∨ h.settled = false ∨ (ending ∧ s.retireReady h = false) → ∃ u, exec (.quiescenceRound t) s = .next u ∧ counted u ∧ SameMemory s u) ∧
      (shut = none → ending → h.sumsAgree = true → h.settled = true → s.retireReady h = true → ∃ u, exec (.quiescenceRound t) s = .next u ∧ (∃ q ∈ u.agenda, q.act = .event (.retirement t) ∧ q.cycle = s.cycle) ∧
        u.core c = s.core c ∧ SameMemory s u)) ∧
    (OneCore h t c → ending → h.sumsAgree = true → h.settled = true → s.retireReady h = true → ∃ u, exec (.retirement t) s = .next u ∧ u.sow.sheaves = [] ∧ u.sow.ended.head? = some (h.ticket, h.status) ∧
      (u.core c).ticket = none ∧ (∀ n, u.counter c n = Counter.reset) ∧ (∀ n, ((u.core c).getAcc n).words = 0) ∧ (∀ n < 8, vecGet (u.core c).win n 0 = 0) ∧
      (∀ a, (u.core c).spad.read a = if a < 0x1E0000 then 0 else (s.core c).spad.read a) ∧
      (h.done = 0 → u.mem = s.mem) ∧ (h.done ≠ 0 → u.mem.load 8 h.done.toNat = h.ticket.toNat ∧ u.mem.load 2 (h.done.toNat + 8) = h.status % 65536 ∧
        ∀ a, a < h.done.toNat ∨ h.done.toNat + 16 ≤ a → u.mem.read a = s.mem.read a))

/-- A marker of a group is on its way over a link of a tree, under a generation. -/
def Sys2Proof.Claims.marked (s : State) (g gen a b : Nat) : Prop :=
  ∃ id q, KMap.get s.net id = some q ∧ q.src = a ∧ q.dst = b ∧ q.body = .marker g ∧ q.net = .pln ∧ q.generation = 16 * g + gen

/-- R198, R205, R206, R223: a sweep of a group's oldest generation sends a marker from the root of its tree to every child; a marker on its way down goes on to every child of a node, and turns back at one without children; on its way up it goes to the parent, and with the last
one at the root, or at once where the root is alone, the generation is swept; the panel of a root elsewhere is asked for the sweep. Another panel's request for a rectangle of placeable cores and wire contexts, or for a group identifier, is served with the first that is free, if the ASID is live, which is held for its ticket, and
otherwise answered with none; where a younger placement holds it, the Sower of that one is asked to yield and the request waits, and where an older one does, nothing is held. A release frees what the ticket holds here, and what waited for it is served; a report of its home makes that the sheaf's own, to be loaded. The answer of the panel asked last adds a place
to the placement in flight, which with all its dies commits and reports it; an empty one has the next panel asked, and after the last ends the attempt; a placement that is told to yield releases what it holds. Each message raises the sequence number above its ticket's. An entry of the ASID table that no
sheaf uses takes the value written; one with a MODE other than 0 and 9, or that would change an entry in use, is ignored. R208, R209, R214, R217, R218, R220: the home of a sheaf tells each other panel that has cores of it to hold or to kill it, to count it for a round, and to leave its cores, which it answers; the start wave follows
the last panel's load, a round the last one's hold, and the end of a retiring sheaf, or of a suspend, the last one's leaving. The model's own: what two Sowers send each other, its numbers and its order (log 1, log 102), the marker's way from node to node (log 33), and a tree whose nodes lie on several
panels (log 31). -/
def Obligations.GroupsReservationsAndAsids : Prop :=
  (∀ (s : State) (g : Nat) (x : Group), KMap.get s.sow.groups g = some x →
    let go := exec (.generationSweep g) s
    (x.behind = [] → go = .next s) ∧
    (∀ b rest r, x.behind = b :: rest → (∀ c ∈ rest, c.generation ≠ b.generation) → b.tree.root = some r →
      let runs := fun (u : State) => (u.group g).behind = { b with sweeping := true } :: rest
      (b.sweeping = true → go = .next s) ∧
      (b.sweeping = false → isForeign r = false → b.tree.children r = [] → ∃ u, go = .next u ∧ (u.group g).behind = rest ∧ SameMemory s u) ∧
      (b.sweeping = false → isForeign r = true → ∃ u, go = .next u ∧ runs u ∧ reserves u (panelTo r) (.sweep g b.generation false) ∧ SameMemory s u) ∧
      (b.sweeping = false → isForeign r = false → b.tree.children r ≠ [] → ∃ u, go = .next u ∧ runs u ∧ SameMemory s u ∧
        KMap.get (u.group g).awaits (16 * r + b.generation) = some (b.tree.returns r) ∧ ∀ c ∈ b.tree.children r, marked u g b.generation r c))) ∧
  (∀ (s : State) (g id n gen : Nat) (x : Group) (q : Msg) (b : Behind), KMap.get s.sow.groups g = some x → (x.behind.find? fun b => b.generation == gen) = some b →
    s.net = [(id, q)] → q.body = .marker g → q.route = [] → q.due ≤ s.cycle → q.dst = n → q.generation = 16 * g + gen → gen < 16 →
    let t := b.tree
    let go := exec (.sweepMarkerReturn g) s
    let left := KMap.get x.awaits (16 * n + gen)
    (t.parent n = some q.src → t.children n ≠ [] → ∃ u, go = .next u ∧ SameMemory s u ∧ (∀ c ∈ t.children n, marked u g gen n c) ∧
      (isForeign q.src = true → KMap.get (u.group g).awaits (16 * n + gen) = some (t.returns n))) ∧
    (t.parent n ≠ some q.src ∨ t.children n = [] →
      (∀ k, left = some k → 1 < k → ∃ u, go = .next u ∧ SameMemory s u ∧ (u.group g).behind = x.behind ∧ KMap.get (u.group g).awaits (16 * n + gen) = some (k - 1) ∧ u.net = []) ∧
      (∀ p, t.parent n = some p → left = none ∨ left = some 1 → ∃ u, go = .next u ∧ SameMemory s u ∧ (u.group g).behind = x.behind ∧ marked u g gen n p) ∧
      (t.parent n = none → left = some 1 → ∃ u, go = .next u ∧ SameMemory s u ∧ (u.group g).behind = x.behind.filter fun b => b.generation != gen))) ∧
  (∀ (s : State) (id kind attempt asid die row col rows cols wires : Nat) (gids : List Nat) (ticket : Word) (q : Msg), s.net = [(id, q)] →
    q.body = .reserve kind ticket attempt asid die row col rows cols wires gids →
    let home := field ticket 0 6
    let step := fun (P : State → Prop) => ∃ t, exec (.reservationMessage id) s = .next t ∧ t.sow.seq = max s.sow.seq (field ticket 6 58 + 1) ∧ SameMemory s t ∧ P t
    let kept := s.sow.held.filter fun h => h.ticket != ticket
    let answers := fun (t : State) (k d r c rows cols wires : Nat) (l : List Nat) => reserves t home (.reserve k ticket attempt asid d r c rows cols wires l)
    (kind = 0 → home ≠ s.panel → s.sow.held = [] →
      let fits := fun d r c => die ≤ d ∧ d < 32 ∧ r + rows ≤ 32 ∧ c + cols ≤ 16 ∧ wires ≤ (s.freeWires d).length ∧
        ∀ i < rows, ∀ j < cols, placeable s (coreAt d (r + i) (c + j))
      ((∀ d r c, ¬ fits d r c) ∨ (s.asidEntry asid).getLsbD 63 = false → step fun t => t.sow.held = [] ∧ answers t 2 0 0 0 0 0 0 []) ∧
      (∀ d r c, fits d r c → (∀ d' r' c', fits d' r' c' → d < d' ∨ (d = d' ∧ (r < r' ∨ (r = r' ∧ c ≤ c')))) → (s.asidEntry asid).getLsbD 63 = true → step fun t =>
        answers t 2 d r c rows cols wires [] ∧
        ∃ l, t.sow.held = [{ ticket := ticket, attempt := attempt, cores := l, wires := ((s.freeWires d).take wires).map (fun n => (d, n)), gids := [], asked := false }] ∧
          ∀ k, k ∈ l ↔ ∃ i < rows, ∃ j < cols, k = coreAt d (r + i) (c + j))) ∧
    (kind = 3 → home ≠ s.panel →
      let free := fun k => gids.getLast?.getD 0 ≤ k ∧ k < 4096 ∧ (s.group k).used = false ∧ k ∉ gids.dropLast
      ((∀ k, ¬ free k) → step fun t => t.sow.held = s.sow.held ∧ answers t 4 0 0 0 0 0 0 []) ∧
      (∀ g, free g → (∀ k, free k → g ≤ k) →
        let n := if die = 16 then (s.group g).generation else die
        let swept : Prop := ∀ b ∈ (s.group g).behind, b.generation ≠ n
        let mine : Held := { ticket := ticket, attempt := attempt, cores := [], wires := [], gids := gids.dropLast ++ [g], asked := false }
        (gids.getLast? = some g → ¬ swept → step fun t => t.sow.held = s.sow.held ∧ answers t 4 0 0 0 0 0 0 [] ∧ ∃ d ∈ t.agenda, d.act = .event (.generationSweep g) ∧ d.cycle = s.cycle) ∧
        (swept → s.sow.held = [] → step fun t => t.sow.held = [mine] ∧ answers t 4 n 0 0 0 0 0 [g]) ∧
        (∀ y, swept → s.sow.held = [y] → y.ticket ≠ ticket → g ∈ y.gids →
          (y.ticket.toNat < ticket.toNat → step fun t => t.sow.held = [y] ∧ answers t 5 0 0 0 0 0 0 []) ∧
          (ticket.toNat ≤ y.ticket.toNat → s.sow.placing = none → y.asked = false → s.sow.deferred = [] → step fun t => t.sow.held = [{ y with asked := true }] ∧
            t.sow.deferred = [.reserve 3 ticket attempt asid die 0 0 0 0 0 gids] ∧ reserves t (field y.ticket 0 6) (.reserve 1 y.ticket y.attempt 0 0 0 0 0 0 0 []))))) ∧
    (kind = 1 → home ≠ s.panel →
      (s.sow.deferred = [] → step fun t => t.sow.held = kept) ∧
      (∀ y g z a n, s.sow.held = [y] → y.ticket = ticket → z ≠ ticket → field z 0 6 ≠ s.panel → s.sow.deferred = [.reserve 3 z a n 16 0 0 0 0 0 [g]] → g < 4096 → (s.group g).used = false →
        (∀ b ∈ (s.group g).behind, b.generation ≠ (s.group g).generation) → step fun t =>
        t.sow.held = [{ ticket := z, attempt := a, cores := [], wires := [], gids := [g], asked := false }] ∧ t.sow.deferred = [] ∧
          reserves t (field z 0 6) (.reserve 4 z a n (s.group g).generation 0 0 0 0 0 [g]))) ∧
    (∀ p h, home = s.panel → s.sow.placing = some p → s.ticketWord p.sheaf = ticket → p.sheaf = ticket.toNat / 64 → p.attempt = attempt → s.sheaf p.sheaf = some h → h.ticket = ticket → h.here = s.panel →
      let ended := fun (t : State) => t.sow.placing = none ∧ t.sow.held = kept ∧ t.sow.sheaves = s.sow.sheaves
      (kind = 1 → step ended) ∧
      (kind = 2 → panelTo q.src = p.panel → p.panel ≠ s.panel → p.agree = [] →
        (rows ≠ 0 → p.places.length + 1 = h.image.dies → h.image.groups = [] → p.gids = [] → step fun t => t.sow.placing = none ∧ t.sow.held = kept ∧
          ∃ z x, KMap.get t.sow.sheaves p.sheaf = some z ∧ z.st = .loading ∧ z.places = p.places ++ [{ panel := p.panel, die := die, row0 := row, col0 := col }] ∧
            reserves t p.panel (.commit x) ∧ x.ticket = ticket ∧ x.places = z.places ∧ x.asid = h.asid) ∧
        (rows = 0 → p.places.length < h.image.dies →
          ((s.panelsAfter (some p.panel)).head? = none → step ended) ∧
          (∀ n, (s.panelsAfter (some p.panel)).head? = some n → step fun t => t.sow.placing = some { p with panel := n } ∧
            reserves t n (.reserve 0 ticket attempt h.asid 0 0 0 h.image.rows h.image.cols h.image.contexts.length [])))))) ∧
  (∀ (s : State) (id : Nat) (x : Share) (q : Msg) (r : Held), s.net = [(id, q)] → q.body = .commit x → field x.ticket 0 6 ≠ s.panel →
    let key := 2 ^ 64 + x.ticket.toNat
    (s.sow.held = [] → ∃ t, exec (.reservationMessage id) s = .next t ∧ t.sow.foreign = s.sow.foreign ∧ SameMemory s t) ∧
    (s.sow.held = [r] → r.ticket = x.ticket → s.sow.deferred = [] → ∃ t z, exec (.reservationMessage id) s = .next t ∧ t.sow.held = [] ∧ KMap.get t.sow.foreign key = some z ∧ z.st = .loading ∧ z.asid = x.asid ∧
      z.places = x.places ∧ SameMemory s t ∧ (∃ d ∈ t.agenda, d.act = .event (.sheafLoad key)) ∧
      ∀ p, x.places = [p] → p.panel = s.panel → ∀ i < x.image.rows, ∀ j < x.image.cols, (t.core (coreAt p.die (p.row0 + i) (p.col0 + j))).ticket = some key)) ∧
  (∀ (s : State) (id : Nat) (ticket : Word) (m : SowerMsg) (q : Msg) (h : Sheaf), s.net = [(id, q)] → q.body = .sower ticket m →
    let home := field ticket 0 6
    let t := ticket.toNat / 64
    let key := 2 ^ 64 + ticket.toNat
    let tells := fun (u : State) (b : SowerMsg) => reserves u home (.sower ticket b)
    let step := fun (P : State → Prop) => ∃ u, exec (.reservationMessage id) s = .next u ∧ P u
    (home ≠ s.panel → KMap.get s.sow.foreign key = some h → h.ticket = ticket → h.here = s.panel →
      (m = .leave false → step fun u => KMap.get u.sow.foreign key = none ∧ (∀ p ∈ h.cores, (u.core p.1).ticket = none) ∧ tells u .left ∧ SameMemory s u) ∧
      (m = .leave true → step fun u => (∃ z, KMap.get u.sow.foreign key = some z ∧ z.st = .suspended ∧ z.sat = h.sat ∧ z.asid = h.asid) ∧ (∀ p ∈ h.cores, (u.core p.1).ticket = none) ∧
        tells u .left ∧ SameMemory s u) ∧
      (m = .hold false → h.st ≠ .loading → step fun u => (∃ z, KMap.get u.sow.foreign key = some z ∧ z.st = .suspending) ∧ (∃ d ∈ u.agenda, d.act = .event (.sowerSuspend key)) ∧ u.cores = s.cores) ∧
      (m = .hold true → step fun u => (∃ d ∈ u.agenda, d.act = .event (.sowerKill key)) ∧ u.cores = s.cores) ∧
      (∀ n, m = .count n → (∀ r ∈ h.roundRoutes, s.firstShut r = none) → step fun u => tells u (.counts n (s.roundSums h) (s.settledHere h)) ∧ u.cores = s.cores ∧ SameMemory s u)) ∧
    (home = s.panel → s.sow.sheaves = [(t, h)] → h.awaits = [panelTo q.src] →
      (m = .loaded → h.st = .loading → step fun u => ∃ d ∈ u.agenda, d.act = .event (.startWave t)) ∧
      (m = .held → h.st = .suspending ∨ h.st = .killing → step fun u => ∃ d ∈ u.agenda, d.act = .event (.quiescenceRound t) ∧ s.cycle < d.cycle) ∧
      (m = .left → h.st = .leaving → h.done = 0 → step fun u => u.sow.sheaves = [] ∧ u.sow.ended.head? = some (h.ticket, h.status) ∧ SameMemory s u) ∧
      (m = .left → h.st = .freeing → step fun u => (∃ z, u.sow.sheaves = [(t, z)] ∧ z.st = .suspended) ∧ u.sow.busy = false ∧ u.sow.result = 0))) ∧
  (∀ (s : State) (i : Nat) (v : Word), s.sow.sheaves = [] → s.sow.foreign = [] →
    (field v 44 4 ≠ 0 ∧ field v 44 4 ≠ 9 → exec (.asidEntryWrite i v) s = .next s) ∧
    (field v 44 4 = 0 ∨ field v 44 4 = 9 → ∃ t, exec (.asidEntryWrite i v) s = .next t ∧ t.asidEntry i = v &&& 0x8000FFFFFFFFFFFF#64 ∧ (∀ j, j ≠ i → t.asidEntry j = s.asidEntry j) ∧
      SameMemory s t)) ∧
  (∀ (s : State) (i t : Nat) (h : Sheaf) (v : Word), s.sow.sheaves = [(t, h)] → h.asid = i → h.sat = true → field v 0 48 ≠ field (s.asidEntry i) 0 48 →
    exec (.asidEntryWrite i v) s = .next s)

/-! ### Links, the host, the security processor and resets -/

/-- A message that is about to cross a module at an end, and what is left of its route beyond it. -/
def Sys2Proof.Claims.crossing (s : State) (id m e : Nat) (x : Msg) (rest : List (Nat × Nat × Nat)) : Prop :=
  KMap.get s.net id = some x ∧ id < s.nextId ∧ e < 2 ∧ ∃ leg, x.route = (m, e, leg) :: rest

/-- R390 to R394, R400, R401, R403, R404: a module, or the link of a Stolon port. In UP with an empty replay buffer it takes a message's flits, as many as the buffer has room for: LTXF rises, they stand in the replay buffer, those before the first with a lane error are received, the other end's LRXF
rises by them, and the message is past the module with its last flit; at a lane error LERR has the lane, unless a spare carries it, and the message is replayed; once an acknowledgement is heard LACKF rises and what it covers leaves the buffer. HELD, draining or training, or with its replay buffer full, it keeps messages waiting; DOWN
without HOLD it discards them, as a port does with a message that has crossed three ports (R407), LLOST rises, and a loss notice follows a deposit; a notice that lands for a deposit sets LOSS on its counter and changes no byte. A replay raises LRETRY; a module that runs and has reached the limit trains. HOLD
drains an UP module, which is then HELD; without HOLD it is UP again. A training of a HELD module asked with GO and no spares starts, and ends UP, HELD or DOWN with RESULT 1 or 2, in DOWN with LTXF and LACKF at the partner's LRXF, which its copies will show, and under HOLD with every message still waiting of which no flit was lost; one asked at another time, or in a halted panel, gives RESULT 3. The partner's
copies take the counters of the other end. R392, R406, R408, R422, R423: a Stolon port with SPCTL.HOLD drains its link, and without it that is UP again; GO trains a HELD port that is enabled, and SPSTAT has the width that it trained at; a change of EN is accepted while fewer than 8 were in the last 10^9 counts
of D0's clock, and otherwise refused with an alarm of class 1. The model's own: a failed training's counters and its flits that count as delivered (log 41), and a port's notices (log 57, log 104). -/
def Obligations.ModuleAndPortEvents : Prop :=
  (∀ (s : State) (m : Nat),
     let x := s.module m
     (∀ (id e : Nat) (q : Msg) (rest : List (Nat × Nat × Nat)), crossing s id m e q rest →
       let go := exec (.flitReceive m e id) s
       let n := flitsOf q.body
       let k := max (min n 64) 1
       let deep : Prop := 10000 ≤ m ∧ e = 0 ∧ 3 ≤ q.crossed
       let discards := ∃ t, go = .next t ∧ t.net = s.net ∧ ∃ d ∈ t.agenda, d.act = .event (.messageDiscard id m) ∧ d.cycle = s.cycle
       (deep → discards) ∧
       (¬ deep → x.st = .up → (x.end_ e).replay = [] → (x.end_ e).waiting = [] → (x.end_ e).partly = none → ∃ t good, go = .next t ∧ SameMemory s t ∧ good ≤ k ∧
         let y := (t.module m).end_ e
         y.ltxf = (x.end_ e).ltxf + min n 64 ∧ y.replay.length = k ∧ (∀ r ∈ y.replay, r.msg = id ∧ r.tries = 0 ∧ r.since = s.cycle) ∧
         (∀ i < k, (y.replay[i]?).map (·.received.isSome) = some (decide (i < good))) ∧
         ((t.module m).end_ (1 - e)).lrxf = (x.end_ (1 - e)).lrxf + (if n = 0 then 0 else good) ∧
         (64 < n → y.waiting = [id] ∧ y.partly = some (id, 64)) ∧
         (0 < good → ∃ d ∈ t.agenda, d.act = .event (.flitReceive m (2 + e) id) ∧ s.cycle < d.cycle) ∧
         (good = k → n ≤ 64 → rest ≠ [] ∨ isForeign q.dst = false → (KMap.get t.net id).map (·.route) = some rest) ∧
         (good = k → n ≤ 64 → rest = [] → isForeign q.dst = true → KMap.get t.net id = none ∧ ∃ o l, t.out = o :: l ∧ o.body = q.body ∧ o.dst = q.dst ∧ o.crossed = q.crossed + 1) ∧
         (good < k → KMap.get t.net id = some q ∧ (∃ b < 64, ((t.module m).end_ (1 - e)).lerr.getLsbD b = true ∨ ∃ j < 4, x.map.getLsbD (16 * j + 15) = true ∧ field x.map (16 * j) 6 = b) ∧ ∃ d ∈ t.agenda, d.act = .event (.flitReplay m e id) ∧ s.cycle < d.cycle)) ∧
       (¬ deep → x.st = .held ∨ x.st = .drain ∨ x.st = .train ∨ (x.st = .down ∧ x.hold = true) ∨ (x.st = .up ∧ 64 < (x.end_ e).flits + min n 1) → (∀ r ∈ (x.end_ e).replay, r.msg ≠ id) → (x.end_ e).waiting = [] →
         ∃ t, go = .next t ∧ ((t.module m).end_ e).waiting = [id] ∧ t.net = s.net ∧ SameMemory s t) ∧
       (x.st = .down → x.hold = false → discards) ∧
       (∃ t, exec (.messageDiscard id m) s = .next t ∧ ((t.module m).end_ e).llost = (x.end_ e).llost + 1 ∧ SameMemory s t ∧ KMap.get t.net id = none ∧
         ∀ d, q.body = .dep d → d.global = false → ∃ n y, KMap.get t.net n = some y ∧ y.body = .loss (.dep d) ∧
           y.dst = if 10000 ≤ m ∨ isForeign q.dst = true then q.dst else nodePoint q.dst)) ∧
     (∀ e < 2, x.st = .up ∨ x.st = .drain →
       (∀ id a b, (x.end_ e).replay = a ++ b → a ≠ [] → (∀ r ∈ a, r.msg = id ∧ ∃ c ≤ s.cycle, r.received = some c) → (∀ r ∈ b, r.msg ≠ id ∨ r.received = none) →
         ∃ t, exec (.flitReceive m (2 + e) id) s = .next t ∧ ((t.module m).end_ e).lackf = (x.end_ e).lackf + (a.map (·.flits)).sum ∧ ((t.module m).end_ e).replay = b ∧
         t.net = s.net ∧ SameMemory s t ∧ (x.st = .drain → b = [] → (x.end_ (1 - e)).replay = [] → ∃ d ∈ t.agenda, d.act = .event (.moduleDrained m))) ∧
       (∀ id r, ((x.end_ e).replay.find? fun r => r.msg == id && r.received.isNone) = some r → ∃ t, exec (.flitReplay m e id) s = .next t ∧ SameMemory s t ∧
         if 16 ≤ r.tries then (t.module m).end_ e = x.end_ e ∧ ∃ d ∈ t.agenda, d.act = .event (.replayLimit m) ∧ d.cycle = s.cycle
         else ((t.module m).end_ e).lretry = (x.end_ e).lretry + 1 ∧
           ((t.module m).end_ e).replay = (x.end_ e).replay.map (fun r => if r.received.isNone then { r with tries := r.tries + 1 } else r) ∧
           ∀ r ∈ (x.end_ e).replay, r.received = none → ∃ d ∈ t.agenda, d.act = .event (.flitReceive m e r.msg) ∧ s.cycle < d.cycle) ∧
       (∀ r ∈ (x.end_ e).replay, (r.received = none ∧ 16 ≤ r.tries) ∨ r.since + 3500 < s.cycle → ∃ t, exec (.replayLimit m) s = .next t ∧ (t.module m).st = .train ∧ ((t.module m).end_ 0).result = 0 ∧
         ∃ d ∈ t.agenda, d.act = .event (.trainDone m) ∧ s.cycle < d.cycle ∧ d.cycle ≤ s.cycle + 10500)) ∧
     (s.limitReached m = false → exec (.replayLimit m) s = .next s) ∧
     (∃ t, exec (.moduleHold m) s = .next t ∧ (t.module m).hold = true ∧ (t.module m).st = (if x.st = .up then .drain else x.st) ∧
       (x.st = .up → (x.end_ 0).replay = [] → (x.end_ 1).replay = [] → ∃ d ∈ t.agenda, d.act = .event (.moduleDrained m))) ∧
     (x.st = .drain → (x.end_ 0).replay = [] → (x.end_ 1).replay = [] → ∃ t, exec (.moduleDrained m) s = .next t ∧ (t.module m).st = .held ∧ t.net = s.net) ∧
     (s.sec.haltAll = false → x.st = .held ∨ x.st = .drain → ∃ t, exec (.moduleUnhold m) s = .next t ∧ (t.module m).hold = false ∧ (t.module m).st = .up) ∧
     (s.sec.haltAll = true → exec (.moduleUnhold m) s = .next s) ∧
     (s.sec.haltAll = false → x.st = .held → (x.end_ 0).cmd = 1#2 → (x.end_ 0).lremap = 0 → ∃ t, exec (.retrain m 0) s = .next t ∧ (t.module m).st = .train ∧ ((t.module m).end_ 0).result = 0) ∧
     (s.sec.haltAll = true ∨ x.st = .up ∨ (x.end_ 0).cmd ≠ 1#2 → ∃ t, exec (.retrain m 0) s = .next t ∧ (t.module m).st = x.st ∧ ((t.module m).end_ 0).result = 3) ∧
     (m < 10000 → x.st = .train → x.byLimit = false → ∃ t, exec (.trainDone m) s = .next t ∧
       ((((t.module m).end_ 0).result = 1 ∧ (t.module m).st = (if x.hold then .held else .up) ∧ (t.module m).width = x.tryWidth ∧ (t.module m).half = x.tryHalf) ∨
         (((t.module m).end_ 0).result = 2 ∧ (t.module m).st = (if s.sec.haltAll then .held else .down) ∧
           (∀ e < 2, let y := (t.module m).end_ e
             y.replay = [] ∧ y.ltxf = (x.end_ (1 - e)).lrxf ∧ y.lackf = (x.end_ (1 - e)).lrxf ∧
               (x.hold = true → (∀ r ∈ (x.end_ e).replay, r.received ≠ none) → y.waiting = (x.end_ e).waiting ∧ y.partly = (x.end_ e).partly)) ∧
           ∃ d ∈ t.agenda, d.act = .event (.partnerCopyRefresh m)))) ∧
     (∃ t, exec (.partnerCopyRefresh m) s = .next t ∧
       ∀ e < 2, let y := (t.module m).end_ e
         let z := x.end_ (1 - e)
         y.ptxf = z.ltxf ∧ y.packf = z.lackf ∧ y.prxf = z.lrxf ∧ y.perr = z.lerr ∧ y.plost = z.llost ∧ y.ltxf = (x.end_ e).ltxf) ∧
     (∀ (id c n : Nat) (q : Msg) (d : Dep), KMap.get s.net id = some q → q.dst = c → q.body = .loss (.dep d) → d.cnt = some n → n < 64 → ∃ t, exec (.lossNotice id) s = .next t ∧
       SameMemory s t ∧ t.counter c n = { s.counter c n with loss := true } ∧
       ((s.die (dieOf c)).chaff.full 256 = false → (t.die (dieOf c)).chaff.tail = ((s.die (dieOf c)).chaff.tail + 1) % 512))) ∧
  (∀ (s : State) (n : Nat),
     let p := s.port n
     let x := s.module (10000 + n)
     (p.ctl.getLsbD 0 = true → ∃ t, exec (.stolonHold n) s = .next t ∧ (t.module (10000 + n)).hold = true ∧ (t.module (10000 + n)).st = (if x.st = .up then .drain else x.st) ∧ SameMemory s t) ∧
     (p.ctl.getLsbD 0 = false → x.st = .held ∨ x.st = .drain → s.sec.haltAll = false → ∃ t, exec (.stolonHold n) s = .next t ∧ (t.module (10000 + n)).hold = false ∧ (t.module (10000 + n)).st = .up ∧ SameMemory s t) ∧
     (x.st = .held → field p.ctl 4 2 = 1 → field p.ctl 2 2 ≠ 3 → p.ctl.getLsbD 1 = true → s.sec.haltAll = false → ∃ t, exec (.stolonRetrain n) s = .next t ∧ (t.module (10000 + n)).st = .train ∧
       ∃ d ∈ t.agenda, d.act = .event (.trainDone (10000 + n)) ∧ d.cycle ≤ s.cycle + 10500) ∧
     (x.st = .up ∨ field p.ctl 2 2 = 3 ∨ p.ctl.getLsbD 1 = false ∨ s.sec.haltAll = true → exec (.stolonRetrain n) s = .next s) ∧
     (x.st = .train → x.byLimit = false → ∃ t, exec (.trainDone (10000 + n)) s = .next t ∧
       (((t.module (10000 + n)).st = (if x.hold then .held else .up) ∧ field (t.port n).stat 4 2 = x.tryWidth.toNat + x.tryHalf.toNat) ∨
         (t.module (10000 + n)).st = (if s.sec.haltAll then .held else .down))) ∧
     (p.ctl.getLsbD 1 = false →
       let recent := s.sec.enables.filter fun t => decide ((s.clock 0).toNat < t + 1000000000)
       (recent.length < 8 → ∃ t, exec (.stolonEnable n) s = .next t ∧ (t.port n).ctl = p.ctl ||| 2#64 ∧ t.sec.enables = recent ++ [(s.clock 0).toNat]) ∧
       (8 ≤ recent.length → ∃ t, exec (.stolonEnable n) s = .next t ∧ (t.port n).ctl = p.ctl ∧ t.sec.lastAlarm = 1 ∧
         t.sec.alcount = if s.sec.alcount = BitVec.allOnes 32 then s.sec.alcount else s.sec.alcount + 1)))

/-- R7, R238, R410, R413, R414, R420, R424: a write of SQTAIL clears SQERR and lets consumption go on; the next entry whose SEQ agrees becomes a launch, another one sets SQERR and consumes nothing; a completion raises CQSEQ and SQDONE; a full completion ring holds it. CLKRATE is held until CLKOFF is written, which applies both and
raises CLKGEN. The host's writes of the window registers keep bits [47:12]. A store to a register writes its fields: shown of a die's PROBECFG, whose values below 256 become 256, and of the security processor's attestation address. -/
def Obligations.HostQueueAndRegisters : Prop :=
  (∀ (s : State) (v : Word), ∃ t, exec (.sqDoorbell v) s = .next t ∧ t.host.sqtail = v.setWidth 32 ∧ t.host.sqerr = false ∧ SameMemory s t ∧ ∃ d ∈ t.agenda, d.act = .event .sqConsume) ∧
  (∀ s : State, s.host.opened = true → s.sec.haltAll = false → s.host.sqerr = false → s.host.sqdone ≠ s.host.sqtail → s.host.pending = [] → s.sow.inbox = [] →
    let k := (s.host.sqdone + 1).toNat
    let a := field s.host.sq 0 56 + k % 2 ^ field s.host.sq 60 4 * 128
    s.physOk a .read .m 8 false = true → s.memPoisoned a 128 = false →
      (s.mem.load 4 (a + 64) = k → ∃ t l, exec .sqConsume s = .next t ∧ t.sow.inbox = [l] ∧ l.source = .host k ∧ l.user = false ∧ t.host.sqerr = false ∧ SameMemory s t ∧
        l.record = (List.range 8).map (fun i => BitVec.ofNat 64 (s.mem.load 8 (a + 8 * i))) ∧ ∃ d ∈ t.agenda, d.act = .event (.launchAccept l.id)) ∧
      (s.mem.load 4 (a + 64) ≠ k → ∃ t, exec .sqConsume s = .next t ∧ t.host.sqerr = true ∧ t.sow = s.sow ∧ t.host.sqdone = s.host.sqdone ∧ SameMemory s t)) ∧
  (∀ (s : State) (seq : BitVec 32) (ticket : Word) (status : Nat), s.host.pending = [(seq, ticket, status)] →
    (s.host.cqseq - s.host.cqack = BitVec.ofNat 32 (2 ^ field s.host.cq 60 4) → exec .sqCompletion s = .next s) ∧
    (s.host.cqseq - s.host.cqack ≠ BitVec.ofNat 32 (2 ^ field s.host.cq 60 4) → ∃ t, exec .sqCompletion s = .next t ∧ t.host.cqseq = s.host.cqseq + 1 ∧ t.host.sqdone = seq ∧
      t.host.pending = [] ∧ SameMemory s t ∧ ∃ d ∈ t.agenda, d.act = .event .sqConsume)) ∧
  (∀ (s : State) (d : Nat) (v w : Word), ∃ t u, exec (.clkrate d v) s = .next t ∧ (t.die d).clkRate = (s.die d).clkRate ∧ exec (.clkoff d w) t = .next u ∧ (u.die d).clkRate = v ∧
    (u.die d).clkOff = w ∧ (u.die d).clkGen = (s.die d).clkGen + 1 ∧ SameMemory s u) ∧
  (∀ (s : State) (v : Word),
    (∃ t, exec (.hostWindowWrite 0 v) s = .next t ∧ t.host = { s.host with hwbase := v &&& 0x0000FFFFFFFFF000#64 } ∧ SameMemory s t) ∧
    (∃ t, exec (.hostWindowWrite 1 v) s = .next t ∧ t.host = { s.host with hwlen := v &&& 0x0000FFFFFFFFF000#64 } ∧ SameMemory s t)) ∧
  (∀ (s : State) (a d : Nat) (v : Word), mmioKind a = 0 → mmioIndex a = d → mmioOff a = 0x28 → ∃ t, exec (.registerWrite a v) s = .next t ∧
    (t.die d).probeCfg = (if 1 ≤ field v 0 24 ∧ field v 0 24 < 256 then 256 else field v 0 24) ∧ (∀ e, e ≠ d → t.die e = s.die e) ∧ SameMemory s t) ∧
  (∀ (s : State) (a : Nat) (v : Word), mmioKind a = 2 → mmioOff a = 0x600 → exec (.registerWrite a v) s = .next { s with sec := { s.sec with attAddr := v } })

/-- R343, R418 to R423, R425: SIGREQ holds until reset. An extend of a measurement register other than MEAS0 over clean data of HBM runs, and ends with RESULT 1 and the register extended; poisoned data give RESULT 2, MEAS0 RESULT 3. An attestation is refused with RESULT 2 once the keys are erased; otherwise it takes
the nonce, the clock and the eight measurements, MEAS0 among them, in one step, and ends with RESULT 1 and a report of these, with the panel's identifier, in the area where it found the nonce. A sensor's alarm is counted and logged; one of class 2 or 3 halts every core, and one of class 3 erases the scratchpads. A power cap outside 5,000 to 30,000 W is ignored. The throttle level rises by one while the power is above the cap and falls by
one below 95 percent of it. -/
def Obligations.SecurityProcessorEvents : Prop :=
  ∀ s : State,
    let x := s.sec
    exec .sigreq s = .next { s with sec := { x with sigreq := true } } ∧
    (let a := x.mextAddr.toNat
     let n := x.mextLen.toNat
     (x.mextIndex = 0 → ∃ t, exec .mext s = .next t ∧ t.sec = { x with mextResult := 3 }) ∧
     (x.mextIndex ≠ 0 → 1 ≤ n → n < 2 ^ 31 → bitsOf a 48 16 = 1 → s.physOk a .read .m 1 false = true → s.physOk (a + n - 1) .read .m 1 false = true →
      ∃ t, exec .mext s = .next t ∧ t.sec = { x with
        mextBusy := true
        mextData := (a, n)
        mextResult := 0 } ∧ ∃ d ∈ t.agenda, d.act = .event .mextComplete) ∧
     (∀ a n, x.mextBusy = true → x.mextData = (a, n) → x.mextIndex < 8 →
      (s.memPoisoned a n = false → ∃ t, exec .mextComplete s = .next t ∧ t.sec.mextBusy = false ∧ t.sec.mextResult = 1 ∧
        (∀ i < 8, vecGet t.sec.meas i 0 = if i = x.mextIndex then extendMeas (vecGet x.meas i 0) (s.mem.bytes n a) else vecGet x.meas i 0) ∧ t.mem = s.mem) ∧
      (s.memPoisoned a n = true → ∃ t, exec .mextComplete s = .next t ∧ t.sec.mextBusy = false ∧ t.sec.mextResult = 2 ∧ t.sec.meas = x.meas ∧ t.mem = s.mem))) ∧
    (x.erased = true → exec .attgo s = .next { s with sec := { x with attResult := 2 } }) ∧
    (let a := x.attAddr.toNat
     (x.erased = false → bitsOf a 48 16 = 1 → a % 4096 = 0 → s.physOk a .write .m 1 false = true → s.physOk (a + 50879) .write .m 1 false = true → s.memPoisoned a 64 = false →
      ∃ t, exec .attgo s = .next t ∧ t.sec.attBusy = true ∧ t.sec.attResult = 0 ∧ t.sec.attArea = a ∧ t.sec.attNonce = s.mem.bytes 64 a ∧ t.sec.attClock = s.clock 0 ∧
        (∀ k < 8, vecGet t.sec.attMeas k 0 = if k = 0 then (if x.stage ≤ 1 then 0 else extendMeas 0 Config.firmware) else vecGet x.meas k 0) ∧ t.mem = s.mem ∧ ∃ d ∈ t.agenda, d.act = .event .attestComplete) ∧
     (∀ a, x.attBusy = true → x.attArea = a → x.attNonce.length = 64 → ∃ t, exec .attestComplete s = .next t ∧ t.sec.attBusy = false ∧ t.sec.attResult = 1 ∧ t.mem.bytes 64 a = x.attNonce ∧
      (∀ k < 8, t.mem.bytes 64 (a + 64 + 64 * k) = leBytes 64 (vecGet x.attMeas k 0).toNat) ∧ t.mem.bytes 16 (a + 576) = leBytes 16 Config.panelId.toNat ∧
      t.mem.load 8 (a + 592) = x.attClock.toNat ∧ (∀ b, b < a ∨ a + 50880 ≤ b → t.mem.read b = s.mem.read b) ∧ ∀ c, t.core c = s.core c)) ∧
    (∀ n cls, [0, 1, 2, 2, 2, 3, 3, 3, 1, 2][n]? = some cls → cls ≠ 0 → ∃ t, exec (.sensorAlarm n) s = .next t ∧ t.sec.lastAlarm = cls ∧
      t.sec.alcount = (if x.alcount = BitVec.allOnes 32 then x.alcount else x.alcount + 1) ∧
      (cls = 1 → SameMemory s t ∧ ∀ c, t.halted c = s.halted c) ∧ (2 ≤ cls → ∀ c, t.halted c = true) ∧ (cls = 3 → t.sec.erased = true ∧ ∀ c a, (t.core c).spad.read a = 0)) ∧
    (∀ v : Word, exec (.pcap v) s = .next (if 5000 ≤ field v 0 16 ∧ field v 0 16 ≤ 30000 then { s with sec := { x with pcap := v.setWidth 16 } } else s)) ∧
    (∀ w, x.pcap.toNat ≤ 30000 → x.pthr ≤ 7 → ∃ t, exec (.powerMeasure w) s = .next t ∧
      t.sec.pthr = (if x.pcap.toNat * 100 < w then min (x.pthr + 1) 7 else if w < x.pcap.toNat * 95 then x.pthr - 1 else x.pthr) ∧ SameMemory s t)

/-! ### Vector instructions -/

/-- The two forms of a vector instruction: with a second v register, and with an x register. -/
abbrev Sys2Proof.Claims.VecForms :=
  (BitVec 4 → BitVec 4 → BitVec 4 → BitVec 3 → Instr) × (BitVec 4 → BitVec 4 → BitVec 5 → BitVec 3 → Instr)

/-- Element `j` of a source of `w`-bit elements: of a v register the `w` bits from bit `w·j` up, of an x register its low `w` bits for every `j` (R245, R248). -/
def Sys2Proof.Claims.sourceElem (s : State) (r : RegRef) (w j : Nat) : Nat :=
  match r with
  | .v r => field (s.v r) (w * j) w
  | .x r => field (s.x r) 0 w
  | .acc _ => 0

/-- The flags that the active ones of `n` elements raise (R243, R246). -/
def Sys2Proof.Claims.raisedBy (s : State) (m : BitVec 3) (n : Nat) (f : Nat → Nat × Flags) : Flags :=
  ((List.range n).filter fun j => (s.me.getM m).getLsbD j).foldl (fun g j => g ||| (f j).2) 0

/-- A slot with flags raised in `wvflags` (R243). -/
def Sys2Proof.Claims.withFlags (q : Slot) (g : Flags) : Slot := { q with u := { q.u with wvflags := q.u.wvflags ||| g.setWidth 64 } }

/-- The elements of a result of `n` elements of `w` bits: those that the mask makes active are computed, the others keep what vd holds, and every bit above them is 0 (R246, R259). -/
def Sys2Proof.Claims.elementsOf (s : State) (vd : BitVec 4) (m : BitVec 3) (w n : Nat) (f : Nat → Nat × Flags) (v : VWord) : Prop :=
  (∀ j < n, field v (w * j) w = if (s.me.getM m).getLsbD j then (f j).1 % 2 ^ w else field (s.v vd) (w * j) w) ∧ v.toNat < 2 ^ (w * n)

/-- An instruction completes, and all it changes is vd, FULL with these elements, and the flags that its active elements raise. -/
def Sys2Proof.Claims.WritesElements (i : Instr) (s : State) (vd : BitVec 4) (m : BitVec 3) (w n : Nat) (f : Nat → Nat × Flags) : Prop :=
  ∃ v : VWord, elementsOf s vd m w n f v ∧ Completes i s s (withFlags (s.me.setV vd v) (raisedBy s m n f))

/-- A compare completes, and all it changes is md, its bits for active elements computed, those of inactive ones kept, those above cleared, and the flags. -/
def Sys2Proof.Claims.WritesMask (i : Instr) (s : State) (md m : BitVec 3) (n : Nat) (f : Nat → Bool × Flags) : Prop :=
  ∃ v : MWord, (∀ j < 128, v.getLsbD j = (decide (j < n) && if (s.me.getM m).getLsbD j then (f j).1 else (s.me.getM md).getLsbD j)) ∧
    Completes i s s (withFlags (s.me.setM md v) (raisedBy s m n fun j => ((f j).1.toNat, (f j).2)))

/-- The code of an integer of `w` bits. -/
def Sys2Proof.Claims.codeOf (w : Nat) (i : Int) : Nat := (i % (2 ^ w : Nat)).toNat

/-- An integer clamped to the signed range of `w` bits, with SAT where it is outside (R251). -/
def Sys2Proof.Claims.saturated (w : Nat) (i : Int) : Nat × Flags :=
  if i < -(2 ^ (w - 1) : Nat) then (2 ^ (w - 1), flagSAT) else if (2 ^ (w - 1) : Nat) ≤ i then (2 ^ (w - 1) - 1, flagSAT) else (codeOf w i, 0)

/-- The vector integer instructions: what they compute from a width, two elements and, if they read it, vd's own (R251, R252). -/
noncomputable def Sys2Proof.Claims.vectorIntOps : List (VecForms × Bool × (Nat → Nat → Nat → Nat → Nat × Flags)) :=
  [((.vaddVv, .vaddVx), false, fun _ a b _ => (a + b, 0)), ((.vsubVv, .vsubVx), false, fun w a b _ => (codeOf w ((a : Int) - b), 0)),
   ((.vmulVv, .vmulVx), false, fun _ a b _ => (a * b, 0)),
   ((.vmulhVv, .vmulhVx), false, fun w a b _ => (codeOf w (signedOf w a * signedOf w b / (2 ^ w : Nat)), 0)),
   ((.vminVv, .vminVx), false, fun w a b _ => (codeOf w (min (signedOf w a) (signedOf w b)), 0)),
   ((.vmaxVv, .vmaxVx), false, fun w a b _ => (codeOf w (max (signedOf w a) (signedOf w b)), 0)),
   ((.vminuVv, .vminuVx), false, fun _ a b _ => (min a b, 0)), ((.vmaxuVv, .vmaxuVx), false, fun _ a b _ => (max a b, 0)),
   ((.vsaddVv, .vsaddVx), false, fun w a b _ => saturated w (signedOf w a + signedOf w b)),
   ((.vssubVv, .vssubVx), false, fun w a b _ => saturated w (signedOf w a - signedOf w b)),
   ((.vmaccVv, .vmaccVx), true, fun _ a b d => (d + a * b, 0)), ((.vandVv, .vandVx), false, fun _ a b _ => (a &&& b, 0)),
   ((.vorVv, .vorVx), false, fun _ a b _ => (a ||| b, 0)), ((.vxorVv, .vxorVx), false, fun _ a b _ => (a ^^^ b, 0)),
   ((.vsllVv, .vsllVx), false, fun w a b _ => (a * 2 ^ (b % w), 0)), ((.vsrlVv, .vsrlVx), false, fun w a b _ => (a / 2 ^ (b % w), 0)),
   ((.vsraVv, .vsraVx), false, fun w a b _ => (codeOf w (signedOf w a / (2 ^ (b % w) : Nat)), 0))]

/-- The vector floating-point instructions: the exact result, with NV, from two elements and, if they read it, vd's own (R249, R253). -/
noncomputable def Sys2Proof.Claims.vectorFloatOps : List (VecForms × Bool × (Machine.Num → Machine.Num → Machine.Num → Machine.Num × Flags)) :=
  [((.vfaddVv, .vfaddVx), false, fun a b _ => a.add b), ((.vfsubVv, .vfsubVx), false, fun a b _ => a.add b.neg),
   ((.vfmulVv, .vfmulVx), false, fun a b _ => a.mul b), ((.vfmaccVv, .vfmaccVx), true, fun a b d => d.fma a b),
   ((.vfnmsacVv, .vfnmsacVx), true, fun a b d => d.fma a.neg b)]

/-- The bits of SEW, the format FK and the rounding mode of a slot (R242). -/
def Sys2Proof.Claims.sewOf (s : State) : Nat := 8 * 2 ^ field s.me.u.wvtype 0 2
def Sys2Proof.Claims.formatOf (s : State) : Fmt := if field s.me.u.wvtype 3 2 = 0 then .fp32 else if field s.me.u.wvtype 3 2 = 1 then .bf16 else .fp16
def Sys2Proof.Claims.roundingOf (s : State) : Rm := if s.me.u.wvtype.getLsbD 7 then .rtz else .rne

/-- R242, R245 to R253: the vector integer and floating-point instructions, in both forms, complete whenever their sources are FULL and vd has no producer outstanding, vd being read
by those that accumulate only: each active element is the integer operation's result at SEW, or the exact floating-point result rounded once to FK, or the lesser or greater of two codes;
inactive elements keep their values and raise no flag; nothing changes but vd and the flags raised. -/
def Obligations.VectorArithmeticResults : Prop :=
  ∀ (vd vs1 vs2 : BitVec 4) (rs2 : BitVec 5) (m : BitVec 3) (s : State), s.Running → s.Full (.v vs1) → s.Free (.v vd) →
    let both := fun (forms : VecForms) (P : Instr → RegRef → Prop) =>
      (s.Full (.v vs2) → P (forms.1 vd vs1 vs2 m) (.v vs2)) ∧ (s.Full (.x rs2) → P (forms.2 vd vs1 rs2 m) (.x rs2))
    let k := formatOf s
    let w := sewOf s
    (∀ p ∈ vectorIntOps, (p.2.1 = true → s.Full (.v vd)) → both p.1 fun i src =>
      WritesElements i s vd m w (1024 / w) fun j => p.2.2 w (sourceElem s (.v vs1) w j) (sourceElem s src w j) (sourceElem s (.v vd) w j)) ∧
    (∀ p ∈ vectorFloatOps, (p.2.1 = true → s.Full (.v vd)) → both p.1 fun i src =>
      WritesElements i s vd m k.width (1024 / k.width) fun j =>
        let at' := fun r => k.decode (sourceElem s r k.width j)
        let r := p.2.2 (at' (.v vs1)) (at' src) (at' (.v vd))
        ((k.round (roundingOf s) r.1).1, r.2 ||| (k.round (roundingOf s) r.1).2)) ∧
    (∀ p ∈ [((Instr.vfminVv, Instr.vfminVx), false), ((.vfmaxVv, .vfmaxVx), true)], both p.1 fun i src =>
      WritesElements i s vd m k.width (1024 / k.width) fun j => k.minmax p.2 (sourceElem s (.v vs1) k.width j) (sourceElem s src k.width j))

/-- The parameters of a format: the fraction bits, the least exponent of a normal value, the largest finite value, and whether an overflow gives an
infinity (R310). -/
def Sys2Proof.Claims.parameters : Fmt → Nat × Int × Dyad × Bool
  | .fp32 => (23, -126, { n := 2 ^ 24 - 1, e := 104 }, true)
  | .bf16 => (7, -126, { n := 255, e := 120 }, true)
  | .fp16 => (10, -14, { n := 65504, e := 0 }, true)
  | .e5m2 => (2, -14, { n := 57344, e := 0 }, true)
  | .e4m3 => (3, -6, { n := 448, e := 0 }, false)
  | .e3m2 => (2, -2, { n := 28, e := 0 }, false)
  | .e2m3 => (3, 0, { n := 15, e := -1 }, false)
  | .e2m1 => (1, 0, { n := 6, e := 0 }, false)

/-- Two exact numbers are equal. -/
def Sys2Proof.Claims.sameNumber (a b : Dyad) : Prop := a.lt b = false ∧ b.lt a = false

/-- The magnitude `num / den · 2^e` is rounded to `n` units of `2^q`: to the nearest, ties to even, or, under RTZ, down (R249, R313). -/
def Sys2Proof.Claims.inUnits (rm : Rm) (num den : Nat) (e q : Int) (n : Nat) : Prop :=
  let m := num * 2 ^ (e - min e q).toNat
  let u := den * 2 ^ (q - min e q).toNat
  if rm = .rtz then n * u ≤ m ∧ m < (n + 1) * u
  else 2 * m ≤ (2 * n + 1) * u ∧ 2 * n * u ≤ 2 * m + u ∧ (2 * m = (2 * n + 1) * u ∨ 2 * n * u = 2 * m + u → n % 2 = 0)

/-- A code is what R313's RoundRNE, its RoundSat or R249's RoundRTZ gives for the number of magnitude `num / den · 2^e`, with the flags OF, UF and NX of
R249. -/
def Sys2Proof.Claims.roundsTo (f : Fmt) (rm : Rm) (neg : Bool) (num den : Nat) (e : Int) (code : Nat) (flags : Flags) : Prop :=
  let (frac, least, largest, infinite) := parameters f
  ∃ (t : Int) (n : Nat),
    (let m := num * 2 ^ (e - min e t).toNat
     let u := den * 2 ^ (t - min e t).toNat
     u ≤ m ∧ m < 2 * u) ∧
    let q := max t least - frac
    let mag := code % 2 ^ (f.width - 1)
    let beyond := largest.lt { n := n, e := q }
    let exact : Prop := num * 2 ^ (e - min e q).toNat = n * (den * 2 ^ (q - min e q).toNat)
    inUnits rm num den e q n ∧ code / 2 ^ (f.width - 1) = neg.toNat ∧
    (beyond = true → if infinite ∧ rm = .rne then f.decode mag = .inf false else (f.decode mag).finite = true ∧ sameNumber (f.decode mag).dyad largest) ∧
    (beyond = false → (f.decode mag).finite = true ∧ sameNumber (f.decode mag).dyad { n := n, e := q }) ∧
    (flags.getLsbD 0 = true ↔ beyond = true ∨ ¬ exact) ∧
    (den = 1 → (flags.getLsbD 2 = largest.lt { n := num, e := e })) ∧
    (f.decode mag = .zero false → num ≠ 0 → flags.getLsbD 1 = true)

/-- R243, R249, R310, R313: rounding a number that is not 0 gives the code of the nearest value, ties to the even code, or under RTZ of the next one toward zero, at
the spacing of the number's own exponent, subnormals included; what lies beyond the largest value becomes an infinity or, in the formats that saturate, under RTZ and under RoundSat, the largest; NX is
raised exactly where the value differs, OF exactly where the number exceeds the largest value, and UF where a zero results. R243, R249: rounding a value that a format holds gives its own code and raises no flag, in every format and rounding mode, but for an infinity under
saturation. -/
def Obligations.HeldValuesRoundToThemselves : Prop :=
  (∀ (f : Fmt) (rm : Rm) (c : Nat), c < 2 ^ f.width → (f.decode c).isNan = false → (rm = .sat → (f.decode c).finite = true) → f.round rm (f.decode c) = (c, 0)) ∧
  ∀ (f : Fmt) (rm : Rm) (d : Dyad), d.n ≠ 0 → roundsTo f rm (decide (d.n < 0)) d.n.natAbs 1 d.e (f.round rm (.fin d)).1 (f.round rm (.fin d)).2

/-- R254: the vector compares, in both forms, complete whenever their sources are FULL: a bit of md below the number of elements is the compare's result where its element is active
and its old value elsewhere; the bits above are cleared. A floating-point compare with a NaN gives 0, and raises NV for a signalling one, or, but for VMFEQ, for any.
The worked words of R254 decode to their instructions, and that whose second source has bit 4 set to none. -/
def Obligations.VectorCompareResults : Prop :=
  ∀ (md m : BitVec 3) (vs1 vs2 : BitVec 4) (rs2 : BitVec 5) (s : State), s.Running → s.Full (.v vs1) →
    let both := fun (forms : (BitVec 3 → BitVec 4 → BitVec 4 → BitVec 3 → Instr) × (BitVec 3 → BitVec 4 → BitVec 5 → BitVec 3 → Instr)) (P : Instr → RegRef → Prop) =>
      (s.Full (.v vs2) → P (forms.1 md vs1 vs2 m) (.v vs2)) ∧ (s.Full (.x rs2) → P (forms.2 md vs1 rs2 m) (.x rs2))
    let k := formatOf s
    let w := sewOf s
    let int := fun (f : Nat → Nat → Bool) (i : Instr) (src : RegRef) =>
      WritesMask i s md m (1024 / w) fun j => (f (sourceElem s (.v vs1) w j) (sourceElem s src w j), 0)
    let float := fun (quiet : Bool) (f : Machine.Num → Machine.Num → Bool) (i : Instr) (src : RegRef) =>
      WritesMask i s md m (1024 / k.width) fun j =>
        let a := k.decode (sourceElem s (.v vs1) k.width j)
        let b := k.decode (sourceElem s src k.width j)
        if a.isNan ∨ b.isNan then (false, if !quiet ∨ a.signalling ∨ b.signalling then flagNV else 0) else (f a b, 0)
    both (.vmseqVv, .vmseqVx) (int fun a b => a == b) ∧ both (.vmsneVv, .vmsneVx) (int fun a b => a != b) ∧
    both (.vmsltVv, .vmsltVx) (int fun a b => decide (signedOf w a < signedOf w b)) ∧ both (.vmsltuVv, .vmsltuVx) (int fun a b => decide (a < b)) ∧
    both (.vmfeqVv, .vmfeqVx) (float true fun a b => !a.lt b && !b.lt a) ∧ both (.vmfltVv, .vmfltVx) (float false fun a b => a.lt b) ∧
    both (.vmfleVv, .vmfleVx) (float false fun a b => !b.lt a) ∧
    decode 0x003100DB = .ok (.vaddVv 1 2 3 0) ∧ decode 0x80A312DB = .ok (.vsaddVx 5 6 10 0) ∧ decode 0x8231225B = .ok (.vfmaccVv 4 2 3 1) ∧
    decode 0x5020C15B = .ok (.vmfltVv 2 1 2 0) ∧ decode 0x305170DB = .ok (.vsllVx 1 2 5 0) ∧ ∀ i, decode 0x013100DB ≠ .ok i

/-- The scalar format of a code (R258). -/
def Sys2Proof.Claims.scalarFormat (n : Nat) : Fmt :=
  if n = 0 then .fp32 else if n = 1 then .bf16 else if n = 2 then .fp16 else if n = 3 then .e4m3 else .e5m2

/-- The value in the integer format of `w` bits that VFCVTI gives a value, with its flags: rounded, and clamped with NV (R260). -/
def Sys2Proof.Claims.toInteger (w : Nat) (rm : Rm) (x : Machine.Num) : Nat × Flags :=
  let top := 2 ^ (w - 1) - 1
  let bottom := 2 ^ (w - 1)
  match x with
  | .nan _ => (top, flagNV)
  | .inf neg => (if neg then bottom else top, flagNV)
  | .zero _ => (0, 0)
  | .fin d =>
    let r := d.toInt rm
    if (2 ^ (w - 1) : Nat) ≤ r.1 then (top, flagNV) else if r.1 < -(2 ^ (w - 1) : Nat) then (bottom, flagNV)
    else (codeOf w r.1, if r.2 then flagNX else 0)

/-- The largest magnitude among some values, that of `a` (R319, R322). -/
def Sys2Proof.Claims.isLargest (xs : List Machine.Num) (a : Dyad) : Prop :=
  a.n ≠ 0 ∧ Machine.Num.fin a ∈ xs ∧ ∀ x ∈ xs, Dyad.lt { n := a.n.natAbs, e := a.e } { n := x.dyad.n.natAbs, e := x.dyad.e } = false

/-- QuantMX (R319): the scale and the codes of a block of finite values, `top` the greatest exponent of the element format. -/
def Sys2Proof.Claims.quantisesMx (f : Fmt) (top : Int) (xs : List Machine.Num) (scale : Nat) (codes : List Nat) : Prop :=
  ((∀ x ∈ xs, x.dyad.n = 0) → scale = 0) ∧
  (∀ a, isLargest xs a → (scale : Int) = min (max (a.log2 - top + 127) 0) 254) ∧
  codes.length = xs.length ∧
  ∀ (j : Nat) x, xs[j]? = some x → codes[j]? = some (f.round .sat (timesPow x (127 - scale))).1

/-- QuantDXB (R322): the exponents and the codes of a block of finite values, for `w` magnitude bits and a spread. -/
def Sys2Proof.Claims.quantisesDxb (w spread : Nat) (xs : List Machine.Num) (ea eb : Nat) (codes : List Nat) : Prop :=
  let units := fun (d : Dyad) (e : Int) (n : Nat) => inUnits .rne d.n.natAbs 1 d.e (e - 127 - ((w : Int) - 1)) n
  ((∀ x ∈ xs, x.dyad.n = 0) → ea = spread) ∧
  (∀ a, isLargest xs a → ∃ n, units a (a.log2 + 127) n ∧ (ea : Int) = min (max (a.log2 + 127 + if 2 ^ w ≤ n then 1 else 0) spread) 254) ∧
  ea = eb + spread ∧ codes.length = xs.length ∧
  ∀ (j : Nat) x, xs[j]? = some x → ∃ mb ma, units x.dyad eb mb ∧ units x.dyad ea ma ∧
    let sign := if x.negative then 2 ^ w else 0
    codes[j]? = some (if mb < 2 ^ w then 2 ^ (w + 1) + sign + mb else sign + min ma (2 ^ w - 1))

/-- R258 to R261, R317 to R319, R321, R322: a block with a NaN or an infinity is quantised to exponents 0xFF and codes 0; a block of finite values to the scale that its largest magnitude
gives, or to E_a that it gives and E_b the spread below, and to one rounding of each element: by the scale, saturating, or against E_b where the magnitude fits and otherwise against E_a. NX is raised exactly
where a code's value is not the element's. R258 to R261: the conversions complete whenever vs1 is FULL and vd has no producer outstanding. VCVT converts between FK and a scalar format the elements that fit in both, and clears vd
above them; VFCVTI and VICVTF convert between FK and integers of its width; VQNT places the codes and exponents of each block of 32 elements as the layout gives, and VDEQ reads them back, each value
rounded once. -/
def Obligations.VectorConversionResults : Prop :=
  (∀ (b : BlockFmt) (spread : Nat) (xs : List Machine.Num), b ∈ [BlockFmt.mx .e4m3, .mx .e5m2, .mx .e2m1, .dxb 6, .dxb 2] → spread < 16 →
     (∀ d, Machine.Num.fin d ∈ xs → d.n ≠ 0) →
     let q := b.quantise spread xs
     ((∃ x ∈ xs, x.finite = false) → (∀ c ∈ q.1, c = 0) ∧ q.1.length = xs.length ∧ q.2.1 = 255 ∧ q.2.2.1 = (match b with | .mx _ => 0 | .dxb _ => 255)) ∧
     ((∀ x ∈ xs, x.finite = true) →
       (∀ p ∈ [(Fmt.e4m3, (8 : Int)), (.e5m2, 15), (.e2m1, 2)], b = .mx p.1 → quantisesMx p.1 p.2 xs q.2.1 q.1 ∧ q.2.2.1 = 0) ∧
       (∀ w, b = .dxb w → quantisesDxb w spread xs q.2.1 q.2.2.1 q.1) ∧
       (q.2.2.2 = 0 ∨ q.2.2.2 = flagNX) ∧
       (q.2.2.2 = flagNX ↔ ∃ (j : Nat) (x : Machine.Num) (c : Nat), xs[j]? = some x ∧ q.1[j]? = some c ∧ ¬ sameNumber (b.value q.2.1 q.2.2.1 c).dyad x.dyad))) ∧
  ∀ (vd vs1 : BitVec 4) (code : BitVec 5) (m : BitVec 3) (s : State), s.Running → s.Full (.v vs1) → s.Free (.v vd) →
    let k := formatOf s
    let rm := roundingOf s
    let n := 1024 / k.width
    let other := scalarFormat (code.toNat % 16)
    let frm := if code.getLsbD 4 then other else k
    let res := if code.getLsbD 4 then k else other
    let quiet := fun (x : Machine.Num) (r : Nat × Flags) => (r.1, r.2 ||| if x.signalling then flagNV else 0)
    (WritesElements (.vcvt vd vs1 code m) s vd m res.width (1024 / max frm.width res.width) fun j =>
      let x := frm.decode (sourceElem s (.v vs1) frm.width j)
      quiet x (res.round rm x)) ∧
    (WritesElements (.vfcvti vd vs1 m) s vd m k.width n fun j => toInteger k.width rm (k.decode (sourceElem s (.v vs1) k.width j))) ∧
    (WritesElements (.vicvtf vd vs1 m) s vd m k.width n fun j =>
      let i := signedOf k.width (sourceElem s (.v vs1) k.width j)
      if i = 0 then (0, 0) else k.roundFin rm { n := i, e := 0 }) ∧
    (∀ p ∈ [((8 : BitVec 5), BlockFmt.mx .e4m3, 8), (9, .mx .e5m2, 8), (10, .mx .e2m1, 4), (11, .dxb 6, 8), (12, .dxb 2, 4)], code = p.1 →
      let blocks := n / 32
      let quant := fun b => p.2.1.quantise (field s.me.u.wfmt 8 4) ((List.range 32).map fun j => k.decode (sourceElem s (.v vs1) k.width (32 * b + j)))
      (∃ v, Completes (.vqnt vd vs1 code) s s (withFlags (s.me.setV vd v) ((List.range blocks).foldl (fun g b => g ||| (quant b).2.2.2) 0)) ∧
        (∀ b < blocks, (∀ j < 32, field v (p.2.2 * (32 * b + j)) p.2.2 = ((quant b).1.getD j 0) % 2 ^ p.2.2) ∧ field v (8 * (96 + 2 * b)) 8 = (quant b).2.1 ∧
          field v (8 * (97 + 2 * b)) 8 = (quant b).2.2.1) ∧
        (∀ a < 96, 32 * p.2.2 * blocks ≤ 8 * a → field v (8 * a) 8 = 0) ∧ ∀ a < 128, 96 + 2 * blocks ≤ a → field v (8 * a) 8 = 0) ∧
      WritesElements (.vdeq vd vs1 code) s vd 0 k.width n fun j =>
        k.round rm (p.2.1.value (field (s.v vs1) (8 * (96 + 2 * (j / 32))) 8) (field (s.v vs1) (8 * (97 + 2 * (j / 32))) 8) (field (s.v vs1) (p.2.2 * j) p.2.2)))

/-- R244, R266, R267: the permutes and the mask instructions complete whenever their sources are FULL and their destination waits for no producer: VSLIDEUP, VSLIDEDOWN, VGATHER, VBCAST, VEXT, VCOMPRESS
and VMERGE move elements at SEW, VMAND, VMOR and VMNOT act on all 128 bits, VMPOP and VMFIRST count and find, and VCFG writes `wvtype` if the value is a legal one and answers what it then is. -/
def Obligations.PermuteAndMaskResults : Prop :=
  ∀ (vd vs1 vs2 : BitVec 4) (rd rs1 rs2 : BitVec 5) (m md ms1 ms2 : BitVec 3) (s : State), s.Running →
    let w := sewOf s
    let n := 1024 / w
    let e := fun j => if j < n then sourceElem s (.v vs1) w j else 0
    (s.Free (.v vd) →
      (s.Full (.v vs1) → s.Full (.x rs2) →
        (WritesElements (.vslideup vd vs1 rs2 m) s vd m w n fun j => (if (s.x rs2).toNat ≤ j then e (j - (s.x rs2).toNat) else field (s.v vd) (w * j) w, 0)) ∧
        (WritesElements (.vslidedown vd vs1 rs2 m) s vd m w n fun j => (e (j + (s.x rs2).toNat), 0))) ∧
      (s.Full (.v vs1) → s.Full (.v vs2) →
        (WritesElements (.vgather vd vs1 vs2 m) s vd m w n fun j => (e (sourceElem s (.v vs2) w j), 0)) ∧
        (WritesElements (.vmerge vd vs1 vs2 m) s vd 0 w n fun j => (if (s.me.getM m).getLsbD j then sourceElem s (.v vs2) w j else e j, 0))) ∧
      (s.Full (.x rs1) → WritesElements (.vbcast vd rs1 m) s vd m w n fun _ => (field (s.x rs1) 0 w, 0)) ∧
      (s.Full (.v vs1) → WritesElements (.vcompress vd vs1 ms2) s vd 0 w n fun j =>
        ((((List.range n).filter fun i => (s.me.getM ms2).getLsbD i).map e).getD j 0, 0))) ∧
    (s.Full (.v vs1) → s.Full (.x rs2) → s.Free (.x rd) → WritesX (.vext rd vs1 rs2) s rd (BitVec.ofInt 64 (signedOf w (e (s.x rs2).toNat)))) ∧
    Completes (.vmand md ms1 ms2) s s (s.me.setM md (s.me.getM ms1 &&& s.me.getM ms2)) ∧ Completes (.vmor md ms1 ms2) s s (s.me.setM md (s.me.getM ms1 ||| s.me.getM ms2)) ∧
    Completes (.vmnot md ms1) s s (s.me.setM md (~~~s.me.getM ms1)) ∧
    (s.Free (.x rd) →
      (∃ k : Nat, k = (List.range 128).countP (fun j => (s.me.getM ms1).getLsbD j) ∧ WritesX (.vmpop rd ms1) s rd (BitVec.ofNat 64 k)) ∧
      (s.me.getM ms1 = 0 → WritesX (.vmfirst rd ms1) s rd (BitVec.allOnes 64)) ∧
      (∀ j, (s.me.getM ms1).getLsbD j = true → (∀ i < j, (s.me.getM ms1).getLsbD i = false) → WritesX (.vmfirst rd ms1) s rd (BitVec.ofNat 64 j))) ∧
    (s.Full (.x rs1) → s.Free (.x rd) →
      let v := s.x rs1
      let legal : Prop := v.toNat < 256 ∧ field v 5 2 = 0 ∧ v.getLsbD 2 = false ∧ field v 3 2 ≠ 3 ∧ field v 0 2 ≠ 3
      let t := fun v : Word => BitVec.ofNat 64 (128 / 2 ^ field v 0 2 * 65536 + (if field v 3 2 = 0 then 32 else 64) * 256 + field v 0 8)
      (legal → Completes (.vcfg rd rs1) s s ({ s.me with u := { s.me.u with wvtype := v } }.setX rd (t v))) ∧
      (¬ legal → WritesX (.vcfg rd rs1) s rd (0x8000000000000000#64 ||| t s.me.u.wvtype)))

/-- The pairwise tree of R265 over a power of two of entries, some absent. -/
def Sys2Proof.Claims.pairwise (op : Nat → Nat → Nat × Flags) : Nat → (Nat → Option (Nat × Flags)) → Option (Nat × Flags)
  | 0, t => t 0
  | k + 1, t =>
    pairwise op k fun i =>
      match t i, t (i + 2 ^ k) with
      | none, q => q
      | p, none => p
      | some p, some q => some ((op p.1 q.1).1, p.2 ||| q.2 ||| (op p.1 q.1).2)

/-- R249, R264, R265: the reductions complete whenever vs1 is FULL and their destination waits for no producer: VREDSUM and VREDMAX give the sum and the maximum of the active signed elements; VFREDSUM, VFREDMAX and
VFREDAMAX combine the active elements in the pairwise tree that halves its entries at each step, with the flags that its operations raise; a NaN result is the canonical one (R249). The model's reading: so is that of a single active element, which no operation has met, and a signalling one raises NV; and VFREDAMAX gives a single element's magnitude (log 45). -/
def Obligations.ReductionResults : Prop :=
  ∀ (rd : BitVec 5) (vs1 : BitVec 4) (m : BitVec 3) (s : State), s.Running → s.Full (.v vs1) → s.Free (.x rd) →
    let w := sewOf s
    let act := fun j => (s.me.getM m).getLsbD j
    let ints := ((List.range (1024 / w)).filter act).map fun j => signedOf w (sourceElem s (.v vs1) w j)
    let k := formatOf s
    let float := fun (i : Instr) (code : Nat → Nat) (empty : Nat) (op : Nat → Nat → Nat × Flags) =>
      match pairwise op (if k = .fp32 then 5 else 6) fun j => if act j then some (code (sourceElem s (.v vs1) k.width j), 0) else none with
      | none => WritesX i s rd (BitVec.ofNat 64 empty)
      | some (c, g) =>
        let completes := fun (c : Nat) (g : Flags) => Completes i s s (withFlags (s.me.setX rd (BitVec.ofNat 64 c)) g)
        match k.decode c with
        | .nan sig => completes k.nanCode (g ||| if sig then flagNV else 0)
        | _ => completes c g
    WritesX (.vredsum rd vs1 m) s rd (BitVec.ofInt 64 ints.sum) ∧
    (ints = [] → WritesX (.vredmax rd vs1 m) s rd (BitVec.ofInt 64 (-(2 ^ (w - 1) : Nat)))) ∧
    (∀ i ∈ ints, (∀ j ∈ ints, j ≤ i) → WritesX (.vredmax rd vs1 m) s rd (BitVec.ofInt 64 i)) ∧
    float (.vfredsum rd vs1 m) id 0 (fun a b =>
      let x := (k.decode a).add (k.decode b)
      ((k.round (roundingOf s) x.1).1, x.2 ||| (k.round (roundingOf s) x.1).2)) ∧
    float (.vfredmax rd vs1 m) id k.nanCode (k.minmax true) ∧ float (.vfredamax rd vs1 m) (fun c => c % 2 ^ (k.width - 1)) k.nanCode (k.minmax true)

/-- The results of the SFU for a code of a format with the codes `nan`, `inf` and `one` of its canonical NaN, +∞ and 1, `sign` the sign bit, from which `top`
on 2^x overflows (R249, R262). -/
def Sys2Proof.Claims.sfuResults (f : Fmt) (nan inf one sign : Nat) (top : Int) (c : Nat) : Prop :=
  let is := fun (op : SfuOp) (code : Nat) (g : Flags) => op.code f c = (code, g)
  let signed := fun (neg : Bool) (code : Nat) => (if neg then sign else 0) + code
  let power := fun (d : Dyad) (k : Int) => sameNumber d { n := 1, e := k }
  match f.decode c with
  | .nan sig => ∀ op, is op nan (if sig then flagNV else 0)
  | .inf neg => is .exp2 (if neg then 0 else inf) 0 ∧ (if neg then is .log2 nan flagNV else is .log2 inf 0) ∧ is .rcp (signed neg 0) 0 ∧
      (if neg then is .rsqrt nan flagNV else is .rsqrt 0 0) ∧ is .tanh (signed neg one) 0
  | .zero neg => is .exp2 one 0 ∧ is .log2 (sign + inf) flagDZ ∧ is .rcp (signed neg inf) flagDZ ∧ is .rsqrt (signed neg inf) flagDZ ∧ is .tanh (signed neg 0) 0
  | .fin d =>
    let neg := decide (d.n < 0)
    (∀ k : Int, sameNumber d { n := k, e := 0 } → SfuOp.exp2.code f c = f.round .rne (.fin { n := 1, e := k })) ∧
    (d.lt { n := top, e := 0 } = false → is .exp2 inf (flagOF ||| flagNX)) ∧
    (neg = true → is .log2 nan flagNV ∧ is .rsqrt nan flagNV) ∧
    (∀ k : Int, power d k → SfuOp.log2.code f c = f.round .rne (.of { n := k, e := 0 } false)) ∧
    roundsTo f .rne neg 1 d.n.natAbs (-d.e) (SfuOp.rcp.code f c).1 (SfuOp.rcp.code f c).2 ∧
    (neg = false → ∃ (q : Int) (n : Nat), 2 ^ (parameters f).1 ≤ n ∧ n ≤ 2 ^ ((parameters f).1 + 1) ∧
      (let z := d.e + 2 * (q - 1)
       let m := d.n.natAbs * 2 ^ z.toNat
       m * (2 * n - 1) ^ 2 ≤ 2 ^ (-z).toNat ∧ 2 ^ (-z).toNat ≤ m * (2 * n + 1) ^ 2) ∧
      (f.decode (SfuOp.rsqrt.code f c).1).finite = true ∧ sameNumber (f.decode (SfuOp.rsqrt.code f c).1).dyad { n := n, e := q }) ∧
    (SfuOp.tanh.code f ((c + sign) % (2 * sign))).1 = ((SfuOp.tanh.code f c).1 + sign) % (2 * sign) ∧
    (Dyad.lt { n := d.n.natAbs, e := d.e } { n := 64, e := 0 } = false → is .tanh (signed neg one) flagNX) ∧
    (Dyad.lt { n := d.n.natAbs, e := d.e } { n := 1, e := -40 } = true → (SfuOp.tanh.code f c).1 = c)

/-- R249, R262: the functions of the SFU, for every code of each format: the special results of the table; 1/x and 1/√x rounded once to nearest even, with their flags for 1/x; 2^x exact for an integer in range, and +∞ with OF and
NX beyond it; log2 x exact for a power of two; tanh x odd, 1 with NX from 64 on, x itself below 2^-40, which are their roundings. (That the others, which are no finite binary numbers, are rounded right rests on log 12.)
R85, R243, R262, R263: an SFU instruction completes whenever its slot has no request outstanding, its source is FULL and vd has no producer: it queues the result computed from its operands as they are, vd is EMPTY until the SFU
writes it, and service starts a cycle later where the queue was empty; it waits without limit while the slot has a request. A service takes 4 cycles; its end writes vd, raises the flags, and starts the next; a
discarded request writes nothing. -/
def Obligations.SfuRequestsAreServed : Prop :=
  (∀ (vd vs1 : BitVec 4) (m : BitVec 3) (s : State), s.Running → s.Full (.v vs1) → s.Free (.v vd) →
     ∀ p ∈ [(Instr.vexp2 vd vs1 m, SfuOp.exp2), (.vlog2 vd vs1 m, .log2), (.vrcp vd vs1 m, .rcp), (.vrsqrt vd vs1 m, .rsqrt), (.vtanh vd vs1 m, .tanh)],
       let k := formatOf s
       let results := fun j => p.2.code k (sourceElem s (.v vs1) k.width j)
       ((∃ q ∈ s.here.sfuq, q.slot = s.curSlot) → ∃ t, exec p.1 s = .next t ∧ Waits s t .unlimited) ∧
       ((∀ q ∈ s.here.sfuq, q.slot ≠ s.curSlot) → ∃ t v, exec p.1 s = .next t ∧ elementsOf s vd m k.width (1024 / k.width) results v ∧
         t.here.sfuq = s.here.sfuq ++ [{ slot := s.curSlot, vd := vd, value := v, flags := raisedBy s m (1024 / k.width) results, discarded := false }] ∧
         t.me.pc = s.me.pc + 4 ∧ t.me.still = { s.me.markV vd { fe := .empty, prod := some .sfu } with pc := 0 }.still ∧ SameMemory s t ∧
         (s.here.sfuq = [] → ∃ d ∈ t.agenda, d.act = .event (.sfuServiceStart s.curCore) ∧ d.cycle = s.cycle + 1))) ∧
  (∀ (s : State) (c : Nat) (q : SfuReq) (rest : List SfuReq), (s.core c).sfuq = q :: rest → q.slot < 16 →
     ((s.core c).sfuBusy = false → ∃ t, exec (.sfuServiceStart c) s = .next t ∧ t.core c = { s.core c with sfuBusy := true } ∧
       ∃ d ∈ t.agenda, d.act = .event (.sfuResult c) ∧ d.cycle = s.cycle + 4) ∧
     (∃ t, exec (.sfuResult c) s = .next t ∧ (t.core c).sfuq = rest ∧ (t.core c).sfuBusy = false ∧
       (q.discarded = true → t.slot c q.slot = s.slot c q.slot) ∧
       (q.discarded = false →
         let r := withFlags ((s.slot c q.slot).setV q.vd q.value) q.flags
         { t.slot c q.slot with
           bseq := r.bseq
           marks := r.marks } = r ∧ (r.nodeKey = (s.slot c q.slot).nodeKey → t.slot c q.slot = r)) ∧ SameMemory s t ∧
       (rest ≠ [] → ∃ d ∈ t.agenda, d.act = .event (.sfuServiceStart c) ∧ d.cycle = s.cycle))) ∧
  ∀ p ∈ [(Fmt.fp32, 0x7FC00000, 0x7F800000, 0x3F800000, 0x80000000, (128 : Int)), (.bf16, 0x7FC0, 0x7F80, 0x3F80, 0x8000, 128),
      (.fp16, 0x7E00, 0x7C00, 0x3C00, 0x8000, 16)],
    ∀ c < 2 ^ p.1.width, sfuResults p.1 p.2.1 p.2.2.1 p.2.2.2.1 p.2.2.2.2.1 p.2.2.2.2.2 c

/-- R71, R83, R255, R256, R257: a vector memory instruction with no active element completes and touches nothing, a load making vd FULL with what it holds; with active elements whose addresses are aligned and may be
reached it starts their rows in the banks and the slot goes on. A misaligned element traps with cause 4 or 6, and, where none is, one beyond the local alias with cause 5 or 7, at the least such address, before any access. At the last row's
grant a load's elements are in vd, FULL, and a store's in memory, every other byte of it as before. -/
def Obligations.VectorMemoryAccesses : Prop :=
  (∀ (v vs2 : BitVec 4) (rs1 rs2 : BitVec 5) (m : BitVec 3) (s : State), s.Running → s.Full (.x rs1) →
     let w := sewOf s
     let n := w / 8
     let base := s.x rs1
     let unit := fun j => base + BitVec.ofNat 64 (j * n)
     let stride := fun j => base + BitVec.ofNat 64 j * s.x rs2
     let index := fun j => base + BitVec.ofNat 64 (sourceElem s (.v vs2) w j)
     let act := fun j => decide (j < 1024 / w) && (s.me.getM m).getLsbD j
     let list := fun (addr : Nat → Word) => ((List.range (1024 / w)).filter act).map fun j => (j, (addr j).toNat)
     let traps := fun (i : Instr) (addr : Nat → Word) (first second : Nat) =>
       (∀ j, act j = true → (addr j).toNat % n ≠ 0 → (∀ k, act k = true → (addr k).toNat % n ≠ 0 → (addr j).toNat ≤ (addr k).toNat) → exec i s = .next (s.trap first (addr j))) ∧
       ((∀ k, act k = true → (addr k).toNat % n = 0) → ∀ j, act j = true → 0x200000 < (addr j).toNat + n →
         (∀ k, act k = true → 0x200000 < (addr k).toNat + n → (addr j).toNat ≤ (addr k).toNat) → exec i s = .next (s.trap second (addr j)))
     let starts := fun (i : Instr) (p : Perm) (addr : Nat → Word) (op : LocalOp) (data : BitVec 32768) =>
       (∃ j, act j = true) → (∀ j, act j = true → (addr j).toNat % n = 0 ∧ reaches s p (addr j).toNat n) → s.Unheld → s.here.gl.lists = [] →
         ∃ t a rows, exec i s = .next t ∧ (∀ r, r ∈ rows ↔ ∃ j, act j = true ∧ (addr j).toNat / 64 = r) ∧
           t.me.mem = some { op := op, addr := a, rows := rows, data := data, poison := false } ∧ t.me.pc = s.me.pc + 4 ∧ { t.me with mem := s.me.mem }.still = s.me.still ∧
           t.here.bank = s.here.bank ++ (rows.map fun r => { cls := .slot, bank := r % 32, first := s.cycle + 4, act := .slotRow s.curSlot r }) ∧ SameMemory s t
     (s.Free (.v v) → ∀ p ∈ [(Instr.vle v rs1 m, unit, True), (.vlse v rs1 rs2 m, stride, s.Full (.x rs2)), (.vlxe v rs1 vs2 m, index, s.Full (.v vs2))], p.2.2 →
       traps p.1 p.2.1 4 5 ∧ starts p.1 .read p.2.1 (.vload v n (list p.2.1)) ((s.v v).setWidth 32768) ∧
       ((∀ j, act j = false) → Completes p.1 s s (s.me.setV v (s.v v)))) ∧
     (s.Full (.v v) → ∀ p ∈ [(Instr.vse v rs1 m, unit, True), (.vsse v rs1 rs2 m, stride, s.Full (.x rs2)), (.vsxe v rs1 vs2 m, index, s.Full (.v vs2))], p.2.2 →
       traps p.1 p.2.1 6 7 ∧ starts p.1 .write p.2.1 (.vstore n (list p.2.1) (s.v v)) 0 ∧ ((∀ j, act j = false) → Completes p.1 s s s.me))) ∧
  (∀ (s : State) (c i n row : Nat) (m : LocalAcc) (l : List (Nat × Nat)), Alone s c i m → m.rows = [row] → (s.core c).spadPoison = [] → n = 1 ∨ n = 2 ∨ n = 4 →
     ((∃ vd, m.op = .vload vd n l) ∨ ∃ v, m.op = .vstore n l v) → (∀ e ∈ l, e.2 / 64 = row ∧ e.2 % n = 0 ∧ 8 * n * (e.1 + 1) ≤ 1024) → l.Pairwise (fun e f => e.1 < f.1 ∧ e.2 ≠ f.2) →
     ∃ t, exec (.bankGrant c) s = .next t ∧ (t.slot c i).mem = none ∧ (t.slot c i).x = (s.slot c i).x ∧ t.mem = s.mem ∧ (∀ e, e ≠ c → t.core e = s.core e) ∧
       let k := s.core c
       (∀ vd, m.op = .vload vd n l → m.poison = false → (t.core c).spad = k.spad ∧ (t.slot c i).vState vd = RegSt.full ∧
         (∀ e ∈ l, field ((t.slot c i).getV vd) (8 * n * e.1) (8 * n) = k.spad.load n e.2) ∧
         ∀ j, 8 * n * (j + 1) ≤ 1024 → (∀ e ∈ l, e.1 ≠ j) → field ((t.slot c i).getV vd) (8 * n * j) (8 * n) = field m.data (8 * n * j) (8 * n)) ∧
       (∀ v, m.op = .vstore n l v → (t.slot c i).v = (s.slot c i).v ∧ (∀ e ∈ l, (t.core c).spad.load n e.2 = field v (8 * n * e.1) (8 * n)) ∧
         ∀ a, (∀ e ∈ l, a < e.2 ∨ e.2 + n ≤ a) → (t.core c).spad.read a = k.spad.read a))

/-! ### Resets -/

/-- R342, R402, R417, R422: a panel reset starts every stage again: where the first three succeed, every core starts with its core image or its die is not offered, the clock registers are written, at most 8 ports are enabled at once, and all else is as after reset, but for the bytes, poison and split of HBM;
where one of the three fails STAGE holds its code, LASTALARM 0, the host queue stays closed and no slot is due to issue, and a fuse parity error halts the panel and erases the keys. A die reset starts every core of the die so, its slot 15 due 15 cycles later, unless a stage had failed, and no other slot of it, and no
other core changed; a module of the die is then UP, or stays DOWN with HOLD 1 and the die is not offered, but for the spare module of an east or west edge, which may have taken the place of one that does not work; in a halt it drains or is HELD. The model's own: HBM keeps its bytes (log 40), the firmware's image
and values are open (log 3), a die reset starts its cores as a panel reset does and trains its modules (log 41), and the issue 15 cycles after the reset (log 14). -/
def Obligations.ResetsStartAgain : Prop :=
  (∀ s : State, ∃ t, exec .panelReset s = .next t ∧ t.mem = s.mem ∧ t.poison = s.poison ∧ t.hshare = s.hshare ∧ t.net = [] ∧ t.reqs = [] ∧ t.sow = Sower.reset ∧ t.cycle = 0 ∧
     (((∀ c < 16384, t.core c = Core.booted ∨ (t.core c = Core.reset ∧ (t.die (dieOf c)).offered = false)) ∧
        (∀ d ∈ State.reset.agenda, d ∈ t.agenda) ∧ (∀ d ∈ t.agenda, d ∈ State.reset.agenda ∨ ∃ p, d.act = .event (.stolonEnable p)) ∧
        t.sec = { Security.reset with enables := t.sec.enables, sigreq := Config.bootSigreq } ∧ t.sec.enables.length ≤ 8 ∧ (Config.imagePart Config.firmware).2 ≤ 131072 ∧
        t.host = { HostIf.reset with domcfg := t.host.domcfg, route := t.host.route } ∧
        ∀ d < 32, (t.die d).clkRate = Config.bootRate d ∧ (t.die d).clkOff = Config.bootOffset d ∧ (t.die d).clkGen = 1) ∨
      ∃ n ∈ [1, 2, 3], t.cores = [] ∧ t.sec.stage = n ∧ t.sec.lastAlarm = 0 ∧ t.host.opened = false ∧ (∀ d ∈ t.agenda, ∀ c i, d.act ≠ .issue c i) ∧
        (n = 1 → t.sec.haltAll = true ∧ t.sec.erased = true ∧ t.sec.alcount = 1))) ∧
  (∀ (s : State) (die : Nat), die < 32 → ∃ t, exec (.dieReset die) s = .next t ∧ t.mem = s.mem ∧
     (∀ c, dieOf c ≠ die → t.core c = s.core c) ∧
     (∀ c, c < 16384 → dieOf c = die → t.core c = Core.booted ∧ (s.sec.stage = 6 → ∃ d ∈ t.agenda, d.act = .issue c 15 ∧ d.cycle = s.cycle + 15) ∧
       (s.sec.stage < 6 → ∀ d ∈ t.agenda, ∀ i, d.act ≠ .issue c i) ∧ ∀ d ∈ t.agenda, ∀ i, d.act = .issue c i → i = 15) ∧
     (s.sec.haltAll = true → ∀ m ∈ dieModules die, (t.module m).st = .drain ∨ (t.module m).st = .held) ∧
     (s.sec.haltAll = false → ∀ m ∈ dieModules die, (t.module m).st = .up ∨
       ((t.module m).st = .down ∧ (t.module m).ends[0].hold = true ∧ ((t.die die).offered = false ∨ (m % 72 / 18 % 2 = 1 ∧ m % 18 = 17)))))

/-- R26, R46, R52, R54, R242, R315, R341, R342, R417: after reset every slot 15 is READY at the first byte of the core image in M-mode with MIE 0 and issues first in cycle 15, slots 0 to 14 are STOPPED, every byte of every scratchpad is 0,
the trap queues are empty (the image that fills the service region and the first issue's cycle are the model's choices: log 3, log 14); wtmo, wfetrap and wvflags read 0, wvtype 2 and wfmt 0x400; STAGE is 6 and the host queue is open. In every state mvendorid, marchid, mimpid, misa, mideleg, mie, mip, sie and sip read the fixed values of
their table; `wslot` holds the die, row, column and slot; an empty trap queue reads 0. -/
def Obligations.ResetAndFixedValues : Prop :=
  (∀ c < 16384, ∀ i < 16,
     let s := { State.reset with
       curCore := c
       curSlot := i }
     (i = 15 → s.me.st = .ready ∧ s.me.pc = 0x1E0000 ∧ s.me.mode = .m ∧ s.me.c.mstatus.getLsbD 3 = false ∧
       ∃ d ∈ State.reset.agenda, d.act = .issue c 15 ∧ d.cycle = 15) ∧
     (i ≠ 15 → s.me.st = .stopped ∧ s.me.pid = none) ∧ s.me.hold = false ∧ (∀ a, s.here.spad.read a = 0) ∧ s.here.trapq = [] ∧
     s.csrRead 0x800 = some 0 ∧ s.csrRead 0x801 = some 0 ∧ s.csrRead 0x802 = some 2 ∧ s.csrRead 0x803 = some 0 ∧ s.csrRead 0x804 = some 0x400) ∧
  State.reset.sec.stage = 6 ∧ State.reset.host.opened = true ∧
  (∀ s : State,
     s.csrRead 0xF11 = some 0 ∧ s.csrRead 0xF12 = some 0x8000000000000057 ∧ s.csrRead 0xF13 = some 0x10000 ∧ s.csrRead 0x301 = some 0x8000000000941101 ∧
     (∀ n ∈ [0x303, 0x304, 0x344, 0x104, 0x144], s.csrRead n = some 0) ∧
     (s.curCore < 16384 → s.Running → ∃ w, s.csrRead 0xC80 = some w ∧ field w 0 4 = s.curSlot ∧ field w 4 4 = colOf s.curCore ∧
       field w 8 5 = rowOf s.curCore ∧ field w 13 5 = dieOf s.curCore) ∧
     (s.here.trapq = [] → s.csrRead 0x5C0 = some 0))

/-! ### The machine as a whole -/

/-- R9 to R24: decoding the word of a well-formed instruction gives the instruction, with every operand at every value. -/
def Obligations.DecodingAnEncodedInstructionGivesIt : Prop := ∀ i : Instr, i.wf = true → decode (encode i) = .ok i

/-- R9, R12, R16 to R24, R56 to R60, R244 to R267: words that the spec writes out decode to the instructions it names. -/
def Obligations.WrittenWordsDecode : Prop :=
  decode 0x0000000B = .ok .park ∧ decode 0x1005800B = .ok (.wake 11) ∧ decode 0x4000000B = .ok .stop ∧ decode 0x0201900B = .ok (.feEmpty (.v 3)) ∧
  decode 0x00053503 = .ok (.ld 10 10 0) ∧ decode 0x123455B7 = .ok (.lui 11 0x12345) ∧ decode 0x6785859B = .ok (.addiw 11 11 0x678) ∧
  decode 0x01D3A02F = .ok (.amoaddW 0 7 29 false false) ∧ decode 0x0005E57B = .ok (.vcfg 10 11) ∧ decode 0x003100DB = .ok (.vaddVv 1 2 3 0) ∧
  decode 0x80A312DB = .ok (.vsaddVx 5 6 10 0) ∧ decode 0x8231225B = .ok (.vfmaccVv 4 2 3 1)

/-- What the turn of a slot leaves for its instruction (R44, R69): the slot's next issue is due a rotation later, it is the issuing slot, its word is known, and its fetch buffer may have been filled. Nothing else has changed. -/
structure Sys2Proof.Claims.Turned (s u : State) (d : Due) (rest : List Due) (c i : Nat) (w : BitVec 32) : Prop where
  cycle : u.cycle = max s.cycle d.cycle
  agenda : u.agenda = insertDue { cycle := max s.cycle d.cycle + 16, phase := 3, act := .issue c i } rest
  issuing : u.curCore = c ∧ u.curSlot = i ∧ u.curWord = w
  slot : { u.slot c i with fetch := (s.slot c i).fetch } = s.slot c i
  others : ∀ e j, (e ≠ c ∨ j ≠ i) → u.slot e j = s.slot e j
  cores : ∀ e, { u.core e with slots := (s.core e).slots } = s.core e
  machine : { u with
    cycle := s.cycle
    agenda := s.agenda
    curCore := s.curCore
    curSlot := s.curSlot
    curWord := s.curWord
    cores := s.cores } = s

/-- R9, R25, R44, R69, R72: where a slot's issue is the next thing due and the slot may issue, a step executes the instruction that the word at its pc decodes to, or the illegal instruction of that word; the word is the four bytes at the pc,
from the fetch buffer where that holds them; a fetch that fails takes cause 1. A slot that is held, or waits in WALK, PAGE or FAULTED, or that a wake of this very cycle released (R56), executes nothing. Where an event is next the step performs it, where an
uncorrectable error is next (R345; log 68) it strikes, and nothing due is the idle fault (log 9). The retest of a wait that `sload` restored names it, and does nothing else (R230, R353; log 105). -/
def Obligations.StepRunsTheDecodedInstruction : Prop :=
  (∀ (s : State) (d : Due) (rest : List Due) (c i : Nat), i < 16 → s.agenda = d :: rest → d.act = .issue c i → s.halted c = false → (s.slot c i).hold = false →
     (s.slot c i).mem = none → (s.slot c i).st = .ready ∨ (s.slot c i).st = .blocked → (s.slot c i).issueFrom ≤ max s.cycle d.cycle →
     (∀ w, s.fetchAt c i = .ok w → ∃ u, Turned s u d rest c i w ∧
       (∀ instr, decode w = .ok instr → step s = exec instr u) ∧ (∀ e, decode w = .error e → step s = exec (.illegalInstruction w) u)) ∧
     (∀ x, s.fetchAt c i = .error x → ∃ u w, Turned s u d rest c i w ∧ step s = .next (u.trap 1 (s.slot c i).pc x)) ∧
     ((s.slot c i).fetch = none → (s.slot c i).mode = .m → (s.slot c i).pc.toNat % 4 = 0 → (s.core c).spadPoison = [] →
       ((s.slot c i).pc.toNat < 0x1E0000 ∨ (i = 15 ∧ (s.slot c i).pc.toNat < 0x200000)) →
       s.fetchAt c i = .ok (BitVec.ofNat 32 ((s.core c).spad.load 4 (s.slot c i).pc.toNat)))) ∧
  (∀ (s : State) (d : Due) (rest : List Due) (c i : Nat), i < 16 → s.agenda = d :: rest → d.act = .issue c i → s.halted c = false →
     (((s.slot c i).hold = true ∨ max s.cycle d.cycle < (s.slot c i).issueFrom) ∧ (s.slot c i).st ≠ .stopped) ∨ (s.slot c i).st ∈ [SlotSt.walk, .page, .faulted] → ∃ u w, Turned s u d rest c i w ∧ step s = .next u) ∧
  (∀ (s : State) (d : Due) (rest : List Due) (e : Instr), s.agenda = d :: rest → d.act = .event e → step s = exec e { s with
     cycle := max s.cycle d.cycle
     agenda := rest }) ∧
  (∀ (s : State) (d : Due) (rest : List Due) (e : Upset), s.agenda = d :: rest → d.act = .upset e → step s = .next (State.upset { s with
     cycle := max s.cycle d.cycle
     agenda := rest } e)) ∧
  (∀ (s : State) (d : Due) (rest : List Due) (c i : Nat), s.agenda = d :: rest → d.act = .retest c i →
     let u : State := { s with
       cycle := max s.cycle d.cycle
       agenda := rest }
     ((s.slot c i).waitKind ≠ some .resumed ∨ (s.slot c i).st ≠ .blocked ∨ (s.slot c i).hold = true → step s = .next u) ∧
     ∀ w x, (s.slot c i).waitKind = some .resumed → (s.slot c i).st = .blocked → (s.slot c i).hold = false → s.fetchAt c i = .ok w → decode w = .ok x →
       let v : State := { u with curCore := c, curSlot := i, curWord := w }
       step s = .next u ∨ ∃ t, exec x v = .next t ∧ step s = .next t ∧ (t.slot c i).nodeKey.isSome = true ∧ (t.core c).eps = (s.core c).eps) ∧
  (∀ s : State, s.agenda = [] → step s = .fault .idle)

/-- Global memory and every scratchpad are in their canonical form: addresses strictly rising, no zero byte listed (log 6). -/
def Sys2Proof.Claims.Formed (s : State) : Prop := s.mem.wf = true ∧ ∀ c, (s.core c).spad.wf = true

/-- R138, R38: every step keeps the canonical form of global memory and of every scratchpad, whatever it executes. -/
def Obligations.StepsKeepMemoryCanonical : Prop := ∀ s t : State, Formed s → step s = .next t → Formed t

/-- R38, R417: after reset global memory and every scratchpad have the canonical form. -/
def Obligations.ResetMemoryIsCanonical : Prop := Formed State.reset
end

