-- ==== Sys2Proof/Laws/Memory.lean ====
section
/-! SUPPORT. Byte memories: what a read finds after a write, and that every operation keeps the canonical form (log 6). -/

namespace Sys2Proof.Machine

/-! ### Reading after writing -/

/-- A byte written is the byte read. -/
@[simp] theorem Memory.read_write_self (m : Memory) (a : Nat) (b : Byte) : (m.write a b).read a = b := by
  unfold Memory.write Memory.read
  split
  · rename_i h
    induction m with
    | nil => simpa [KMap.del, KMap.get] using h.symm
    | cons p t ih =>
      obtain ⟨k, w⟩ := p
      unfold KMap.del at ih ⊢
      by_cases hk : k = a <;> simp_all [KMap.get]
  · rename_i h
    induction m with
    | nil => simp [KMap.put, KMap.get]
    | cons p t ih =>
      obtain ⟨k, w⟩ := p
      simp only [KMap.put]
      split
      · simp [KMap.get]
      · split
        · simp [KMap.get]
        · rename_i h1 h2
          simp only [KMap.get]
          rw [if_neg (fun h => h2 h.symm), ih]

/-- Writing a byte leaves every other byte alone. -/
theorem Memory.read_write_ne (m : Memory) (a c : Nat) (b : Byte) (h : c ≠ a) : (m.write a b).read c = m.read c := by
  unfold Memory.write Memory.read
  split
  · congr 1
    induction m with
    | nil => rfl
    | cons p t ih =>
      obtain ⟨k, w⟩ := p
      unfold KMap.del at ih ⊢
      by_cases hk : k = a
      · subst hk
        simpa [KMap.get, Ne.symm h] using ih
      · simp [KMap.get, hk, ih]
  · congr 1
    induction m with
    | nil => simp [KMap.put, KMap.get, Ne.symm h]
    | cons p t ih =>
      obtain ⟨k, w⟩ := p
      simp only [KMap.put]
      split
      · simp [KMap.get, Ne.symm h]
      · split
        · rename_i h1 h2
          subst h2
          simp [KMap.get, Ne.symm h]
        · simp only [KMap.get, ih]

/-- Writing a list of bytes leaves every byte outside it alone. -/
theorem Memory.read_writeAll_outside (bs : List Byte) : ∀ (m : Memory) (a c : Nat), (c < a ∨ a + bs.length ≤ c) →
    (m.writeAll a bs).read c = m.read c := by
  induction bs with
  | nil => intros; rfl
  | cons b t ih =>
    intro m a c h
    simp only [List.length_cons] at h
    simp only [Memory.writeAll]
    rw [ih _ _ _ (by omega), Memory.read_write_ne _ _ _ _ (by omega)]

/-- A list of bytes written is what the bytes from there read. -/
theorem Memory.read_writeAll_inside (bs : List Byte) : ∀ (m : Memory) (a i : Nat) (h : i < bs.length),
    (m.writeAll a bs).read (a + i) = bs[i] := by
  induction bs with
  | nil => intro m a i h; exact absurd h (by simp)
  | cons b t ih =>
    intro m a i h
    cases i with
    | zero =>
      simp only [Memory.writeAll, Nat.add_zero, List.getElem_cons_zero]
      rw [Memory.read_writeAll_outside _ _ _ _ (by omega), Memory.read_write_self]
    | succ j =>
      simp only [Memory.writeAll, List.getElem_cons_succ]
      rw [show a + (j + 1) = a + 1 + j by omega]
      exact ih _ _ _ (by simpa using h)

/-! ### The canonical form -/

/-- A map is in its canonical form when its numbers rise. -/
theorem KMap.sorted_iff {α : Type} (m : KMap α) : KMap.sorted m = true ↔ m.Pairwise (fun p q => p.1 < q.1) := by
  induction m with
  | nil => simp [KMap.sorted]
  | cons p t ih =>
    cases t with
    | nil => simp [KMap.sorted]
    | cons q u =>
      obtain ⟨a, v⟩ := p
      obtain ⟨b, w⟩ := q
      simp only [KMap.sorted, Bool.and_eq_true, decide_eq_true_eq, ih]
      constructor
      · rintro ⟨hab, hp⟩
        refine List.Pairwise.cons ?_ hp
        intro r hr
        rcases List.mem_cons.1 hr with rfl | hr
        · exact hab
        · exact Nat.lt_trans hab ((List.pairwise_cons.1 hp).1 r hr)
      · intro hp
        have := List.pairwise_cons.1 hp
        exact ⟨this.1 _ (List.mem_cons_self ..), this.2⟩

/-- The numbers of a map after a write are its own and the one written. -/
theorem KMap.mem_put {α : Type} (m : KMap α) (n : Nat) (v : α) (p : Nat × α) (h : p ∈ KMap.put m n v) : p = (n, v) ∨ p ∈ m := by
  induction m with
  | nil => exact .inl (by simpa [KMap.put] using h)
  | cons q t ih =>
    obtain ⟨k, w⟩ := q
    simp only [KMap.put] at h
    split at h
    · rcases List.mem_cons.1 h with h | h
      · exact .inl h
      · exact .inr h
    · split at h
      · rcases List.mem_cons.1 h with h | h
        · exact .inl h
        · exact .inr (List.mem_cons_of_mem _ h)
      · rcases List.mem_cons.1 h with h | h
        · exact .inr (h ▸ List.mem_cons_self ..)
        · rcases ih h with h | h
          · exact .inl h
          · exact .inr (List.mem_cons_of_mem _ h)

/-- Setting a number keeps the canonical form. -/
theorem KMap.sorted_put {α : Type} (m : KMap α) (n : Nat) (v : α) (h : KMap.sorted m = true) : KMap.sorted (KMap.put m n v) = true := by
  rw [KMap.sorted_iff] at h ⊢
  induction m with
  | nil => simp [KMap.put]
  | cons q t ih =>
    obtain ⟨k, w⟩ := q
    have hc := List.pairwise_cons.1 h
    simp only [KMap.put]
    split
    · rename_i hn
      refine List.Pairwise.cons ?_ h
      intro r hr
      rcases List.mem_cons.1 hr with rfl | hr
      · exact hn
      · exact Nat.lt_trans hn (hc.1 r hr)
    · split
      · rename_i h1 h2
        subst h2
        exact List.Pairwise.cons hc.1 hc.2
      · rename_i h1 h2
        refine List.Pairwise.cons ?_ (ih hc.2)
        intro r hr
        rcases KMap.mem_put _ _ _ _ hr with rfl | hr
        · exact Nat.lt_of_le_of_ne (Nat.le_of_not_lt h1) (Ne.symm h2)
        · exact hc.1 r hr

/-- Taking entries out keeps the canonical form. -/
theorem Memory.wf_filter (m : Memory) (p : Host.Cell → Bool) (h : m.wf = true) : Memory.wf (m.filter p) = true := by
  unfold Memory.wf at h ⊢
  rw [Bool.and_eq_true, KMap.sorted_iff] at h ⊢
  refine ⟨h.1.filter _, ?_⟩
  rw [List.all_eq_true] at h ⊢
  exact fun x hx => h.2 x (List.mem_filter.1 hx).1

/-- The empty memory is in its canonical form. -/
@[simp] theorem Memory.wf_nil : Memory.wf [] = true := rfl

/-- Writing a byte keeps the canonical form. -/
theorem Memory.wf_write (m : Memory) (a : Nat) (b : Byte) (h : m.wf = true) : (m.write a b).wf = true := by
  unfold Memory.write
  split
  · exact Memory.wf_filter m _ h
  · rename_i hb
    unfold Memory.wf at h ⊢
    rw [Bool.and_eq_true] at h ⊢
    refine ⟨KMap.sorted_put _ _ _ h.1, ?_⟩
    rw [List.all_eq_true] at h ⊢
    intro x hx
    rcases KMap.mem_put _ _ _ _ hx with rfl | hx
    · simpa using hb
    · exact h.2 x hx

/-- Writing bytes keeps the canonical form. -/
theorem Memory.wf_writeAll (bs : List Byte) : ∀ (m : Memory) (a : Nat), m.wf = true → (m.writeAll a bs).wf = true := by
  induction bs with
  | nil => exact fun _ _ h => h
  | cons b t ih => exact fun m a h => ih _ _ (Memory.wf_write m a b h)

/-- Storing a number keeps the canonical form. -/
theorem Memory.wf_store (m : Memory) (n a v : Nat) (h : m.wf = true) : (m.store n a v).wf = true := Memory.wf_writeAll _ _ _ h

/-- Clearing a range keeps the canonical form. -/
theorem Memory.wf_clear (m : Memory) (a n : Nat) (h : m.wf = true) : (m.clear a n).wf = true := Memory.wf_filter m _ h

/-- A write to a scratchpad keeps its canonical form. -/
theorem Core.wf_writeSpad (k : Core) (a : Nat) (bs : List Byte) (h : k.spad.wf = true) : (k.writeSpad a bs).spad.wf = true := by
  unfold Core.writeSpad Core.clearResv
  dsimp only
  split <;> exact Memory.wf_writeAll _ _ _ h

/-- A write to global memory keeps its canonical form. -/
theorem State.wf_writeMem (s : State) (a : Nat) (bs : List Byte) (h : s.mem.wf = true) : (s.writeMem a bs).mem.wf = true :=
  Memory.wf_writeAll _ _ _ h

/-- Folding byte writes keeps the canonical form. -/
theorem Memory.wf_foldl {α : Type} (l : List α) (f : Memory → α → Memory) (hf : ∀ m x, m.wf = true → (f m x).wf = true) :
    ∀ m : Memory, m.wf = true → (l.foldl f m).wf = true := by
  induction l with
  | nil => exact fun _ h => h
  | cons x t ih => exact fun m h => ih _ (hf m x h)

end Sys2Proof.Machine
end

