-- ==== Sys2Proof/Laws/State.lean ====
section
/-! SUPPORT. What each update of the state leaves alone, one lemma for a field and an update, and what the updated part reads as. -/

namespace Sys2Proof.Machine

/-! ### `State.modCore` -/

@[simp] theorem State.modCore_cycle (s : State) (c : Nat) (f : Core → Core) : (s.modCore c f).cycle = s.cycle := rfl
@[simp] theorem State.modCore_curCore (s : State) (c : Nat) (f : Core → Core) : (s.modCore c f).curCore = s.curCore := rfl
@[simp] theorem State.modCore_curSlot (s : State) (c : Nat) (f : Core → Core) : (s.modCore c f).curSlot = s.curSlot := rfl
@[simp] theorem State.modCore_curWord (s : State) (c : Nat) (f : Core → Core) : (s.modCore c f).curWord = s.curWord := rfl
@[simp] theorem State.modCore_agenda (s : State) (c : Nat) (f : Core → Core) : (s.modCore c f).agenda = s.agenda := rfl
@[simp] theorem State.modCore_dies (s : State) (c : Nat) (f : Core → Core) : (s.modCore c f).dies = s.dies := rfl
@[simp] theorem State.modCore_modules (s : State) (c : Nat) (f : Core → Core) : (s.modCore c f).modules = s.modules := rfl
@[simp] theorem State.modCore_ports (s : State) (c : Nat) (f : Core → Core) : (s.modCore c f).ports = s.ports := rfl
@[simp] theorem State.modCore_mem (s : State) (c : Nat) (f : Core → Core) : (s.modCore c f).mem = s.mem := rfl
@[simp] theorem State.modCore_poison (s : State) (c : Nat) (f : Core → Core) : (s.modCore c f).poison = s.poison := rfl
@[simp] theorem State.modCore_hshare (s : State) (c : Nat) (f : Core → Core) : (s.modCore c f).hshare = s.hshare := rfl
@[simp] theorem State.modCore_net (s : State) (c : Nat) (f : Core → Core) : (s.modCore c f).net = s.net := rfl
@[simp] theorem State.modCore_reqs (s : State) (c : Nat) (f : Core → Core) : (s.modCore c f).reqs = s.reqs := rfl
@[simp] theorem State.modCore_sow (s : State) (c : Nat) (f : Core → Core) : (s.modCore c f).sow = s.sow := rfl
@[simp] theorem State.modCore_host (s : State) (c : Nat) (f : Core → Core) : (s.modCore c f).host = s.host := rfl
@[simp] theorem State.modCore_sec (s : State) (c : Nat) (f : Core → Core) : (s.modCore c f).sec = s.sec := rfl
@[simp] theorem State.modCore_planes (s : State) (c : Nat) (f : Core → Core) : (s.modCore c f).planes = s.planes := rfl
@[simp] theorem State.modCore_nextId (s : State) (c : Nat) (f : Core → Core) : (s.modCore c f).nextId = s.nextId := rfl
@[simp] theorem State.modCore_free (s : State) (c : Nat) (f : Core → Core) : (s.modCore c f).free = s.free := rfl
@[simp] theorem State.modCore_out (s : State) (c : Nat) (f : Core → Core) : (s.modCore c f).out = s.out := rfl

/-! ### `State.modSlot` -/

@[simp] theorem State.modSlot_cycle (s : State) (c i : Nat) (f : Slot → Slot) : (s.modSlot c i f).cycle = s.cycle := rfl
@[simp] theorem State.modSlot_curCore (s : State) (c i : Nat) (f : Slot → Slot) : (s.modSlot c i f).curCore = s.curCore := rfl
@[simp] theorem State.modSlot_curSlot (s : State) (c i : Nat) (f : Slot → Slot) : (s.modSlot c i f).curSlot = s.curSlot := rfl
@[simp] theorem State.modSlot_curWord (s : State) (c i : Nat) (f : Slot → Slot) : (s.modSlot c i f).curWord = s.curWord := rfl
@[simp] theorem State.modSlot_agenda (s : State) (c i : Nat) (f : Slot → Slot) : (s.modSlot c i f).agenda = s.agenda := rfl
@[simp] theorem State.modSlot_dies (s : State) (c i : Nat) (f : Slot → Slot) : (s.modSlot c i f).dies = s.dies := rfl
@[simp] theorem State.modSlot_modules (s : State) (c i : Nat) (f : Slot → Slot) : (s.modSlot c i f).modules = s.modules := rfl
@[simp] theorem State.modSlot_ports (s : State) (c i : Nat) (f : Slot → Slot) : (s.modSlot c i f).ports = s.ports := rfl
@[simp] theorem State.modSlot_mem (s : State) (c i : Nat) (f : Slot → Slot) : (s.modSlot c i f).mem = s.mem := rfl
@[simp] theorem State.modSlot_poison (s : State) (c i : Nat) (f : Slot → Slot) : (s.modSlot c i f).poison = s.poison := rfl
@[simp] theorem State.modSlot_hshare (s : State) (c i : Nat) (f : Slot → Slot) : (s.modSlot c i f).hshare = s.hshare := rfl
@[simp] theorem State.modSlot_net (s : State) (c i : Nat) (f : Slot → Slot) : (s.modSlot c i f).net = s.net := rfl
@[simp] theorem State.modSlot_reqs (s : State) (c i : Nat) (f : Slot → Slot) : (s.modSlot c i f).reqs = s.reqs := rfl
@[simp] theorem State.modSlot_sow (s : State) (c i : Nat) (f : Slot → Slot) : (s.modSlot c i f).sow = s.sow := rfl
@[simp] theorem State.modSlot_host (s : State) (c i : Nat) (f : Slot → Slot) : (s.modSlot c i f).host = s.host := rfl
@[simp] theorem State.modSlot_sec (s : State) (c i : Nat) (f : Slot → Slot) : (s.modSlot c i f).sec = s.sec := rfl
@[simp] theorem State.modSlot_planes (s : State) (c i : Nat) (f : Slot → Slot) : (s.modSlot c i f).planes = s.planes := rfl
@[simp] theorem State.modSlot_nextId (s : State) (c i : Nat) (f : Slot → Slot) : (s.modSlot c i f).nextId = s.nextId := rfl
@[simp] theorem State.modSlot_free (s : State) (c i : Nat) (f : Slot → Slot) : (s.modSlot c i f).free = s.free := rfl
@[simp] theorem State.modSlot_out (s : State) (c i : Nat) (f : Slot → Slot) : (s.modSlot c i f).out = s.out := rfl

/-! ### `State.modHere` -/

@[simp] theorem State.modHere_cycle (s : State) (f : Core → Core) : (s.modHere f).cycle = s.cycle := rfl
@[simp] theorem State.modHere_curCore (s : State) (f : Core → Core) : (s.modHere f).curCore = s.curCore := rfl
@[simp] theorem State.modHere_curSlot (s : State) (f : Core → Core) : (s.modHere f).curSlot = s.curSlot := rfl
@[simp] theorem State.modHere_curWord (s : State) (f : Core → Core) : (s.modHere f).curWord = s.curWord := rfl
@[simp] theorem State.modHere_agenda (s : State) (f : Core → Core) : (s.modHere f).agenda = s.agenda := rfl
@[simp] theorem State.modHere_dies (s : State) (f : Core → Core) : (s.modHere f).dies = s.dies := rfl
@[simp] theorem State.modHere_modules (s : State) (f : Core → Core) : (s.modHere f).modules = s.modules := rfl
@[simp] theorem State.modHere_ports (s : State) (f : Core → Core) : (s.modHere f).ports = s.ports := rfl
@[simp] theorem State.modHere_mem (s : State) (f : Core → Core) : (s.modHere f).mem = s.mem := rfl
@[simp] theorem State.modHere_poison (s : State) (f : Core → Core) : (s.modHere f).poison = s.poison := rfl
@[simp] theorem State.modHere_hshare (s : State) (f : Core → Core) : (s.modHere f).hshare = s.hshare := rfl
@[simp] theorem State.modHere_net (s : State) (f : Core → Core) : (s.modHere f).net = s.net := rfl
@[simp] theorem State.modHere_reqs (s : State) (f : Core → Core) : (s.modHere f).reqs = s.reqs := rfl
@[simp] theorem State.modHere_sow (s : State) (f : Core → Core) : (s.modHere f).sow = s.sow := rfl
@[simp] theorem State.modHere_host (s : State) (f : Core → Core) : (s.modHere f).host = s.host := rfl
@[simp] theorem State.modHere_sec (s : State) (f : Core → Core) : (s.modHere f).sec = s.sec := rfl
@[simp] theorem State.modHere_planes (s : State) (f : Core → Core) : (s.modHere f).planes = s.planes := rfl
@[simp] theorem State.modHere_nextId (s : State) (f : Core → Core) : (s.modHere f).nextId = s.nextId := rfl
@[simp] theorem State.modHere_free (s : State) (f : Core → Core) : (s.modHere f).free = s.free := rfl
@[simp] theorem State.modHere_out (s : State) (f : Core → Core) : (s.modHere f).out = s.out := rfl

/-! ### `State.modMe` -/

@[simp] theorem State.modMe_cycle (s : State) (f : Slot → Slot) : (s.modMe f).cycle = s.cycle := rfl
@[simp] theorem State.modMe_curCore (s : State) (f : Slot → Slot) : (s.modMe f).curCore = s.curCore := rfl
@[simp] theorem State.modMe_curSlot (s : State) (f : Slot → Slot) : (s.modMe f).curSlot = s.curSlot := rfl
@[simp] theorem State.modMe_curWord (s : State) (f : Slot → Slot) : (s.modMe f).curWord = s.curWord := rfl
@[simp] theorem State.modMe_agenda (s : State) (f : Slot → Slot) : (s.modMe f).agenda = s.agenda := rfl
@[simp] theorem State.modMe_dies (s : State) (f : Slot → Slot) : (s.modMe f).dies = s.dies := rfl
@[simp] theorem State.modMe_modules (s : State) (f : Slot → Slot) : (s.modMe f).modules = s.modules := rfl
@[simp] theorem State.modMe_ports (s : State) (f : Slot → Slot) : (s.modMe f).ports = s.ports := rfl
@[simp] theorem State.modMe_mem (s : State) (f : Slot → Slot) : (s.modMe f).mem = s.mem := rfl
@[simp] theorem State.modMe_poison (s : State) (f : Slot → Slot) : (s.modMe f).poison = s.poison := rfl
@[simp] theorem State.modMe_hshare (s : State) (f : Slot → Slot) : (s.modMe f).hshare = s.hshare := rfl
@[simp] theorem State.modMe_net (s : State) (f : Slot → Slot) : (s.modMe f).net = s.net := rfl
@[simp] theorem State.modMe_reqs (s : State) (f : Slot → Slot) : (s.modMe f).reqs = s.reqs := rfl
@[simp] theorem State.modMe_sow (s : State) (f : Slot → Slot) : (s.modMe f).sow = s.sow := rfl
@[simp] theorem State.modMe_host (s : State) (f : Slot → Slot) : (s.modMe f).host = s.host := rfl
@[simp] theorem State.modMe_sec (s : State) (f : Slot → Slot) : (s.modMe f).sec = s.sec := rfl
@[simp] theorem State.modMe_planes (s : State) (f : Slot → Slot) : (s.modMe f).planes = s.planes := rfl
@[simp] theorem State.modMe_nextId (s : State) (f : Slot → Slot) : (s.modMe f).nextId = s.nextId := rfl
@[simp] theorem State.modMe_free (s : State) (f : Slot → Slot) : (s.modMe f).free = s.free := rfl
@[simp] theorem State.modMe_out (s : State) (f : Slot → Slot) : (s.modMe f).out = s.out := rfl

/-! ### `State.modDie` -/

@[simp] theorem State.modDie_cycle (s : State) (d : Nat) (f : Die → Die) : (s.modDie d f).cycle = s.cycle := rfl
@[simp] theorem State.modDie_curCore (s : State) (d : Nat) (f : Die → Die) : (s.modDie d f).curCore = s.curCore := rfl
@[simp] theorem State.modDie_curSlot (s : State) (d : Nat) (f : Die → Die) : (s.modDie d f).curSlot = s.curSlot := rfl
@[simp] theorem State.modDie_curWord (s : State) (d : Nat) (f : Die → Die) : (s.modDie d f).curWord = s.curWord := rfl
@[simp] theorem State.modDie_agenda (s : State) (d : Nat) (f : Die → Die) : (s.modDie d f).agenda = s.agenda := rfl
@[simp] theorem State.modDie_cores (s : State) (d : Nat) (f : Die → Die) : (s.modDie d f).cores = s.cores := rfl
@[simp] theorem State.modDie_modules (s : State) (d : Nat) (f : Die → Die) : (s.modDie d f).modules = s.modules := rfl
@[simp] theorem State.modDie_ports (s : State) (d : Nat) (f : Die → Die) : (s.modDie d f).ports = s.ports := rfl
@[simp] theorem State.modDie_mem (s : State) (d : Nat) (f : Die → Die) : (s.modDie d f).mem = s.mem := rfl
@[simp] theorem State.modDie_poison (s : State) (d : Nat) (f : Die → Die) : (s.modDie d f).poison = s.poison := rfl
@[simp] theorem State.modDie_hshare (s : State) (d : Nat) (f : Die → Die) : (s.modDie d f).hshare = s.hshare := rfl
@[simp] theorem State.modDie_net (s : State) (d : Nat) (f : Die → Die) : (s.modDie d f).net = s.net := rfl
@[simp] theorem State.modDie_reqs (s : State) (d : Nat) (f : Die → Die) : (s.modDie d f).reqs = s.reqs := rfl
@[simp] theorem State.modDie_sow (s : State) (d : Nat) (f : Die → Die) : (s.modDie d f).sow = s.sow := rfl
@[simp] theorem State.modDie_host (s : State) (d : Nat) (f : Die → Die) : (s.modDie d f).host = s.host := rfl
@[simp] theorem State.modDie_sec (s : State) (d : Nat) (f : Die → Die) : (s.modDie d f).sec = s.sec := rfl
@[simp] theorem State.modDie_planes (s : State) (d : Nat) (f : Die → Die) : (s.modDie d f).planes = s.planes := rfl
@[simp] theorem State.modDie_nextId (s : State) (d : Nat) (f : Die → Die) : (s.modDie d f).nextId = s.nextId := rfl
@[simp] theorem State.modDie_free (s : State) (d : Nat) (f : Die → Die) : (s.modDie d f).free = s.free := rfl
@[simp] theorem State.modDie_out (s : State) (d : Nat) (f : Die → Die) : (s.modDie d f).out = s.out := rfl

/-! ### `State.modModule` -/

@[simp] theorem State.modModule_cycle (s : State) (m : Nat) (f : Module → Module) : (s.modModule m f).cycle = s.cycle := rfl
@[simp] theorem State.modModule_curCore (s : State) (m : Nat) (f : Module → Module) : (s.modModule m f).curCore = s.curCore := rfl
@[simp] theorem State.modModule_curSlot (s : State) (m : Nat) (f : Module → Module) : (s.modModule m f).curSlot = s.curSlot := rfl
@[simp] theorem State.modModule_curWord (s : State) (m : Nat) (f : Module → Module) : (s.modModule m f).curWord = s.curWord := rfl
@[simp] theorem State.modModule_agenda (s : State) (m : Nat) (f : Module → Module) : (s.modModule m f).agenda = s.agenda := rfl
@[simp] theorem State.modModule_cores (s : State) (m : Nat) (f : Module → Module) : (s.modModule m f).cores = s.cores := rfl
@[simp] theorem State.modModule_dies (s : State) (m : Nat) (f : Module → Module) : (s.modModule m f).dies = s.dies := rfl
@[simp] theorem State.modModule_ports (s : State) (m : Nat) (f : Module → Module) : (s.modModule m f).ports = s.ports := rfl
@[simp] theorem State.modModule_mem (s : State) (m : Nat) (f : Module → Module) : (s.modModule m f).mem = s.mem := rfl
@[simp] theorem State.modModule_poison (s : State) (m : Nat) (f : Module → Module) : (s.modModule m f).poison = s.poison := rfl
@[simp] theorem State.modModule_hshare (s : State) (m : Nat) (f : Module → Module) : (s.modModule m f).hshare = s.hshare := rfl
@[simp] theorem State.modModule_net (s : State) (m : Nat) (f : Module → Module) : (s.modModule m f).net = s.net := rfl
@[simp] theorem State.modModule_reqs (s : State) (m : Nat) (f : Module → Module) : (s.modModule m f).reqs = s.reqs := rfl
@[simp] theorem State.modModule_sow (s : State) (m : Nat) (f : Module → Module) : (s.modModule m f).sow = s.sow := rfl
@[simp] theorem State.modModule_host (s : State) (m : Nat) (f : Module → Module) : (s.modModule m f).host = s.host := rfl
@[simp] theorem State.modModule_sec (s : State) (m : Nat) (f : Module → Module) : (s.modModule m f).sec = s.sec := rfl
@[simp] theorem State.modModule_planes (s : State) (m : Nat) (f : Module → Module) : (s.modModule m f).planes = s.planes := rfl
@[simp] theorem State.modModule_nextId (s : State) (m : Nat) (f : Module → Module) : (s.modModule m f).nextId = s.nextId := rfl
@[simp] theorem State.modModule_free (s : State) (m : Nat) (f : Module → Module) : (s.modModule m f).free = s.free := rfl
@[simp] theorem State.modModule_out (s : State) (m : Nat) (f : Module → Module) : (s.modModule m f).out = s.out := rfl

/-! ### `State.modPort` -/

@[simp] theorem State.modPort_cycle (s : State) (p : Nat) (f : Port → Port) : (s.modPort p f).cycle = s.cycle := rfl
@[simp] theorem State.modPort_curCore (s : State) (p : Nat) (f : Port → Port) : (s.modPort p f).curCore = s.curCore := rfl
@[simp] theorem State.modPort_curSlot (s : State) (p : Nat) (f : Port → Port) : (s.modPort p f).curSlot = s.curSlot := rfl
@[simp] theorem State.modPort_curWord (s : State) (p : Nat) (f : Port → Port) : (s.modPort p f).curWord = s.curWord := rfl
@[simp] theorem State.modPort_agenda (s : State) (p : Nat) (f : Port → Port) : (s.modPort p f).agenda = s.agenda := rfl
@[simp] theorem State.modPort_cores (s : State) (p : Nat) (f : Port → Port) : (s.modPort p f).cores = s.cores := rfl
@[simp] theorem State.modPort_dies (s : State) (p : Nat) (f : Port → Port) : (s.modPort p f).dies = s.dies := rfl
@[simp] theorem State.modPort_modules (s : State) (p : Nat) (f : Port → Port) : (s.modPort p f).modules = s.modules := rfl
@[simp] theorem State.modPort_mem (s : State) (p : Nat) (f : Port → Port) : (s.modPort p f).mem = s.mem := rfl
@[simp] theorem State.modPort_poison (s : State) (p : Nat) (f : Port → Port) : (s.modPort p f).poison = s.poison := rfl
@[simp] theorem State.modPort_hshare (s : State) (p : Nat) (f : Port → Port) : (s.modPort p f).hshare = s.hshare := rfl
@[simp] theorem State.modPort_net (s : State) (p : Nat) (f : Port → Port) : (s.modPort p f).net = s.net := rfl
@[simp] theorem State.modPort_reqs (s : State) (p : Nat) (f : Port → Port) : (s.modPort p f).reqs = s.reqs := rfl
@[simp] theorem State.modPort_sow (s : State) (p : Nat) (f : Port → Port) : (s.modPort p f).sow = s.sow := rfl
@[simp] theorem State.modPort_host (s : State) (p : Nat) (f : Port → Port) : (s.modPort p f).host = s.host := rfl
@[simp] theorem State.modPort_sec (s : State) (p : Nat) (f : Port → Port) : (s.modPort p f).sec = s.sec := rfl
@[simp] theorem State.modPort_planes (s : State) (p : Nat) (f : Port → Port) : (s.modPort p f).planes = s.planes := rfl
@[simp] theorem State.modPort_nextId (s : State) (p : Nat) (f : Port → Port) : (s.modPort p f).nextId = s.nextId := rfl
@[simp] theorem State.modPort_free (s : State) (p : Nat) (f : Port → Port) : (s.modPort p f).free = s.free := rfl
@[simp] theorem State.modPort_out (s : State) (p : Nat) (f : Port → Port) : (s.modPort p f).out = s.out := rfl

/-! ### `State.modCounter` -/

@[simp] theorem State.modCounter_cycle (s : State) (c n : Nat) (f : Counter → Counter) : (s.modCounter c n f).cycle = s.cycle := rfl
@[simp] theorem State.modCounter_curCore (s : State) (c n : Nat) (f : Counter → Counter) : (s.modCounter c n f).curCore = s.curCore := rfl
@[simp] theorem State.modCounter_curSlot (s : State) (c n : Nat) (f : Counter → Counter) : (s.modCounter c n f).curSlot = s.curSlot := rfl
@[simp] theorem State.modCounter_curWord (s : State) (c n : Nat) (f : Counter → Counter) : (s.modCounter c n f).curWord = s.curWord := rfl
@[simp] theorem State.modCounter_agenda (s : State) (c n : Nat) (f : Counter → Counter) : (s.modCounter c n f).agenda = s.agenda := rfl
@[simp] theorem State.modCounter_dies (s : State) (c n : Nat) (f : Counter → Counter) : (s.modCounter c n f).dies = s.dies := rfl
@[simp] theorem State.modCounter_modules (s : State) (c n : Nat) (f : Counter → Counter) : (s.modCounter c n f).modules = s.modules := rfl
@[simp] theorem State.modCounter_ports (s : State) (c n : Nat) (f : Counter → Counter) : (s.modCounter c n f).ports = s.ports := rfl
@[simp] theorem State.modCounter_mem (s : State) (c n : Nat) (f : Counter → Counter) : (s.modCounter c n f).mem = s.mem := rfl
@[simp] theorem State.modCounter_poison (s : State) (c n : Nat) (f : Counter → Counter) : (s.modCounter c n f).poison = s.poison := rfl
@[simp] theorem State.modCounter_hshare (s : State) (c n : Nat) (f : Counter → Counter) : (s.modCounter c n f).hshare = s.hshare := rfl
@[simp] theorem State.modCounter_net (s : State) (c n : Nat) (f : Counter → Counter) : (s.modCounter c n f).net = s.net := rfl
@[simp] theorem State.modCounter_reqs (s : State) (c n : Nat) (f : Counter → Counter) : (s.modCounter c n f).reqs = s.reqs := rfl
@[simp] theorem State.modCounter_sow (s : State) (c n : Nat) (f : Counter → Counter) : (s.modCounter c n f).sow = s.sow := rfl
@[simp] theorem State.modCounter_host (s : State) (c n : Nat) (f : Counter → Counter) : (s.modCounter c n f).host = s.host := rfl
@[simp] theorem State.modCounter_sec (s : State) (c n : Nat) (f : Counter → Counter) : (s.modCounter c n f).sec = s.sec := rfl
@[simp] theorem State.modCounter_planes (s : State) (c n : Nat) (f : Counter → Counter) : (s.modCounter c n f).planes = s.planes := rfl
@[simp] theorem State.modCounter_nextId (s : State) (c n : Nat) (f : Counter → Counter) : (s.modCounter c n f).nextId = s.nextId := rfl
@[simp] theorem State.modCounter_free (s : State) (c n : Nat) (f : Counter → Counter) : (s.modCounter c n f).free = s.free := rfl
@[simp] theorem State.modCounter_out (s : State) (c n : Nat) (f : Counter → Counter) : (s.modCounter c n f).out = s.out := rfl

/-! ### `State.modSow` -/

@[simp] theorem State.modSow_cycle (s : State) (f : Sower → Sower) : (s.modSow f).cycle = s.cycle := rfl
@[simp] theorem State.modSow_curCore (s : State) (f : Sower → Sower) : (s.modSow f).curCore = s.curCore := rfl
@[simp] theorem State.modSow_curSlot (s : State) (f : Sower → Sower) : (s.modSow f).curSlot = s.curSlot := rfl
@[simp] theorem State.modSow_curWord (s : State) (f : Sower → Sower) : (s.modSow f).curWord = s.curWord := rfl
@[simp] theorem State.modSow_agenda (s : State) (f : Sower → Sower) : (s.modSow f).agenda = s.agenda := rfl
@[simp] theorem State.modSow_cores (s : State) (f : Sower → Sower) : (s.modSow f).cores = s.cores := rfl
@[simp] theorem State.modSow_dies (s : State) (f : Sower → Sower) : (s.modSow f).dies = s.dies := rfl
@[simp] theorem State.modSow_modules (s : State) (f : Sower → Sower) : (s.modSow f).modules = s.modules := rfl
@[simp] theorem State.modSow_ports (s : State) (f : Sower → Sower) : (s.modSow f).ports = s.ports := rfl
@[simp] theorem State.modSow_mem (s : State) (f : Sower → Sower) : (s.modSow f).mem = s.mem := rfl
@[simp] theorem State.modSow_poison (s : State) (f : Sower → Sower) : (s.modSow f).poison = s.poison := rfl
@[simp] theorem State.modSow_hshare (s : State) (f : Sower → Sower) : (s.modSow f).hshare = s.hshare := rfl
@[simp] theorem State.modSow_net (s : State) (f : Sower → Sower) : (s.modSow f).net = s.net := rfl
@[simp] theorem State.modSow_reqs (s : State) (f : Sower → Sower) : (s.modSow f).reqs = s.reqs := rfl
@[simp] theorem State.modSow_host (s : State) (f : Sower → Sower) : (s.modSow f).host = s.host := rfl
@[simp] theorem State.modSow_sec (s : State) (f : Sower → Sower) : (s.modSow f).sec = s.sec := rfl
@[simp] theorem State.modSow_planes (s : State) (f : Sower → Sower) : (s.modSow f).planes = s.planes := rfl
@[simp] theorem State.modSow_nextId (s : State) (f : Sower → Sower) : (s.modSow f).nextId = s.nextId := rfl
@[simp] theorem State.modSow_free (s : State) (f : Sower → Sower) : (s.modSow f).free = s.free := rfl
@[simp] theorem State.modSow_out (s : State) (f : Sower → Sower) : (s.modSow f).out = s.out := rfl

/-! ### `State.modSec` -/

@[simp] theorem State.modSec_cycle (s : State) (f : Security → Security) : (s.modSec f).cycle = s.cycle := rfl
@[simp] theorem State.modSec_curCore (s : State) (f : Security → Security) : (s.modSec f).curCore = s.curCore := rfl
@[simp] theorem State.modSec_curSlot (s : State) (f : Security → Security) : (s.modSec f).curSlot = s.curSlot := rfl
@[simp] theorem State.modSec_curWord (s : State) (f : Security → Security) : (s.modSec f).curWord = s.curWord := rfl
@[simp] theorem State.modSec_agenda (s : State) (f : Security → Security) : (s.modSec f).agenda = s.agenda := rfl
@[simp] theorem State.modSec_cores (s : State) (f : Security → Security) : (s.modSec f).cores = s.cores := rfl
@[simp] theorem State.modSec_dies (s : State) (f : Security → Security) : (s.modSec f).dies = s.dies := rfl
@[simp] theorem State.modSec_modules (s : State) (f : Security → Security) : (s.modSec f).modules = s.modules := rfl
@[simp] theorem State.modSec_ports (s : State) (f : Security → Security) : (s.modSec f).ports = s.ports := rfl
@[simp] theorem State.modSec_mem (s : State) (f : Security → Security) : (s.modSec f).mem = s.mem := rfl
@[simp] theorem State.modSec_poison (s : State) (f : Security → Security) : (s.modSec f).poison = s.poison := rfl
@[simp] theorem State.modSec_hshare (s : State) (f : Security → Security) : (s.modSec f).hshare = s.hshare := rfl
@[simp] theorem State.modSec_net (s : State) (f : Security → Security) : (s.modSec f).net = s.net := rfl
@[simp] theorem State.modSec_reqs (s : State) (f : Security → Security) : (s.modSec f).reqs = s.reqs := rfl
@[simp] theorem State.modSec_sow (s : State) (f : Security → Security) : (s.modSec f).sow = s.sow := rfl
@[simp] theorem State.modSec_host (s : State) (f : Security → Security) : (s.modSec f).host = s.host := rfl
@[simp] theorem State.modSec_planes (s : State) (f : Security → Security) : (s.modSec f).planes = s.planes := rfl
@[simp] theorem State.modSec_nextId (s : State) (f : Security → Security) : (s.modSec f).nextId = s.nextId := rfl
@[simp] theorem State.modSec_free (s : State) (f : Security → Security) : (s.modSec f).free = s.free := rfl
@[simp] theorem State.modSec_out (s : State) (f : Security → Security) : (s.modSec f).out = s.out := rfl

/-! ### `State.modHost` -/

@[simp] theorem State.modHost_cycle (s : State) (f : HostIf → HostIf) : (s.modHost f).cycle = s.cycle := rfl
@[simp] theorem State.modHost_curCore (s : State) (f : HostIf → HostIf) : (s.modHost f).curCore = s.curCore := rfl
@[simp] theorem State.modHost_curSlot (s : State) (f : HostIf → HostIf) : (s.modHost f).curSlot = s.curSlot := rfl
@[simp] theorem State.modHost_curWord (s : State) (f : HostIf → HostIf) : (s.modHost f).curWord = s.curWord := rfl
@[simp] theorem State.modHost_agenda (s : State) (f : HostIf → HostIf) : (s.modHost f).agenda = s.agenda := rfl
@[simp] theorem State.modHost_cores (s : State) (f : HostIf → HostIf) : (s.modHost f).cores = s.cores := rfl
@[simp] theorem State.modHost_dies (s : State) (f : HostIf → HostIf) : (s.modHost f).dies = s.dies := rfl
@[simp] theorem State.modHost_modules (s : State) (f : HostIf → HostIf) : (s.modHost f).modules = s.modules := rfl
@[simp] theorem State.modHost_ports (s : State) (f : HostIf → HostIf) : (s.modHost f).ports = s.ports := rfl
@[simp] theorem State.modHost_mem (s : State) (f : HostIf → HostIf) : (s.modHost f).mem = s.mem := rfl
@[simp] theorem State.modHost_poison (s : State) (f : HostIf → HostIf) : (s.modHost f).poison = s.poison := rfl
@[simp] theorem State.modHost_hshare (s : State) (f : HostIf → HostIf) : (s.modHost f).hshare = s.hshare := rfl
@[simp] theorem State.modHost_net (s : State) (f : HostIf → HostIf) : (s.modHost f).net = s.net := rfl
@[simp] theorem State.modHost_reqs (s : State) (f : HostIf → HostIf) : (s.modHost f).reqs = s.reqs := rfl
@[simp] theorem State.modHost_sow (s : State) (f : HostIf → HostIf) : (s.modHost f).sow = s.sow := rfl
@[simp] theorem State.modHost_sec (s : State) (f : HostIf → HostIf) : (s.modHost f).sec = s.sec := rfl
@[simp] theorem State.modHost_planes (s : State) (f : HostIf → HostIf) : (s.modHost f).planes = s.planes := rfl
@[simp] theorem State.modHost_nextId (s : State) (f : HostIf → HostIf) : (s.modHost f).nextId = s.nextId := rfl
@[simp] theorem State.modHost_free (s : State) (f : HostIf → HostIf) : (s.modHost f).free = s.free := rfl
@[simp] theorem State.modHost_out (s : State) (f : HostIf → HostIf) : (s.modHost f).out = s.out := rfl

/-! ### `State.fresh` -/

@[simp] theorem State.fresh_cycle (s : State) : (s.fresh.2).cycle = s.cycle := rfl
@[simp] theorem State.fresh_curCore (s : State) : (s.fresh.2).curCore = s.curCore := rfl
@[simp] theorem State.fresh_curSlot (s : State) : (s.fresh.2).curSlot = s.curSlot := rfl
@[simp] theorem State.fresh_curWord (s : State) : (s.fresh.2).curWord = s.curWord := rfl
@[simp] theorem State.fresh_agenda (s : State) : (s.fresh.2).agenda = s.agenda := rfl
@[simp] theorem State.fresh_cores (s : State) : (s.fresh.2).cores = s.cores := rfl
@[simp] theorem State.fresh_dies (s : State) : (s.fresh.2).dies = s.dies := rfl
@[simp] theorem State.fresh_modules (s : State) : (s.fresh.2).modules = s.modules := rfl
@[simp] theorem State.fresh_ports (s : State) : (s.fresh.2).ports = s.ports := rfl
@[simp] theorem State.fresh_mem (s : State) : (s.fresh.2).mem = s.mem := rfl
@[simp] theorem State.fresh_poison (s : State) : (s.fresh.2).poison = s.poison := rfl
@[simp] theorem State.fresh_hshare (s : State) : (s.fresh.2).hshare = s.hshare := rfl
@[simp] theorem State.fresh_net (s : State) : (s.fresh.2).net = s.net := rfl
@[simp] theorem State.fresh_reqs (s : State) : (s.fresh.2).reqs = s.reqs := rfl
@[simp] theorem State.fresh_sow (s : State) : (s.fresh.2).sow = s.sow := rfl
@[simp] theorem State.fresh_host (s : State) : (s.fresh.2).host = s.host := rfl
@[simp] theorem State.fresh_sec (s : State) : (s.fresh.2).sec = s.sec := rfl
@[simp] theorem State.fresh_planes (s : State) : (s.fresh.2).planes = s.planes := rfl
@[simp] theorem State.fresh_free (s : State) : (s.fresh.2).free = s.free := rfl
@[simp] theorem State.fresh_out (s : State) : (s.fresh.2).out = s.out := rfl

/-! ### `State.draw` -/

@[simp] theorem State.draw_cycle (s : State) : (s.draw.2).cycle = s.cycle := rfl
@[simp] theorem State.draw_curCore (s : State) : (s.draw.2).curCore = s.curCore := rfl
@[simp] theorem State.draw_curSlot (s : State) : (s.draw.2).curSlot = s.curSlot := rfl
@[simp] theorem State.draw_curWord (s : State) : (s.draw.2).curWord = s.curWord := rfl
@[simp] theorem State.draw_agenda (s : State) : (s.draw.2).agenda = s.agenda := rfl
@[simp] theorem State.draw_cores (s : State) : (s.draw.2).cores = s.cores := rfl
@[simp] theorem State.draw_dies (s : State) : (s.draw.2).dies = s.dies := rfl
@[simp] theorem State.draw_modules (s : State) : (s.draw.2).modules = s.modules := rfl
@[simp] theorem State.draw_ports (s : State) : (s.draw.2).ports = s.ports := rfl
@[simp] theorem State.draw_mem (s : State) : (s.draw.2).mem = s.mem := rfl
@[simp] theorem State.draw_poison (s : State) : (s.draw.2).poison = s.poison := rfl
@[simp] theorem State.draw_hshare (s : State) : (s.draw.2).hshare = s.hshare := rfl
@[simp] theorem State.draw_net (s : State) : (s.draw.2).net = s.net := rfl
@[simp] theorem State.draw_reqs (s : State) : (s.draw.2).reqs = s.reqs := rfl
@[simp] theorem State.draw_sow (s : State) : (s.draw.2).sow = s.sow := rfl
@[simp] theorem State.draw_host (s : State) : (s.draw.2).host = s.host := rfl
@[simp] theorem State.draw_sec (s : State) : (s.draw.2).sec = s.sec := rfl
@[simp] theorem State.draw_planes (s : State) : (s.draw.2).planes = s.planes := rfl
@[simp] theorem State.draw_nextId (s : State) : (s.draw.2).nextId = s.nextId := rfl
@[simp] theorem State.draw_out (s : State) : (s.draw.2).out = s.out := rfl

/-! ### `State.schedule` -/

@[simp] theorem State.schedule_cycle (s : State) (cycle phase : Nat) (a : Act) : (s.schedule cycle phase a).cycle = s.cycle := rfl
@[simp] theorem State.schedule_curCore (s : State) (cycle phase : Nat) (a : Act) : (s.schedule cycle phase a).curCore = s.curCore := rfl
@[simp] theorem State.schedule_curSlot (s : State) (cycle phase : Nat) (a : Act) : (s.schedule cycle phase a).curSlot = s.curSlot := rfl
@[simp] theorem State.schedule_curWord (s : State) (cycle phase : Nat) (a : Act) : (s.schedule cycle phase a).curWord = s.curWord := rfl
@[simp] theorem State.schedule_cores (s : State) (cycle phase : Nat) (a : Act) : (s.schedule cycle phase a).cores = s.cores := rfl
@[simp] theorem State.schedule_dies (s : State) (cycle phase : Nat) (a : Act) : (s.schedule cycle phase a).dies = s.dies := rfl
@[simp] theorem State.schedule_modules (s : State) (cycle phase : Nat) (a : Act) : (s.schedule cycle phase a).modules = s.modules := rfl
@[simp] theorem State.schedule_ports (s : State) (cycle phase : Nat) (a : Act) : (s.schedule cycle phase a).ports = s.ports := rfl
@[simp] theorem State.schedule_mem (s : State) (cycle phase : Nat) (a : Act) : (s.schedule cycle phase a).mem = s.mem := rfl
@[simp] theorem State.schedule_poison (s : State) (cycle phase : Nat) (a : Act) : (s.schedule cycle phase a).poison = s.poison := rfl
@[simp] theorem State.schedule_hshare (s : State) (cycle phase : Nat) (a : Act) : (s.schedule cycle phase a).hshare = s.hshare := rfl
@[simp] theorem State.schedule_net (s : State) (cycle phase : Nat) (a : Act) : (s.schedule cycle phase a).net = s.net := rfl
@[simp] theorem State.schedule_reqs (s : State) (cycle phase : Nat) (a : Act) : (s.schedule cycle phase a).reqs = s.reqs := rfl
@[simp] theorem State.schedule_sow (s : State) (cycle phase : Nat) (a : Act) : (s.schedule cycle phase a).sow = s.sow := rfl
@[simp] theorem State.schedule_host (s : State) (cycle phase : Nat) (a : Act) : (s.schedule cycle phase a).host = s.host := rfl
@[simp] theorem State.schedule_sec (s : State) (cycle phase : Nat) (a : Act) : (s.schedule cycle phase a).sec = s.sec := rfl
@[simp] theorem State.schedule_planes (s : State) (cycle phase : Nat) (a : Act) : (s.schedule cycle phase a).planes = s.planes := rfl
@[simp] theorem State.schedule_nextId (s : State) (cycle phase : Nat) (a : Act) : (s.schedule cycle phase a).nextId = s.nextId := rfl
@[simp] theorem State.schedule_free (s : State) (cycle phase : Nat) (a : Act) : (s.schedule cycle phase a).free = s.free := rfl
@[simp] theorem State.schedule_out (s : State) (cycle phase : Nat) (a : Act) : (s.schedule cycle phase a).out = s.out := rfl

/-! ### `State.at` -/

@[simp] theorem State.at_cycle (s : State) (cycle : Nat) (e : Instr) : (s.at cycle e).cycle = s.cycle := rfl
@[simp] theorem State.at_curCore (s : State) (cycle : Nat) (e : Instr) : (s.at cycle e).curCore = s.curCore := rfl
@[simp] theorem State.at_curSlot (s : State) (cycle : Nat) (e : Instr) : (s.at cycle e).curSlot = s.curSlot := rfl
@[simp] theorem State.at_curWord (s : State) (cycle : Nat) (e : Instr) : (s.at cycle e).curWord = s.curWord := rfl
@[simp] theorem State.at_cores (s : State) (cycle : Nat) (e : Instr) : (s.at cycle e).cores = s.cores := rfl
@[simp] theorem State.at_dies (s : State) (cycle : Nat) (e : Instr) : (s.at cycle e).dies = s.dies := rfl
@[simp] theorem State.at_modules (s : State) (cycle : Nat) (e : Instr) : (s.at cycle e).modules = s.modules := rfl
@[simp] theorem State.at_ports (s : State) (cycle : Nat) (e : Instr) : (s.at cycle e).ports = s.ports := rfl
@[simp] theorem State.at_mem (s : State) (cycle : Nat) (e : Instr) : (s.at cycle e).mem = s.mem := rfl
@[simp] theorem State.at_poison (s : State) (cycle : Nat) (e : Instr) : (s.at cycle e).poison = s.poison := rfl
@[simp] theorem State.at_hshare (s : State) (cycle : Nat) (e : Instr) : (s.at cycle e).hshare = s.hshare := rfl
@[simp] theorem State.at_net (s : State) (cycle : Nat) (e : Instr) : (s.at cycle e).net = s.net := rfl
@[simp] theorem State.at_reqs (s : State) (cycle : Nat) (e : Instr) : (s.at cycle e).reqs = s.reqs := rfl
@[simp] theorem State.at_sow (s : State) (cycle : Nat) (e : Instr) : (s.at cycle e).sow = s.sow := rfl
@[simp] theorem State.at_host (s : State) (cycle : Nat) (e : Instr) : (s.at cycle e).host = s.host := rfl
@[simp] theorem State.at_sec (s : State) (cycle : Nat) (e : Instr) : (s.at cycle e).sec = s.sec := rfl
@[simp] theorem State.at_planes (s : State) (cycle : Nat) (e : Instr) : (s.at cycle e).planes = s.planes := rfl
@[simp] theorem State.at_nextId (s : State) (cycle : Nat) (e : Instr) : (s.at cycle e).nextId = s.nextId := rfl
@[simp] theorem State.at_free (s : State) (cycle : Nat) (e : Instr) : (s.at cycle e).free = s.free := rfl
@[simp] theorem State.at_out (s : State) (cycle : Nat) (e : Instr) : (s.at cycle e).out = s.out := rfl

/-! ### `State.now` -/

@[simp] theorem State.now_cycle (s : State) (e : Instr) : (s.now e).cycle = s.cycle := rfl
@[simp] theorem State.now_curCore (s : State) (e : Instr) : (s.now e).curCore = s.curCore := rfl
@[simp] theorem State.now_curSlot (s : State) (e : Instr) : (s.now e).curSlot = s.curSlot := rfl
@[simp] theorem State.now_curWord (s : State) (e : Instr) : (s.now e).curWord = s.curWord := rfl
@[simp] theorem State.now_cores (s : State) (e : Instr) : (s.now e).cores = s.cores := rfl
@[simp] theorem State.now_dies (s : State) (e : Instr) : (s.now e).dies = s.dies := rfl
@[simp] theorem State.now_modules (s : State) (e : Instr) : (s.now e).modules = s.modules := rfl
@[simp] theorem State.now_ports (s : State) (e : Instr) : (s.now e).ports = s.ports := rfl
@[simp] theorem State.now_mem (s : State) (e : Instr) : (s.now e).mem = s.mem := rfl
@[simp] theorem State.now_poison (s : State) (e : Instr) : (s.now e).poison = s.poison := rfl
@[simp] theorem State.now_hshare (s : State) (e : Instr) : (s.now e).hshare = s.hshare := rfl
@[simp] theorem State.now_net (s : State) (e : Instr) : (s.now e).net = s.net := rfl
@[simp] theorem State.now_reqs (s : State) (e : Instr) : (s.now e).reqs = s.reqs := rfl
@[simp] theorem State.now_sow (s : State) (e : Instr) : (s.now e).sow = s.sow := rfl
@[simp] theorem State.now_host (s : State) (e : Instr) : (s.now e).host = s.host := rfl
@[simp] theorem State.now_sec (s : State) (e : Instr) : (s.now e).sec = s.sec := rfl
@[simp] theorem State.now_planes (s : State) (e : Instr) : (s.now e).planes = s.planes := rfl
@[simp] theorem State.now_nextId (s : State) (e : Instr) : (s.now e).nextId = s.nextId := rfl
@[simp] theorem State.now_free (s : State) (e : Instr) : (s.now e).free = s.free := rfl
@[simp] theorem State.now_out (s : State) (e : Instr) : (s.now e).out = s.out := rfl

/-! ### `State.atEnd` -/

@[simp] theorem State.atEnd_cycle (s : State) (e : Instr) : (s.atEnd e).cycle = s.cycle := rfl
@[simp] theorem State.atEnd_curCore (s : State) (e : Instr) : (s.atEnd e).curCore = s.curCore := rfl
@[simp] theorem State.atEnd_curSlot (s : State) (e : Instr) : (s.atEnd e).curSlot = s.curSlot := rfl
@[simp] theorem State.atEnd_curWord (s : State) (e : Instr) : (s.atEnd e).curWord = s.curWord := rfl
@[simp] theorem State.atEnd_cores (s : State) (e : Instr) : (s.atEnd e).cores = s.cores := rfl
@[simp] theorem State.atEnd_dies (s : State) (e : Instr) : (s.atEnd e).dies = s.dies := rfl
@[simp] theorem State.atEnd_modules (s : State) (e : Instr) : (s.atEnd e).modules = s.modules := rfl
@[simp] theorem State.atEnd_ports (s : State) (e : Instr) : (s.atEnd e).ports = s.ports := rfl
@[simp] theorem State.atEnd_mem (s : State) (e : Instr) : (s.atEnd e).mem = s.mem := rfl
@[simp] theorem State.atEnd_poison (s : State) (e : Instr) : (s.atEnd e).poison = s.poison := rfl
@[simp] theorem State.atEnd_hshare (s : State) (e : Instr) : (s.atEnd e).hshare = s.hshare := rfl
@[simp] theorem State.atEnd_net (s : State) (e : Instr) : (s.atEnd e).net = s.net := rfl
@[simp] theorem State.atEnd_reqs (s : State) (e : Instr) : (s.atEnd e).reqs = s.reqs := rfl
@[simp] theorem State.atEnd_sow (s : State) (e : Instr) : (s.atEnd e).sow = s.sow := rfl
@[simp] theorem State.atEnd_host (s : State) (e : Instr) : (s.atEnd e).host = s.host := rfl
@[simp] theorem State.atEnd_sec (s : State) (e : Instr) : (s.atEnd e).sec = s.sec := rfl
@[simp] theorem State.atEnd_planes (s : State) (e : Instr) : (s.atEnd e).planes = s.planes := rfl
@[simp] theorem State.atEnd_nextId (s : State) (e : Instr) : (s.atEnd e).nextId = s.nextId := rfl
@[simp] theorem State.atEnd_free (s : State) (e : Instr) : (s.atEnd e).free = s.free := rfl
@[simp] theorem State.atEnd_out (s : State) (e : Instr) : (s.atEnd e).out = s.out := rfl

/-! ### `State.writeMem` -/

@[simp] theorem State.writeMem_cycle (s : State) (a : Nat) (bs : List Byte) : (s.writeMem a bs).cycle = s.cycle := rfl
@[simp] theorem State.writeMem_curCore (s : State) (a : Nat) (bs : List Byte) : (s.writeMem a bs).curCore = s.curCore := rfl
@[simp] theorem State.writeMem_curSlot (s : State) (a : Nat) (bs : List Byte) : (s.writeMem a bs).curSlot = s.curSlot := rfl
@[simp] theorem State.writeMem_curWord (s : State) (a : Nat) (bs : List Byte) : (s.writeMem a bs).curWord = s.curWord := rfl
@[simp] theorem State.writeMem_agenda (s : State) (a : Nat) (bs : List Byte) : (s.writeMem a bs).agenda = s.agenda := rfl
@[simp] theorem State.writeMem_cores (s : State) (a : Nat) (bs : List Byte) : (s.writeMem a bs).cores = s.cores := rfl
@[simp] theorem State.writeMem_dies (s : State) (a : Nat) (bs : List Byte) : (s.writeMem a bs).dies = s.dies := rfl
@[simp] theorem State.writeMem_modules (s : State) (a : Nat) (bs : List Byte) : (s.writeMem a bs).modules = s.modules := rfl
@[simp] theorem State.writeMem_ports (s : State) (a : Nat) (bs : List Byte) : (s.writeMem a bs).ports = s.ports := rfl
@[simp] theorem State.writeMem_hshare (s : State) (a : Nat) (bs : List Byte) : (s.writeMem a bs).hshare = s.hshare := rfl
@[simp] theorem State.writeMem_net (s : State) (a : Nat) (bs : List Byte) : (s.writeMem a bs).net = s.net := rfl
@[simp] theorem State.writeMem_reqs (s : State) (a : Nat) (bs : List Byte) : (s.writeMem a bs).reqs = s.reqs := rfl
@[simp] theorem State.writeMem_sow (s : State) (a : Nat) (bs : List Byte) : (s.writeMem a bs).sow = s.sow := rfl
@[simp] theorem State.writeMem_host (s : State) (a : Nat) (bs : List Byte) : (s.writeMem a bs).host = s.host := rfl
@[simp] theorem State.writeMem_sec (s : State) (a : Nat) (bs : List Byte) : (s.writeMem a bs).sec = s.sec := rfl
@[simp] theorem State.writeMem_planes (s : State) (a : Nat) (bs : List Byte) : (s.writeMem a bs).planes = s.planes := rfl
@[simp] theorem State.writeMem_nextId (s : State) (a : Nat) (bs : List Byte) : (s.writeMem a bs).nextId = s.nextId := rfl
@[simp] theorem State.writeMem_free (s : State) (a : Nat) (bs : List Byte) : (s.writeMem a bs).free = s.free := rfl
@[simp] theorem State.writeMem_out (s : State) (a : Nat) (bs : List Byte) : (s.writeMem a bs).out = s.out := rfl

/-! ### `State.writeSpad` -/

@[simp] theorem State.writeSpad_cycle (s : State) (c a : Nat) (bs : List Byte) : (s.writeSpad c a bs).cycle = s.cycle := rfl
@[simp] theorem State.writeSpad_curCore (s : State) (c a : Nat) (bs : List Byte) : (s.writeSpad c a bs).curCore = s.curCore := rfl
@[simp] theorem State.writeSpad_curSlot (s : State) (c a : Nat) (bs : List Byte) : (s.writeSpad c a bs).curSlot = s.curSlot := rfl
@[simp] theorem State.writeSpad_curWord (s : State) (c a : Nat) (bs : List Byte) : (s.writeSpad c a bs).curWord = s.curWord := rfl
@[simp] theorem State.writeSpad_agenda (s : State) (c a : Nat) (bs : List Byte) : (s.writeSpad c a bs).agenda = s.agenda := rfl
@[simp] theorem State.writeSpad_dies (s : State) (c a : Nat) (bs : List Byte) : (s.writeSpad c a bs).dies = s.dies := rfl
@[simp] theorem State.writeSpad_modules (s : State) (c a : Nat) (bs : List Byte) : (s.writeSpad c a bs).modules = s.modules := rfl
@[simp] theorem State.writeSpad_ports (s : State) (c a : Nat) (bs : List Byte) : (s.writeSpad c a bs).ports = s.ports := rfl
@[simp] theorem State.writeSpad_mem (s : State) (c a : Nat) (bs : List Byte) : (s.writeSpad c a bs).mem = s.mem := rfl
@[simp] theorem State.writeSpad_poison (s : State) (c a : Nat) (bs : List Byte) : (s.writeSpad c a bs).poison = s.poison := rfl
@[simp] theorem State.writeSpad_hshare (s : State) (c a : Nat) (bs : List Byte) : (s.writeSpad c a bs).hshare = s.hshare := rfl
@[simp] theorem State.writeSpad_net (s : State) (c a : Nat) (bs : List Byte) : (s.writeSpad c a bs).net = s.net := rfl
@[simp] theorem State.writeSpad_reqs (s : State) (c a : Nat) (bs : List Byte) : (s.writeSpad c a bs).reqs = s.reqs := rfl
@[simp] theorem State.writeSpad_sow (s : State) (c a : Nat) (bs : List Byte) : (s.writeSpad c a bs).sow = s.sow := rfl
@[simp] theorem State.writeSpad_host (s : State) (c a : Nat) (bs : List Byte) : (s.writeSpad c a bs).host = s.host := rfl
@[simp] theorem State.writeSpad_sec (s : State) (c a : Nat) (bs : List Byte) : (s.writeSpad c a bs).sec = s.sec := rfl
@[simp] theorem State.writeSpad_planes (s : State) (c a : Nat) (bs : List Byte) : (s.writeSpad c a bs).planes = s.planes := rfl
@[simp] theorem State.writeSpad_nextId (s : State) (c a : Nat) (bs : List Byte) : (s.writeSpad c a bs).nextId = s.nextId := rfl
@[simp] theorem State.writeSpad_free (s : State) (c a : Nat) (bs : List Byte) : (s.writeSpad c a bs).free = s.free := rfl
@[simp] theorem State.writeSpad_out (s : State) (c a : Nat) (bs : List Byte) : (s.writeSpad c a bs).out = s.out := rfl

/-! ### `State.drop` -/

@[simp] theorem State.drop_cycle (s : State) (id : Nat) : (s.drop id).cycle = s.cycle := rfl
@[simp] theorem State.drop_curCore (s : State) (id : Nat) : (s.drop id).curCore = s.curCore := rfl
@[simp] theorem State.drop_curSlot (s : State) (id : Nat) : (s.drop id).curSlot = s.curSlot := rfl
@[simp] theorem State.drop_curWord (s : State) (id : Nat) : (s.drop id).curWord = s.curWord := rfl
@[simp] theorem State.drop_agenda (s : State) (id : Nat) : (s.drop id).agenda = s.agenda := rfl
@[simp] theorem State.drop_cores (s : State) (id : Nat) : (s.drop id).cores = s.cores := rfl
@[simp] theorem State.drop_dies (s : State) (id : Nat) : (s.drop id).dies = s.dies := rfl
@[simp] theorem State.drop_modules (s : State) (id : Nat) : (s.drop id).modules = s.modules := rfl
@[simp] theorem State.drop_ports (s : State) (id : Nat) : (s.drop id).ports = s.ports := rfl
@[simp] theorem State.drop_mem (s : State) (id : Nat) : (s.drop id).mem = s.mem := rfl
@[simp] theorem State.drop_poison (s : State) (id : Nat) : (s.drop id).poison = s.poison := rfl
@[simp] theorem State.drop_hshare (s : State) (id : Nat) : (s.drop id).hshare = s.hshare := rfl
@[simp] theorem State.drop_reqs (s : State) (id : Nat) : (s.drop id).reqs = s.reqs := rfl
@[simp] theorem State.drop_sow (s : State) (id : Nat) : (s.drop id).sow = s.sow := rfl
@[simp] theorem State.drop_host (s : State) (id : Nat) : (s.drop id).host = s.host := rfl
@[simp] theorem State.drop_sec (s : State) (id : Nat) : (s.drop id).sec = s.sec := rfl
@[simp] theorem State.drop_planes (s : State) (id : Nat) : (s.drop id).planes = s.planes := rfl
@[simp] theorem State.drop_nextId (s : State) (id : Nat) : (s.drop id).nextId = s.nextId := rfl
@[simp] theorem State.drop_free (s : State) (id : Nat) : (s.drop id).free = s.free := rfl
@[simp] theorem State.drop_out (s : State) (id : Nat) : (s.drop id).out = s.out := rfl

/-! ### `State.setX` -/

@[simp] theorem State.setX_cycle (s : State) (r : BitVec 5) (w : Word) : (s.setX r w).cycle = s.cycle := rfl
@[simp] theorem State.setX_curCore (s : State) (r : BitVec 5) (w : Word) : (s.setX r w).curCore = s.curCore := rfl
@[simp] theorem State.setX_curSlot (s : State) (r : BitVec 5) (w : Word) : (s.setX r w).curSlot = s.curSlot := rfl
@[simp] theorem State.setX_curWord (s : State) (r : BitVec 5) (w : Word) : (s.setX r w).curWord = s.curWord := rfl
@[simp] theorem State.setX_agenda (s : State) (r : BitVec 5) (w : Word) : (s.setX r w).agenda = s.agenda := rfl
@[simp] theorem State.setX_dies (s : State) (r : BitVec 5) (w : Word) : (s.setX r w).dies = s.dies := rfl
@[simp] theorem State.setX_modules (s : State) (r : BitVec 5) (w : Word) : (s.setX r w).modules = s.modules := rfl
@[simp] theorem State.setX_ports (s : State) (r : BitVec 5) (w : Word) : (s.setX r w).ports = s.ports := rfl
@[simp] theorem State.setX_mem (s : State) (r : BitVec 5) (w : Word) : (s.setX r w).mem = s.mem := rfl
@[simp] theorem State.setX_poison (s : State) (r : BitVec 5) (w : Word) : (s.setX r w).poison = s.poison := rfl
@[simp] theorem State.setX_hshare (s : State) (r : BitVec 5) (w : Word) : (s.setX r w).hshare = s.hshare := rfl
@[simp] theorem State.setX_net (s : State) (r : BitVec 5) (w : Word) : (s.setX r w).net = s.net := rfl
@[simp] theorem State.setX_reqs (s : State) (r : BitVec 5) (w : Word) : (s.setX r w).reqs = s.reqs := rfl
@[simp] theorem State.setX_sow (s : State) (r : BitVec 5) (w : Word) : (s.setX r w).sow = s.sow := rfl
@[simp] theorem State.setX_host (s : State) (r : BitVec 5) (w : Word) : (s.setX r w).host = s.host := rfl
@[simp] theorem State.setX_sec (s : State) (r : BitVec 5) (w : Word) : (s.setX r w).sec = s.sec := rfl
@[simp] theorem State.setX_planes (s : State) (r : BitVec 5) (w : Word) : (s.setX r w).planes = s.planes := rfl
@[simp] theorem State.setX_nextId (s : State) (r : BitVec 5) (w : Word) : (s.setX r w).nextId = s.nextId := rfl
@[simp] theorem State.setX_free (s : State) (r : BitVec 5) (w : Word) : (s.setX r w).free = s.free := rfl
@[simp] theorem State.setX_out (s : State) (r : BitVec 5) (w : Word) : (s.setX r w).out = s.out := rfl

/-! ### `State.setV` -/

@[simp] theorem State.setV_cycle (s : State) (r : BitVec 4) (w : VWord) : (s.setV r w).cycle = s.cycle := rfl
@[simp] theorem State.setV_curCore (s : State) (r : BitVec 4) (w : VWord) : (s.setV r w).curCore = s.curCore := rfl
@[simp] theorem State.setV_curSlot (s : State) (r : BitVec 4) (w : VWord) : (s.setV r w).curSlot = s.curSlot := rfl
@[simp] theorem State.setV_curWord (s : State) (r : BitVec 4) (w : VWord) : (s.setV r w).curWord = s.curWord := rfl
@[simp] theorem State.setV_agenda (s : State) (r : BitVec 4) (w : VWord) : (s.setV r w).agenda = s.agenda := rfl
@[simp] theorem State.setV_dies (s : State) (r : BitVec 4) (w : VWord) : (s.setV r w).dies = s.dies := rfl
@[simp] theorem State.setV_modules (s : State) (r : BitVec 4) (w : VWord) : (s.setV r w).modules = s.modules := rfl
@[simp] theorem State.setV_ports (s : State) (r : BitVec 4) (w : VWord) : (s.setV r w).ports = s.ports := rfl
@[simp] theorem State.setV_mem (s : State) (r : BitVec 4) (w : VWord) : (s.setV r w).mem = s.mem := rfl
@[simp] theorem State.setV_poison (s : State) (r : BitVec 4) (w : VWord) : (s.setV r w).poison = s.poison := rfl
@[simp] theorem State.setV_hshare (s : State) (r : BitVec 4) (w : VWord) : (s.setV r w).hshare = s.hshare := rfl
@[simp] theorem State.setV_net (s : State) (r : BitVec 4) (w : VWord) : (s.setV r w).net = s.net := rfl
@[simp] theorem State.setV_reqs (s : State) (r : BitVec 4) (w : VWord) : (s.setV r w).reqs = s.reqs := rfl
@[simp] theorem State.setV_sow (s : State) (r : BitVec 4) (w : VWord) : (s.setV r w).sow = s.sow := rfl
@[simp] theorem State.setV_host (s : State) (r : BitVec 4) (w : VWord) : (s.setV r w).host = s.host := rfl
@[simp] theorem State.setV_sec (s : State) (r : BitVec 4) (w : VWord) : (s.setV r w).sec = s.sec := rfl
@[simp] theorem State.setV_planes (s : State) (r : BitVec 4) (w : VWord) : (s.setV r w).planes = s.planes := rfl
@[simp] theorem State.setV_nextId (s : State) (r : BitVec 4) (w : VWord) : (s.setV r w).nextId = s.nextId := rfl
@[simp] theorem State.setV_free (s : State) (r : BitVec 4) (w : VWord) : (s.setV r w).free = s.free := rfl
@[simp] theorem State.setV_out (s : State) (r : BitVec 4) (w : VWord) : (s.setV r w).out = s.out := rfl

/-! ### `State.modU` -/

@[simp] theorem State.modU_cycle (s : State) (f : UCsrs → UCsrs) : (s.modU f).cycle = s.cycle := rfl
@[simp] theorem State.modU_curCore (s : State) (f : UCsrs → UCsrs) : (s.modU f).curCore = s.curCore := rfl
@[simp] theorem State.modU_curSlot (s : State) (f : UCsrs → UCsrs) : (s.modU f).curSlot = s.curSlot := rfl
@[simp] theorem State.modU_curWord (s : State) (f : UCsrs → UCsrs) : (s.modU f).curWord = s.curWord := rfl
@[simp] theorem State.modU_agenda (s : State) (f : UCsrs → UCsrs) : (s.modU f).agenda = s.agenda := rfl
@[simp] theorem State.modU_dies (s : State) (f : UCsrs → UCsrs) : (s.modU f).dies = s.dies := rfl
@[simp] theorem State.modU_modules (s : State) (f : UCsrs → UCsrs) : (s.modU f).modules = s.modules := rfl
@[simp] theorem State.modU_ports (s : State) (f : UCsrs → UCsrs) : (s.modU f).ports = s.ports := rfl
@[simp] theorem State.modU_mem (s : State) (f : UCsrs → UCsrs) : (s.modU f).mem = s.mem := rfl
@[simp] theorem State.modU_poison (s : State) (f : UCsrs → UCsrs) : (s.modU f).poison = s.poison := rfl
@[simp] theorem State.modU_hshare (s : State) (f : UCsrs → UCsrs) : (s.modU f).hshare = s.hshare := rfl
@[simp] theorem State.modU_net (s : State) (f : UCsrs → UCsrs) : (s.modU f).net = s.net := rfl
@[simp] theorem State.modU_reqs (s : State) (f : UCsrs → UCsrs) : (s.modU f).reqs = s.reqs := rfl
@[simp] theorem State.modU_sow (s : State) (f : UCsrs → UCsrs) : (s.modU f).sow = s.sow := rfl
@[simp] theorem State.modU_host (s : State) (f : UCsrs → UCsrs) : (s.modU f).host = s.host := rfl
@[simp] theorem State.modU_sec (s : State) (f : UCsrs → UCsrs) : (s.modU f).sec = s.sec := rfl
@[simp] theorem State.modU_planes (s : State) (f : UCsrs → UCsrs) : (s.modU f).planes = s.planes := rfl
@[simp] theorem State.modU_nextId (s : State) (f : UCsrs → UCsrs) : (s.modU f).nextId = s.nextId := rfl
@[simp] theorem State.modU_free (s : State) (f : UCsrs → UCsrs) : (s.modU f).free = s.free := rfl
@[simp] theorem State.modU_out (s : State) (f : UCsrs → UCsrs) : (s.modU f).out = s.out := rfl

/-! ### `State.retire` -/

@[simp] theorem State.retire_cycle (s : State) : (s.retire).cycle = s.cycle := rfl
@[simp] theorem State.retire_curCore (s : State) : (s.retire).curCore = s.curCore := rfl
@[simp] theorem State.retire_curSlot (s : State) : (s.retire).curSlot = s.curSlot := rfl
@[simp] theorem State.retire_curWord (s : State) : (s.retire).curWord = s.curWord := rfl
@[simp] theorem State.retire_agenda (s : State) : (s.retire).agenda = s.agenda := rfl
@[simp] theorem State.retire_dies (s : State) : (s.retire).dies = s.dies := rfl
@[simp] theorem State.retire_modules (s : State) : (s.retire).modules = s.modules := rfl
@[simp] theorem State.retire_ports (s : State) : (s.retire).ports = s.ports := rfl
@[simp] theorem State.retire_mem (s : State) : (s.retire).mem = s.mem := rfl
@[simp] theorem State.retire_poison (s : State) : (s.retire).poison = s.poison := rfl
@[simp] theorem State.retire_hshare (s : State) : (s.retire).hshare = s.hshare := rfl
@[simp] theorem State.retire_net (s : State) : (s.retire).net = s.net := rfl
@[simp] theorem State.retire_reqs (s : State) : (s.retire).reqs = s.reqs := rfl
@[simp] theorem State.retire_sow (s : State) : (s.retire).sow = s.sow := rfl
@[simp] theorem State.retire_host (s : State) : (s.retire).host = s.host := rfl
@[simp] theorem State.retire_sec (s : State) : (s.retire).sec = s.sec := rfl
@[simp] theorem State.retire_planes (s : State) : (s.retire).planes = s.planes := rfl
@[simp] theorem State.retire_nextId (s : State) : (s.retire).nextId = s.nextId := rfl
@[simp] theorem State.retire_free (s : State) : (s.retire).free = s.free := rfl
@[simp] theorem State.retire_out (s : State) : (s.retire).out = s.out := rfl

/-! ### `State.goto` -/

@[simp] theorem State.goto_cycle (s : State) (pc : Word) : (s.goto pc).cycle = s.cycle := rfl
@[simp] theorem State.goto_curCore (s : State) (pc : Word) : (s.goto pc).curCore = s.curCore := rfl
@[simp] theorem State.goto_curSlot (s : State) (pc : Word) : (s.goto pc).curSlot = s.curSlot := rfl
@[simp] theorem State.goto_curWord (s : State) (pc : Word) : (s.goto pc).curWord = s.curWord := rfl
@[simp] theorem State.goto_agenda (s : State) (pc : Word) : (s.goto pc).agenda = s.agenda := rfl
@[simp] theorem State.goto_dies (s : State) (pc : Word) : (s.goto pc).dies = s.dies := rfl
@[simp] theorem State.goto_modules (s : State) (pc : Word) : (s.goto pc).modules = s.modules := rfl
@[simp] theorem State.goto_ports (s : State) (pc : Word) : (s.goto pc).ports = s.ports := rfl
@[simp] theorem State.goto_mem (s : State) (pc : Word) : (s.goto pc).mem = s.mem := rfl
@[simp] theorem State.goto_poison (s : State) (pc : Word) : (s.goto pc).poison = s.poison := rfl
@[simp] theorem State.goto_hshare (s : State) (pc : Word) : (s.goto pc).hshare = s.hshare := rfl
@[simp] theorem State.goto_net (s : State) (pc : Word) : (s.goto pc).net = s.net := rfl
@[simp] theorem State.goto_reqs (s : State) (pc : Word) : (s.goto pc).reqs = s.reqs := rfl
@[simp] theorem State.goto_sow (s : State) (pc : Word) : (s.goto pc).sow = s.sow := rfl
@[simp] theorem State.goto_host (s : State) (pc : Word) : (s.goto pc).host = s.host := rfl
@[simp] theorem State.goto_sec (s : State) (pc : Word) : (s.goto pc).sec = s.sec := rfl
@[simp] theorem State.goto_planes (s : State) (pc : Word) : (s.goto pc).planes = s.planes := rfl
@[simp] theorem State.goto_nextId (s : State) (pc : Word) : (s.goto pc).nextId = s.nextId := rfl
@[simp] theorem State.goto_free (s : State) (pc : Word) : (s.goto pc).free = s.free := rfl
@[simp] theorem State.goto_out (s : State) (pc : Word) : (s.goto pc).out = s.out := rfl

/-! ### `State.addAccess` -/

@[simp] theorem State.addAccess_cycle (s : State) (c i : Nat) (p : Path) (sc : Scope) (write : Bool) : ((s.addAccess c i p sc write).2).cycle = s.cycle := rfl
@[simp] theorem State.addAccess_curCore (s : State) (c i : Nat) (p : Path) (sc : Scope) (write : Bool) : ((s.addAccess c i p sc write).2).curCore = s.curCore := rfl
@[simp] theorem State.addAccess_curSlot (s : State) (c i : Nat) (p : Path) (sc : Scope) (write : Bool) : ((s.addAccess c i p sc write).2).curSlot = s.curSlot := rfl
@[simp] theorem State.addAccess_curWord (s : State) (c i : Nat) (p : Path) (sc : Scope) (write : Bool) : ((s.addAccess c i p sc write).2).curWord = s.curWord := rfl
@[simp] theorem State.addAccess_agenda (s : State) (c i : Nat) (p : Path) (sc : Scope) (write : Bool) : ((s.addAccess c i p sc write).2).agenda = s.agenda := rfl
@[simp] theorem State.addAccess_dies (s : State) (c i : Nat) (p : Path) (sc : Scope) (write : Bool) : ((s.addAccess c i p sc write).2).dies = s.dies := rfl
@[simp] theorem State.addAccess_modules (s : State) (c i : Nat) (p : Path) (sc : Scope) (write : Bool) : ((s.addAccess c i p sc write).2).modules = s.modules := rfl
@[simp] theorem State.addAccess_ports (s : State) (c i : Nat) (p : Path) (sc : Scope) (write : Bool) : ((s.addAccess c i p sc write).2).ports = s.ports := rfl
@[simp] theorem State.addAccess_mem (s : State) (c i : Nat) (p : Path) (sc : Scope) (write : Bool) : ((s.addAccess c i p sc write).2).mem = s.mem := rfl
@[simp] theorem State.addAccess_poison (s : State) (c i : Nat) (p : Path) (sc : Scope) (write : Bool) : ((s.addAccess c i p sc write).2).poison = s.poison := rfl
@[simp] theorem State.addAccess_hshare (s : State) (c i : Nat) (p : Path) (sc : Scope) (write : Bool) : ((s.addAccess c i p sc write).2).hshare = s.hshare := rfl
@[simp] theorem State.addAccess_net (s : State) (c i : Nat) (p : Path) (sc : Scope) (write : Bool) : ((s.addAccess c i p sc write).2).net = s.net := rfl
@[simp] theorem State.addAccess_reqs (s : State) (c i : Nat) (p : Path) (sc : Scope) (write : Bool) : ((s.addAccess c i p sc write).2).reqs = s.reqs := rfl
@[simp] theorem State.addAccess_sow (s : State) (c i : Nat) (p : Path) (sc : Scope) (write : Bool) : ((s.addAccess c i p sc write).2).sow = s.sow := rfl
@[simp] theorem State.addAccess_host (s : State) (c i : Nat) (p : Path) (sc : Scope) (write : Bool) : ((s.addAccess c i p sc write).2).host = s.host := rfl
@[simp] theorem State.addAccess_sec (s : State) (c i : Nat) (p : Path) (sc : Scope) (write : Bool) : ((s.addAccess c i p sc write).2).sec = s.sec := rfl
@[simp] theorem State.addAccess_planes (s : State) (c i : Nat) (p : Path) (sc : Scope) (write : Bool) : ((s.addAccess c i p sc write).2).planes = s.planes := rfl
@[simp] theorem State.addAccess_free (s : State) (c i : Nat) (p : Path) (sc : Scope) (write : Bool) : ((s.addAccess c i p sc write).2).free = s.free := rfl
@[simp] theorem State.addAccess_out (s : State) (c i : Nat) (p : Path) (sc : Scope) (write : Bool) : ((s.addAccess c i p sc write).2).out = s.out := rfl

/-! ### Maps and vectors -/

@[simp] theorem KMap.get_put_self {α : Type} (m : KMap α) (n : Nat) (v : α) : KMap.get (KMap.put m n v) n = some v := by
  induction m with
  | nil => simp [KMap.put, KMap.get]
  | cons p t ih =>
    obtain ⟨k, w⟩ := p
    simp only [KMap.put]
    split
    · simp [KMap.get]
    · split
      · simp [KMap.get]
      · rename_i h1 h2
        simp only [KMap.get]
        rw [if_neg (fun h => h2 h.symm), ih]

@[simp] theorem KMap.get_put_ne {α : Type} (m : KMap α) (n k : Nat) (v : α) (h : k ≠ n) :
    KMap.get (KMap.put m n v) k = KMap.get m k := by
  induction m with
  | nil => simp [KMap.put, KMap.get, Ne.symm h]
  | cons p t ih =>
    obtain ⟨j, w⟩ := p
    simp only [KMap.put]
    split
    · simp [KMap.get, Ne.symm h]
    · split
      · rename_i h1 h2
        subst h2
        simp [KMap.get, Ne.symm h]
      · simp only [KMap.get, ih]

@[simp] theorem KMap.get_del_self {α : Type} (m : KMap α) (n : Nat) : KMap.get (KMap.del m n) n = none := by
  induction m with
  | nil => rfl
  | cons p t ih =>
    obtain ⟨k, w⟩ := p
    unfold KMap.del at ih ⊢
    by_cases h : k = n <;> simp [h, KMap.get, ih]

@[simp] theorem KMap.get_del_ne {α : Type} (m : KMap α) (n k : Nat) (h : k ≠ n) : KMap.get (KMap.del m n) k = KMap.get m k := by
  induction m with
  | nil => rfl
  | cons p t ih =>
    obtain ⟨j, w⟩ := p
    unfold KMap.del at ih ⊢
    by_cases hj : j = n
    · simp only [hj, bne_self_eq_false, Bool.false_eq_true, not_false_eq_true, List.filter_cons_of_neg, KMap.get]
      rw [ih, if_neg (Ne.symm h)]
    · simp only [KMap.get, List.filter_cons, bne_iff_ne, ne_eq, hj, not_false_eq_true, ↓reduceIte, ih]

@[simp] theorem vecGet_vecSet_self {α : Type} {n : Nat} (v : Vector α n) (i : Nat) (a d : α) (h : i < n) :
    vecGet (vecSet v i a) i d = a := by
  simp [vecGet, vecSet, h]

@[simp] theorem vecGet_vecSet_ne {α : Type} {n : Nat} (v : Vector α n) (i j : Nat) (a d : α) (h : j ≠ i) :
    vecGet (vecSet v i a) j d = vecGet v j d := by
  unfold vecGet vecSet
  by_cases hi : i < n <;> by_cases hj : j < n <;> simp [hi, hj, Ne.symm h]

/-! ### The parts of the state -/

@[simp] theorem State.core_modCore_self (s : State) (c : Nat) (f : Core → Core) : (s.modCore c f).core c = f (s.core c) := by
  simp [State.modCore, State.core]

@[simp] theorem State.core_modCore_ne (s : State) (c d : Nat) (f : Core → Core) (h : d ≠ c) :
    (s.modCore c f).core d = s.core d := by
  simp [State.modCore, State.core, h]

@[simp] theorem Core.slot_modSlot_self (k : Core) (i : Nat) (f : Slot → Slot) (h : i < 16) : (k.modSlot i f).slot i = f (k.slot i) := by
  simp [Core.modSlot, Core.slot, h]

@[simp] theorem Core.slot_modSlot_ne (k : Core) (i j : Nat) (f : Slot → Slot) (h : j ≠ i) : (k.modSlot i f).slot j = k.slot j := by
  simp [Core.modSlot, Core.slot, h]

@[simp] theorem State.slot_modSlot_self (s : State) (c i : Nat) (f : Slot → Slot) (h : i < 16) :
    (s.modSlot c i f).slot c i = f (s.slot c i) := by
  simp [State.modSlot, State.slot, h]

@[simp] theorem State.slot_modSlot_slot (s : State) (c i j : Nat) (f : Slot → Slot) (h : j ≠ i) :
    (s.modSlot c i f).slot c j = s.slot c j := by
  simp [State.modSlot, State.slot, h]

@[simp] theorem State.slot_modSlot_core (s : State) (c d i j : Nat) (f : Slot → Slot) (h : d ≠ c) :
    (s.modSlot c i f).slot d j = s.slot d j := by
  simp [State.modSlot, State.slot, h]

@[simp] theorem State.me_modMe (s : State) (f : Slot → Slot) (h : s.curSlot < 16) : (s.modMe f).me = f s.me := by
  simp [State.modMe, State.me, h]

@[simp] theorem State.die_modDie_self (s : State) (d : Nat) (f : Die → Die) : (s.modDie d f).die d = f (s.die d) := by
  simp [State.modDie, State.die]

@[simp] theorem State.die_modDie_ne (s : State) (d e : Nat) (f : Die → Die) (h : e ≠ d) : (s.modDie d f).die e = s.die e := by
  simp [State.modDie, State.die, h]

@[simp] theorem State.module_modModule_self (s : State) (m : Nat) (f : Module → Module) :
    (s.modModule m f).module m = f (s.module m) := by
  simp [State.modModule, State.module]

@[simp] theorem State.module_modModule_ne (s : State) (m n : Nat) (f : Module → Module) (h : n ≠ m) :
    (s.modModule m f).module n = s.module n := by
  simp [State.modModule, State.module, h]

@[simp] theorem State.port_modPort_self (s : State) (p : Nat) (f : Port → Port) : (s.modPort p f).port p = f (s.port p) := by
  simp [State.modPort, State.port]

@[simp] theorem State.port_modPort_ne (s : State) (p q : Nat) (f : Port → Port) (h : q ≠ p) :
    (s.modPort p f).port q = s.port q := by
  simp [State.modPort, State.port, h]

/-! ### Parts of a core that the update of a slot leaves alone -/

@[simp] theorem Core.modSlot_spad (k : Core) (i : Nat) (f : Slot → Slot) : (k.modSlot i f).spad = k.spad := rfl
@[simp] theorem Core.modSlot_spadPoison (k : Core) (i : Nat) (f : Slot → Slot) : (k.modSlot i f).spadPoison = k.spadPoison := rfl
@[simp] theorem Core.modSlot_acc (k : Core) (i : Nat) (f : Slot → Slot) : (k.modSlot i f).acc = k.acc := rfl
@[simp] theorem Core.modSlot_cnt (k : Core) (i : Nat) (f : Slot → Slot) : (k.modSlot i f).cnt = k.cnt := rfl
@[simp] theorem Core.modSlot_eps (k : Core) (i : Nat) (f : Slot → Slot) : (k.modSlot i f).eps = k.eps := rfl
@[simp] theorem Core.modSlot_trapq (k : Core) (i : Nat) (f : Slot → Slot) : (k.modSlot i f).trapq = k.trapq := rfl
@[simp] theorem Core.modSlot_outq (k : Core) (i : Nat) (f : Slot → Slot) : (k.modSlot i f).outq = k.outq := rfl
@[simp] theorem Core.modSlot_bank (k : Core) (i : Nat) (f : Slot → Slot) : (k.modSlot i f).bank = k.bank := rfl
@[simp] theorem Core.modSlot_halted (k : Core) (i : Nat) (f : Slot → Slot) : (k.modSlot i f).halted = k.halted := rfl

/-! ### Registers (R47, R75) -/

/-- What an x register reads after a write: x0 discards it. -/
theorem Slot.getX_setX (t : Slot) (r q : BitVec 5) (w : Word) :
    (t.setX r w).getX q = if q = r ∧ r ≠ 0 then w else t.getX q := by
  by_cases hr : r = 0
  · simp [Slot.setX, hr]
  by_cases hq : q = r
  · subst hq
    simp_all [Slot.setX, Slot.getX]
  · have hn : r.toNat ≠ q.toNat := fun h => hq (BitVec.eq_of_toNat_eq h.symm)
    simp only [Slot.setX, Slot.getX, hr, hq, if_false, false_and, Vector.getElem_set_ne _ _ hn]

/-- The full/empty state of an x register after a write. -/
theorem Slot.xState_setX (t : Slot) (r q : BitVec 5) (w : Word) :
    (t.setX r w).xState q = if q = r then RegSt.full else t.xState q := by
  by_cases hr : r = 0
  · by_cases hq : q = r <;> simp_all [Slot.setX, Slot.xState]
  by_cases hq : q = r
  · subst hq
    simp_all [Slot.setX, Slot.xState]
  · have hn : r.toNat ≠ q.toNat := fun h => hq (BitVec.eq_of_toNat_eq h.symm)
    simp only [Slot.setX, Slot.xState, hr, hq, if_false, Vector.getElem_set_ne _ _ hn]

/-- What a v register reads after a write. -/
theorem Slot.getV_setV (t : Slot) (r q : BitVec 4) (w : VWord) : (t.setV r w).getV q = if q = r then w else t.getV q := by
  unfold Slot.setV Slot.getV
  by_cases hq : q = r
  · subst hq
    simp
  · have : r.toNat ≠ q.toNat := fun h => hq (BitVec.eq_of_toNat_eq h.symm)
    simp [hq, this]

/-- x0 reads zero (R75). -/
@[simp] theorem Slot.getX_zero (t : Slot) : t.getX 0 = 0 := rfl

/-- x0 is FULL (R47). -/
@[simp] theorem Slot.xState_zero (t : Slot) : t.xState 0 = RegSt.full := rfl

/-- m0 reads all ones (R75). -/
@[simp] theorem Slot.getM_zero (t : Slot) : t.getM 0 = BitVec.allOnes 128 := rfl

/-- Writing x0 changes nothing (R75). -/
@[simp] theorem Slot.setX_zero (t : Slot) (w : Word) : t.setX 0 w = t := rfl

end Sys2Proof.Machine
end

