-- ==== Sys2Proof/Laws/Ops.lean ====
section
/-! SUPPORT. What the shared operations can do, one lemma for each: reading and writing registers under R48 and R49, completing,
blocking, trapping. -/

namespace Sys2Proof.Machine

/-! ### Completing -/

/-- A wait that ends leaves the slot's registers and everything else that `still` shows. -/
@[simp] theorem Slot.still_endWait (t : Slot) : t.endWait.still = t.still := by
  unfold Slot.endWait Slot.renode
  split
  · rfl
  · split <;> rfl

@[simp] theorem Slot.still_retire (t : Slot) : t.retire.still = t.still := by
  unfold Slot.retire
  exact (show ({ t.endWait with pc := t.pc + 4 } : Slot).still = t.endWait.still from rfl).trans (Slot.still_endWait t)

@[simp] theorem Slot.wait_endWait (t : Slot) : t.endWait.wait = none := by
  unfold Slot.endWait Slot.renode
  split
  · assumption
  · split <;> rfl

@[simp] theorem Slot.wait_retire (t : Slot) : t.retire.wait = none := Slot.wait_endWait t

@[simp] theorem Slot.pc_retire (t : Slot) : t.retire.pc = t.pc + 4 := rfl

theorem Slot.endWait_of_none (t : Slot) (h : t.wait = none) : t.endWait = t := by
  unfold Slot.endWait
  rw [h]

@[simp] theorem Slot.still_still (t : Slot) : t.still.still = t.still := rfl

@[simp] theorem State.me_curCore (s : State) (f : Slot → Slot) : (s.modMe f).curCore = s.curCore := rfl

/-- The update of the issuing slot leaves every other part of the machine alone. -/
theorem sameBut_modMe (s : State) (f : Slot → Slot) : SameBut s (s.modMe f) s.curCore s.curSlot := by
  refine ⟨rfl, fun c => ?_, fun c i h => ?_⟩
  · by_cases hc : c = s.curCore
    · subst hc
      simp [State.modMe, State.modSlot, Core.modSlot]
    · simp [State.modMe, State.modSlot, hc]
  · unfold State.modMe
    by_cases hc : c = s.curCore
    · subst hc
      exact State.slot_modSlot_slot _ _ _ _ _ (h.resolve_left (by simp))
    · exact State.slot_modSlot_core _ _ _ _ _ _ hc

@[simp] theorem State.modMe_modMe (s : State) (f g : Slot → Slot) (h : s.curSlot < 16) : (s.modMe f).modMe g = s.modMe fun t => g (f t) := by
  simp only [State.modMe, State.modSlot, State.modCore_curCore, State.modCore_curSlot]
  unfold State.modCore
  simp only [State.core, KMap.get_put_self, Option.getD_some]
  have hp : ∀ (m : KMap Core) (n : Nat) (v w : Core), KMap.put (KMap.put m n v) n w = KMap.put m n w := by
    intro m n v w
    induction m with
    | nil => simp [KMap.put]
    | cons p t ih =>
      obtain ⟨k, u⟩ := p
      simp only [KMap.put]
      split
      · simp [KMap.put]
      · split
        · simp [KMap.put]
        · simp_all [KMap.put]
  rw [hp]
  congr 1
  unfold Core.modSlot
  simp only [Core.slot, vecGet_vecSet_self _ _ _ _ h]
  congr 2
  unfold vecSet
  simp [h]

/-- The issuing slot changes and its instruction completes (R71). -/
theorem goes_retire (s : State) (f : Slot → Slot) (h : s.Running) (hp : (f s.me).pc = s.me.pc) (hw : (f s.me).wait = s.me.wait)
    (hi : s.me.wait = none → (f s.me).st = s.me.st ∧ (f s.me).bseq = s.me.bseq ∧ (f s.me).marks = s.me.marks) :
    Goes s (s.modMe f).retire (f s.me) (s.me.pc + 4) := by
  have e : (s.modMe f).retire = s.modMe fun t => (f t).retire := State.modMe_modMe s f Slot.retire h
  rw [e]
  have hm : (s.modMe fun t => (f t).retire).me = (f s.me).retire := State.me_modMe s _ h
  refine ⟨sameBut_modMe s _, ?_, ?_, ?_, fun h0 => ?_⟩
  · rw [hm, Slot.pc_retire, hp]
  · rw [hm, Slot.wait_retire]
  · rw [hm, Slot.still_retire]
  · rw [hm]
    unfold Slot.retire
    rw [Slot.endWait_of_none _ (hw.trans h0)]
    exact hi h0

/-- An instruction that changes nothing but the pc completes (R71). -/
theorem goes_retire_id (s : State) (h : s.Running) : Goes s s.retire s.me (s.me.pc + 4) := by
  have := goes_retire s id h rfl rfl (fun _ => ⟨rfl, rfl, rfl⟩)
  have e : (s.modMe id).retire = s.retire := State.modMe_modMe s id Slot.retire h
  rwa [e] at this

/-- An x register is written and the instruction completes. -/
theorem goes_finishX (s : State) (rd : BitVec 5) (v : Word) (h : s.Running) :
    Goes s (s.finishX rd v) (s.me.setX rd v) (s.me.pc + 4) := by
  refine goes_retire s (fun t => t.setX rd v) h ?_ ?_ (fun _ => ⟨?_, ?_, ?_⟩) <;> (unfold Slot.setX; split <;> rfl)

/-- A v register is written and the instruction completes. -/
theorem goes_finishV (s : State) (vd : BitVec 4) (v : VWord) (h : s.Running) :
    Goes s (s.finishV vd v) (s.me.setV vd v) (s.me.pc + 4) :=
  goes_retire s (fun t => t.setV vd v) h rfl rfl (fun _ => ⟨rfl, rfl, rfl⟩)

/-! ### Reading and writing registers (R48, R49) -/

/-- What the tests of sources can make of an instruction (R48 steps 1 and 2). -/
theorem testing_cases (srcs : List RegRef) (s : State) (k : State → State) :
    (∃ r ∈ srcs, (s.regState r).fe = .poisoned ∧ testing srcs s k = s.trap 24 (BitVec.ofNat 64 (regCode r))) ∨
    (∃ r ∈ srcs, (s.regState r).fe = .empty ∧ bitAt s.me.u.wfetrap (trapBit r) = true
      ∧ testing srcs s k = s.trap 25 (BitVec.ofNat 64 (regCode r))) ∨
    ((∀ r ∈ srcs, (s.regState r).fe ≠ .poisoned) ∧ testing srcs s k = k s) := by
  unfold testing
  split
  · rename_i r h
    exact .inl ⟨r, List.mem_of_find?_eq_some h, by simpa using List.find?_some h, rfl⟩
  · rename_i h1
    split
    · rename_i r h
      have := List.find?_some h
      simp only [Bool.and_eq_true, beq_iff_eq] at this
      exact .inr (.inl ⟨r, List.mem_of_find?_eq_some h, this.1, this.2, rfl⟩)
    · exact .inr (.inr ⟨fun r hr => by simpa using List.find?_eq_none.1 h1 r hr, rfl⟩)

/-- FULL sources pass every test. -/
theorem testing_full (srcs : List RegRef) (s : State) (k : State → State) (h : ∀ r ∈ srcs, s.Full r) : testing srcs s k = k s := by
  rcases testing_cases srcs s k with ⟨r, hr, hp, -⟩ | ⟨r, hr, he, -, -⟩ | ⟨-, e⟩
  · exact absurd ((h r hr).symm.trans hp) (by decide)
  · exact absurd ((h r hr).symm.trans he) (by decide)
  · exact e

/-- FULL sources let an instruction go on. -/
theorem reading_full (srcs : List RegRef) (s : State) (k : State → State) (dst : Option RegRef) (h : ∀ r ∈ srcs, s.Full r) :
    reading srcs s k dst = k s := by
  have h3 : (srcs.filter fun r => (s.regState r).fe == .empty) = [] := by
    rw [List.filter_eq_nil_iff]; intro r hr; simp [h r hr]
  unfold reading
  rw [testing_full _ _ _ h, h3]

/-- A destination without a producer lets an instruction go on. -/
theorem writing_free (dst : RegRef) (s : State) (k : State → State) (ch : Option Nat) (h : s.Free dst) : writing dst s k ch = k s := by
  unfold writing
  have h' : (s.regState dst).prod = none := h
  simp [h']

/-- Sources FULL and the destination without a producer. -/
theorem readWrite_ready (srcs : List RegRef) (dst : RegRef) (s : State) (k : State → State) (h : ∀ r ∈ srcs, s.Full r)
    (hd : s.Free dst) : readWrite srcs dst s k = k s := by
  unfold readWrite
  rw [reading_full _ _ _ _ h, writing_free _ _ _ _ hd]

/-- What reading its sources can make of an instruction (R48): it traps, it blocks on the EMPTY sources in their order, or it goes on. -/
theorem reading_cases (srcs : List RegRef) (s : State) (k : State → State) (dst : Option RegRef) :
    (∃ r ∈ srcs, (s.regState r).fe = .poisoned ∧ reading srcs s k dst = s.trap 24 (BitVec.ofNat 64 (regCode r))) ∨
    (∃ r ∈ srcs, (s.regState r).fe = .empty ∧ bitAt s.me.u.wfetrap (trapBit r) = true
      ∧ reading srcs s k dst = s.trap 25 (BitVec.ofNat 64 (regCode r))) ∨
    (∃ r more, (srcs.filter fun r => (s.regState r).fe == .empty) = r :: more ∧ reading srcs s k dst = s.block (.source r more dst)) ∨
    ((∀ r ∈ srcs, s.Full r) ∧ reading srcs s k dst = k s) := by
  unfold reading
  rcases testing_cases srcs s _ with h | h | ⟨hp, e⟩
  · exact .inl h
  · exact .inr (.inl h)
  · rw [e]
    split
    · rename_i r more h
      exact .inr (.inr (.inl ⟨r, more, h, rfl⟩))
    · rename_i h
      refine .inr (.inr (.inr ⟨fun r hr => ?_, rfl⟩))
      have he := List.filter_eq_nil_iff.1 h r hr
      have := hp r hr
      show (s.regState r).fe = .full
      cases hf : (s.regState r).fe <;> simp_all

/-- What writing its destination can make of an instruction (R49). -/
theorem writing_cases (dst : RegRef) (s : State) (k : State → State) (ch : Option Nat) :
    ((s.regState dst).prod.isSome = true ∧ writing dst s k ch = s.block (.dest dst ch)) ∨ (s.Free dst ∧ writing dst s k ch = k s) := by
  unfold writing
  split
  · exact .inl ⟨‹_›, rfl⟩
  · rename_i h
    exact .inr ⟨by simpa using h, rfl⟩

/-! ### Blocking (R51, R72) -/

/-- The update of one slot leaves every other part of the machine alone. -/
theorem sameBut_modSlot (s : State) (c i : Nat) (f : Slot → Slot) : SameBut s (s.modSlot c i f) c i := by
  refine ⟨rfl, fun d => ?_, fun d j h => ?_⟩
  · by_cases hd : d = c
    · subst hd
      simp [State.modSlot, Core.modSlot]
    · simp [State.modSlot, hd]
  · by_cases hd : d = c
    · subst hd
      exact State.slot_modSlot_slot _ _ _ _ _ (h.resolve_left (by simp))
    · exact State.slot_modSlot_core _ _ _ _ _ _ hd

/-- Starting the probe timer only makes events due. -/
theorem State.armProbe_agenda (s : State) (c i : Nat) : ∃ a, s.armProbe c i = { s with agenda := a } := by
  unfold State.armProbe
  dsimp only
  split
  · exact ⟨_, rfl⟩
  · split <;> exact ⟨_, rfl⟩

/-- What follows a block only makes events due. -/
theorem State.watch_agenda (s : State) (c i : Nat) (first : Bool) : ∃ a, s.watch c i first = { s with agenda := a } := by
  unfold State.watch
  dsimp only
  split
  · exact ⟨_, rfl⟩
  · obtain ⟨a, ha⟩ := State.armProbe_agenda s c i
    rw [ha]
    cases first <;> (repeat' split) <;> exact ⟨_, rfl⟩

@[simp] theorem Slot.still_renode (t u : Slot) : (Slot.renode t u).still = u.still := by
  unfold Slot.renode
  split <;> rfl

/-- A blocked slot keeps its pc and all that `still` shows, and waits for what blocked it. -/
theorem Slot.blockedOn_spec (t : Slot) (k : WaitKind) (cycle serial : Nat) :
    (t.blockedOn k cycle serial).st = .blocked ∧ (t.blockedOn k cycle serial).waitKind = some k ∧
    (t.blockedOn k cycle serial).pc = t.pc ∧ (t.blockedOn k cycle serial).still = t.still := by
  unfold Slot.blockedOn Slot.renode
  cases hw : t.wait <;> dsimp only <;> repeat' split
  all_goals exact ⟨rfl, rfl, rfl, rfl⟩

/-- A block: the slot waits where it is, and nothing else changes but the agenda and the number the wait takes (R72). -/
theorem waits_block (s : State) (k : WaitKind) (h : s.Running) : Waits s (s.block k) k := by
  unfold State.block
  dsimp only [State.fresh]
  obtain ⟨a, ha⟩ := State.watch_agenda
    (State.modMe { s with nextId := s.nextId + 1 } fun t => t.blockedOn k s.cycle s.nextId)
    s.curCore s.curSlot
    (decide ((State.modMe { s with nextId := s.nextId + 1 } fun t => t.blockedOn k s.cycle s.nextId).me.nodeKey ≠ s.me.nodeKey))
  have e : ∀ t : State, t = State.watch (State.modMe { s with nextId := s.nextId + 1 } fun t => t.blockedOn k s.cycle s.nextId)
      s.curCore s.curSlot
      (decide ((State.modMe { s with nextId := s.nextId + 1 } fun t => t.blockedOn k s.cycle s.nextId).me.nodeKey ≠ s.me.nodeKey)) →
      Waits s t k := by
    intro t ht
    rw [ha] at ht
    subst ht
    have hm := State.me_modMe { s with nextId := s.nextId + 1 } (fun t => t.blockedOn k s.cycle s.nextId) h
    have hb := sameBut_modSlot { s with nextId := s.nextId + 1 } s.curCore s.curSlot (fun t => t.blockedOn k s.cycle s.nextId)
    have hs := Slot.blockedOn_spec s.me k s.cycle s.nextId
    refine ⟨?_, ?_, ?_, ?_, rfl, hb.cores, hb.others⟩
    · exact (congrArg Slot.st hm).trans hs.1
    · exact (congrArg Slot.waitKind hm).trans hs.2.1
    · exact (congrArg Slot.pc hm).trans hs.2.2.1
    · exact (congrArg Slot.still hm).trans hs.2.2.2
  exact e _ rfl

/-! ### Taking a trap (R336, R341, R342) -/

/-- A slot that is woken keeps everything but what a wake changes; asked of the service slot, which every wake reaches (R57). -/
theorem State.wake_service (s : State) (c : Nat) : s.wake c 15 = s.modSlot c 15 fun t => t.woken s.cycle := by
  simp [State.wake]

/-- The updates that a posted record makes, part by part: the slot that traps, the queue, the service slot, and all else. -/
theorem State.posting (s : State) (f g w : Slot → Slot) (q : List TrapRec → List TrapRec) (h : s.curSlot < 15) :
    let u := (((s.modSlot s.curCore s.curSlot f).modCore s.curCore fun k => { k with trapq := q k.trapq }).modSlot
      s.curCore s.curSlot g).modSlot s.curCore 15 w
    u.me = g (f s.me) ∧ u.here.trapq = q s.here.trapq ∧ u.slot s.curCore 15 = w (s.slot s.curCore 15) ∧ { u with cores := s.cores } = s ∧
    (∀ c, { u.core c with
      slots := (s.core c).slots
      trapq := (s.core c).trapq } = s.core c) ∧
    (∀ c i, (c ≠ s.curCore ∨ (i ≠ s.curSlot ∧ i ≠ 15)) → u.slot c i = s.slot c i) := by
  intro u
  have hne : s.curSlot ≠ 15 := Nat.ne_of_lt h
  have h16 : s.curSlot < 16 := Nat.lt_succ_of_lt h
  have hc : u.core s.curCore = (({ s.here.modSlot s.curSlot f with trapq := q s.here.trapq } : Core).modSlot s.curSlot g).modSlot 15 w := by
    simp [u, State.modSlot, State.here, Core.modSlot]
  have ho : ∀ c, c ≠ s.curCore → u.core c = s.core c := by
    intro c h; simp [u, State.modSlot, h]
  refine ⟨?_, ?_, ?_, rfl, fun c => ?_, fun c i hci => ?_⟩
  · show (u.core s.curCore).slot s.curSlot = _
    rw [hc]
    simp [Core.modSlot, Core.slot, h16, hne, State.me, State.slot, State.here]
  · show (u.core s.curCore).trapq = _
    rw [hc]
    rfl
  · show (u.core s.curCore).slot 15 = _
    rw [hc]
    simp [Core.modSlot, Core.slot, Ne.symm hne, State.slot, State.here]
  · by_cases e : c = s.curCore
    · rw [e, hc]
      rfl
    · rw [ho c e]
  · show (u.core c).slot i = (s.core c).slot i
    by_cases e : c = s.curCore
    · obtain ⟨h1, h2⟩ := hci.resolve_left (fun h => h e)
      rw [e, hc]
      simp [Core.modSlot, Core.slot, h1, h2, State.here]
    · rw [ho c e]

@[simp] theorem Slot.pc_endWait (t : Slot) : t.endWait.pc = t.pc := by
  unfold Slot.endWait Slot.renode
  split
  · rfl
  · split <;> rfl

/-- A trapped slot is otherwise as it was. -/
theorem Slot.still_faulted (t : Slot) (p : Option TrapRec) :
    ({ { t.endWait with st := .faulted, resv := none, leaving := false } with pendTrap := p, resv := t.resv } : Slot).still = { t.still with pendTrap := p } := by
  have := Slot.still_endWait t
  unfold Slot.still at this ⊢
  simp_all

/-- A trap of a slot other than the service slot (R336, R341); the record of cause 1 has no word (R339). -/
theorem faults_trap (s : State) (cause : Nat) (tval extra : Word) (h : s.curSlot < 15) :
    Faults s (s.trap cause tval extra) cause (if cause = 1 then 0 else s.curWord) tval extra := by
  have hne : s.curSlot ≠ 15 := Nat.ne_of_lt h
  have h16 : s.curSlot < 16 := Nat.lt_succ_of_lt h
  unfold State.trap State.trapAt State.userTrap State.postTrap State.trapRecord Slot.faulted
  rw [if_neg hne]
  dsimp only
  have hr := Slot.still_faulted s.me s.me.pendTrap
  by_cases hl : s.here.trapq.length < 16
  · rw [if_pos (by simpa [State.modSlot, Core.modSlot, State.here] using hl), State.wake_service]
    obtain ⟨a, b, c, d, e, g⟩ := State.posting s (fun t => { t.endWait with st := .faulted, resv := none, leaving := false }) (fun t => { t with pendTrap := none }.settled s.cycle)
      (fun t => t.woken s.cycle) (fun q => q ++ [TrapRec.mk s.curSlot s.me.mode (!(decide (s.me.mode ≠ .m) && bitAt (s.slot s.curCore 15).c.medeleg cause)) cause
        (if cause = 1 then 0 else s.curWord) s.me.pc tval extra]) h
    refine ⟨?_, ?_, ?_, ?_, ?_, d, e, g⟩
    · exact congrArg Slot.st a
    · exact congrArg Slot.resv a
    · exact (congrArg Slot.pc a).trans (Slot.pc_endWait _)
    · exact (congrArg (fun t : Slot => ({ t with resv := s.me.resv, pendTrap := s.me.pendTrap } : Slot).still) a).trans hr
    · dsimp only
      rw [if_pos hl]
      exact ⟨b, congrArg Slot.pendTrap a, c⟩
  · rw [if_neg (by simpa [State.modSlot, Core.modSlot, State.here] using hl)]
    generalize hrec : TrapRec.mk _ _ _ _ _ _ _ _ = r
    have e : ((s.modMe fun t => { t.endWait with st := .faulted, resv := none, leaving := false }).modMe fun t => { t with pendTrap := some r })
        = s.modMe fun t => { ({ t.endWait with st := .faulted, resv := none, leaving := false } : Slot) with pendTrap := some r } := State.modMe_modMe s _ _ h16
    show Faults s ((s.modMe fun t => { t.endWait with st := .faulted, resv := none, leaving := false }).modMe fun t => { t with pendTrap := some r }) _ _ _ _
    rw [e]
    have hm := State.me_modMe s (fun t => { ({ t.endWait with st := .faulted, resv := none, leaving := false } : Slot) with pendTrap := some r }) h16
    have hb := sameBut_modMe s (fun t => { ({ t.endWait with st := .faulted, resv := none, leaving := false } : Slot) with pendTrap := some r })
    have h15 := hb.others s.curCore 15 (.inr (Ne.symm hne))
    refine ⟨congrArg Slot.st hm, congrArg Slot.resv hm, (congrArg Slot.pc hm).trans (Slot.pc_endWait _), ?_, ?_, rfl, fun c => ?_, ?_⟩
    · exact (congrArg (fun t : Slot => ({ t with resv := s.me.resv, pendTrap := s.me.pendTrap } : Slot).still) hm).trans hr
    · dsimp only
      rw [if_neg hl]
      refine ⟨?_, (congrArg Slot.pendTrap hm).trans ?_, h15⟩
      · show ((s.modMe _).core s.curCore).trapq = _
        simp [State.modMe, State.modSlot, State.here]
      · subst hrec
        rfl
    · have := hb.cores c
      exact congrArg (fun k : Core => { k with trapq := (s.core c).trapq }) this
    · exact fun c i hci => hb.others c i (hci.imp id And.left)

/-- A slot that entered S-mode is otherwise as it was. -/
theorem Slot.still_enterS (t : Slot) (cause : Nat) (tval : Word) (h : t.mode = .s) : (t.enterS cause tval).still = ({ t with
    mode := .s
    resv := none
    c := { t.c with
      mstatus := setField (setField (setField t.c.mstatus 5 1 (field t.c.mstatus 1 1)) 1 1 0) 8 1 1
      sepc := t.pc
      scause := BitVec.ofNat 64 cause
      stval := tval } } : Slot).still := by
  have := Slot.still_endWait t
  unfold Slot.enterS
  unfold Slot.still at this ⊢
  simp_all [bit]

/-- A slot that entered M-mode is otherwise as it was. -/
theorem Slot.still_enterM (t : Slot) (cause : Nat) (tval : Word) : (t.enterM cause tval).still = ({ t with
    mode := .m
    resv := none
    c := { t.c with
      mstatus := setField (setField (setField t.c.mstatus 7 1 (field t.c.mstatus 3 1)) 3 1 0) 11 2 (modeCode t.mode)
      mepc := t.pc
      mcause := BitVec.ofNat 64 cause
      mtval := tval } } : Slot).still := by
  have := Slot.still_endWait t
  unfold Slot.enterM
  unfold Slot.still at this ⊢
  simp_all

/-- The service slot goes on at a vector: what taking a trap there changes (R342). -/
theorem enters_trap (s : State) (cause : Nat) (tval extra : Word) (h : s.curSlot = 15) :
    let c := s.me.c
    let toS : Prop := s.me.mode = .s ∧ bitAt c.medeleg cause = true ∧ bitAt c.mstatus 1 = true
    (toS → Enters s (s.trap cause tval extra) .s c.stvec { c with
      mstatus := setField (setField (setField c.mstatus 5 1 (field c.mstatus 1 1)) 1 1 0) 8 1 1
      sepc := s.me.pc
      scause := BitVec.ofNat 64 cause
      stval := tval }) ∧
    (¬ toS → bitAt c.mstatus 3 = true → Enters s (s.trap cause tval extra) .m c.mtvec { c with
      mstatus := setField (setField (setField c.mstatus 7 1 (field c.mstatus 3 1)) 3 1 0) 11 2 (modeCode s.me.mode)
      mepc := s.me.pc
      mcause := BitVec.ofNat 64 cause
      mtval := tval }) ∧
    (¬ toS → bitAt c.mstatus 3 = false → s.trap cause tval extra = s.haltCore s.curCore) := by
  intro c toS
  have h16 : s.curSlot < 16 := by omega
  have hme : s.slot s.curCore 15 = s.me := by unfold State.me; rw [h]
  have ht : s.trap cause tval extra = if s.me.mode = .s ∧ bitAt s.me.c.medeleg cause ∧ bitAt s.me.c.mstatus 1 then s.modMe fun t => t.enterS cause tval
      else if bitAt s.me.c.mstatus 3 then s.modMe fun t => t.enterM cause tval else s.haltCore s.curCore := by
    unfold State.trap State.trapAt State.serviceTrap State.modMe
    rw [if_pos h, hme, h]
  refine ⟨fun a => ?_, fun a b => ?_, fun a b => ?_⟩
  · rw [ht, if_pos a]
    have hm := State.me_modMe s (fun t => t.enterS cause tval) h16
    refine ⟨sameBut_modMe s _, congrArg Slot.pc hm, ?_, (congrArg Slot.still hm).trans (Slot.still_enterS s.me cause tval a.1)⟩
    exact (congrArg Slot.wait hm).trans (Slot.wait_endWait s.me)
  · rw [ht, if_neg a, if_pos b]
    have hm := State.me_modMe s (fun t => t.enterM cause tval) h16
    refine ⟨sameBut_modMe s _, congrArg Slot.pc hm, ?_, (congrArg Slot.still hm).trans (Slot.still_enterM s.me cause tval)⟩
    exact (congrArg Slot.wait hm).trans (Slot.wait_endWait s.me)
  · rw [ht, if_neg a, if_neg (by rw [show bitAt s.me.c.mstatus 3 = false from b]; decide)]

/-! ### The second tier -/

/-- A port and an expander address name one second-tier offset (R141), so that its bytes may stand by their physical addresses. -/
theorem tier_offset_unique {o p : Nat} (port : tierPort o = tierPort p) (addr : expanderAddr o = expanderAddr p) : o = p := by
  simp only [tierPort, expanderAddr, Nat.shiftRight_eq_div_pow] at port addr
  omega

/-- What travels some routes goes on where every module on them is UP, is lost and counted where the first that is not discards it, and waits otherwise
(R391, R403). -/
theorem State.travels_cases (s : State) (routes : List Route) (go wait lost : State → State) :
    (routes.findSome? s.firstShut = none ∧ s.travels routes go wait lost = go s) ∨
    ∃ m e, routes.findSome? s.firstShut = some (m, e) ∧
      ((s.discards m = true ∧ s.travels routes go wait lost = lost (s.countLost m e)) ∨ (s.discards m = false ∧ s.travels routes go wait lost = wait s)) := by
  unfold State.travels
  cases routes.findSome? s.firstShut with
  | none => exact .inl ⟨rfl, rfl⟩
  | some x => cases h : s.discards x.1 <;> exact .inr ⟨x.1, x.2, rfl, by simp [h]⟩

end Sys2Proof.Machine
end

