-- ==== Sys2Proof/Laws/PerInstr.lean ====
section
/-! SUPPORT. The families of lemmas with one lemma for each constructor of `Instr`. -/

namespace Sys2Proof.Laws.WordForm

/-- The word of a well-formed instruction has the form of a 32-bit one: its two low bits are 11, and the next three are not 111 (R9). -/
def Statement (i : Instr) : Prop :=
  i.wf = true → (encodeFields i).op.extractLsb' 0 2 = 3#2 ∧ (encodeFields i).op.extractLsb' 2 3 ≠ 7#3

/-- From the opcode of an instruction. -/
theorem of_op {i : Instr} (op : BitVec 7) (h : (encodeFields i).op = op) (a : op.extractLsb' 0 2 = 3#2) (b : op.extractLsb' 2 3 ≠ 7#3) :
    Statement i := fun _ => by rw [h]; exact ⟨a, b⟩

theorem illegalInstruction (w : BitVec 32) : Statement (.illegalInstruction w) := fun h => nomatch h
theorem wtmoLimit (core slot serial : Nat) : Statement (.wtmoLimit core slot serial) := fun h => nomatch h
theorem globalLoadData (req : Nat) : Statement (.globalLoadData req) := fun h => nomatch h
theorem storeAck (req : Nat) : Statement (.storeAck req) := fun h => nomatch h
theorem homeAccess (req : Nat) : Statement (.homeAccess req) := fun h => nomatch h
theorem bankGrant (core : Nat) : Statement (.bankGrant core) := fun h => nomatch h
theorem sfuServiceStart (core : Nat) : Statement (.sfuServiceStart core) := fun h => nomatch h
theorem sfuResult (core : Nat) : Statement (.sfuResult core) := fun h => nomatch h
theorem tlbRefill (core walk : Nat) : Statement (.tlbRefill core walk) := fun h => nomatch h
theorem faultRecordPendingPost (die : Nat) : Statement (.faultRecordPendingPost die) := fun h => nomatch h
theorem trapRecordPendingPost (core : Nat) : Statement (.trapRecordPendingPost core) := fun h => nomatch h
theorem depositDepart (core oid : Nat) : Statement (.depositDepart core oid) := fun h => nomatch h
theorem depositLanding (msg : Nat) : Statement (.depositLanding msg) := fun h => nomatch h
theorem postedAtomicLanding (msg : Nat) : Statement (.postedAtomicLanding msg) := fun h => nomatch h
theorem globalPostedAtomic (msg : Nat) : Statement (.globalPostedAtomic msg) := fun h => nomatch h
theorem wakeRLanding (msg : Nat) : Statement (.wakeRLanding msg) := fun h => nomatch h
theorem counterRaise (msg : Nat) : Statement (.counterRaise msg) := fun h => nomatch h
theorem landingReceipt (msg : Nat) : Statement (.landingReceipt msg) := fun h => nomatch h
theorem sendRelease (core slot serial : Nat) : Statement (.sendRelease core slot serial) := fun h => nomatch h
theorem offer (msg : Nat) : Statement (.offer msg) := fun h => nomatch h
theorem ack (msg : Nat) : Statement (.ack msg) := fun h => nomatch h
theorem recv (msg : Nat) : Statement (.recv msg) := fun h => nomatch h
theorem withdraw (msg : Nat) : Statement (.withdraw msg) := fun h => nomatch h
theorem withdrawn (msg : Nat) : Statement (.withdrawn msg) := fun h => nomatch h
theorem broken (msg : Nat) : Statement (.broken msg) := fun h => nomatch h
theorem receiveTimeout (core slot serial : Nat) : Statement (.receiveTimeout core slot serial) := fun h => nomatch h
theorem probeTimer (core slot serial : Nat) : Statement (.probeTimer core slot serial) := fun h => nomatch h
theorem probe (msg : Nat) : Statement (.probe msg) := fun h => nomatch h
theorem reply (msg : Nat) : Statement (.reply msg) := fun h => nomatch h
theorem wbarArrivalSignal (core slot serial : Nat) : Statement (.wbarArrivalSignal core slot serial) := fun h => nomatch h
theorem wbarPhaseRelease (die ctx phase : Nat) : Statement (.wbarPhaseRelease die ctx phase) := fun h => nomatch h
theorem mmaStart (core : Nat) : Statement (.mmaStart core) := fun h => nomatch h
theorem mmaSliceEnd (core : Nat) : Statement (.mmaSliceEnd core) := fun h => nomatch h
theorem mmaComplete (core : Nat) : Statement (.mmaComplete core) := fun h => nomatch h
theorem mloadComplete (core acc : Nat) : Statement (.mloadComplete core acc) := fun h => nomatch h
theorem drainComplete (core drain : Nat) : Statement (.drainComplete core drain) := fun h => nomatch h
theorem amaxUpdate (core drain : Nat) : Statement (.amaxUpdate core drain) := fun h => nomatch h
theorem gleanerEntryStart (core lid : Nat) : Statement (.gleanerEntryStart core lid) := fun h => nomatch h
theorem gleanerTranslate (core lid : Nat) : Statement (.gleanerTranslate core lid) := fun h => nomatch h
theorem gleanerEntryComplete (core lid entry : Nat) : Statement (.gleanerEntryComplete core lid entry) := fun h => nomatch h
theorem gleanerListEnd (core lid : Nat) : Statement (.gleanerListEnd core lid) := fun h => nomatch h
theorem thresherOperationStart (op : Nat) : Statement (.thresherOperationStart op) := fun h => nomatch h
theorem sourceRead (op rank tile : Nat) : Statement (.sourceRead op rank tile) := fun h => nomatch h
theorem eround (msg : Nat) : Statement (.eround msg) := fun h => nomatch h
theorem up (msg : Nat) : Statement (.up msg) := fun h => nomatch h
theorem header (msg : Nat) : Statement (.header msg) := fun h => nomatch h
theorem plane (msg : Nat) : Statement (.plane msg) := fun h => nomatch h
theorem planeCounterRaise (op rank : Nat) : Statement (.planeCounterRaise op rank) := fun h => nomatch h
theorem cancel (msg : Nat) : Statement (.cancel msg) := fun h => nomatch h
theorem thresherOperationEnd (op rank : Nat) : Statement (.thresherOperationEnd op rank) := fun h => nomatch h
theorem thresherFault (op : Nat) : Statement (.thresherFault op) := fun h => nomatch h
theorem launchAccept (cmd : Nat) : Statement (.launchAccept cmd) := fun h => nomatch h
theorem placementStart : Statement .placementStart := fun h => nomatch h
theorem sheafLoad (ticket : Nat) : Statement (.sheafLoad ticket) := fun h => nomatch h
theorem startWave (ticket : Nat) : Statement (.startWave ticket) := fun h => nomatch h
theorem startRelease (die ticket : Nat) : Statement (.startRelease die ticket) := fun h => nomatch h
theorem sowerSuspend (ticket : Nat) : Statement (.sowerSuspend ticket) := fun h => nomatch h
theorem sowerResume (ticket : Nat) : Statement (.sowerResume ticket) := fun h => nomatch h
theorem sowerKill (ticket : Nat) : Statement (.sowerKill ticket) := fun h => nomatch h
theorem quiescenceRound (ticket : Nat) : Statement (.quiescenceRound ticket) := fun h => nomatch h
theorem combineRoundRestart (ticket : Nat) : Statement (.combineRoundRestart ticket) := fun h => nomatch h
theorem retirement (ticket : Nat) : Statement (.retirement ticket) := fun h => nomatch h
theorem generationSweep (group : Nat) : Statement (.generationSweep group) := fun h => nomatch h
theorem flitReceive (module end_ msg : Nat) : Statement (.flitReceive module end_ msg) := fun h => nomatch h
theorem flitReplay (module end_ msg : Nat) : Statement (.flitReplay module end_ msg) := fun h => nomatch h
theorem replayLimit (module : Nat) : Statement (.replayLimit module) := fun h => nomatch h
theorem moduleDrained (module : Nat) : Statement (.moduleDrained module) := fun h => nomatch h
theorem trainDone (module : Nat) : Statement (.trainDone module) := fun h => nomatch h
theorem messageDiscard (msg module : Nat) : Statement (.messageDiscard msg module) := fun h => nomatch h
theorem lossNotice (msg : Nat) : Statement (.lossNotice msg) := fun h => nomatch h
theorem accessTimeout (req : Nat) : Statement (.accessTimeout req) := fun h => nomatch h
theorem moduleHold (module : Nat) : Statement (.moduleHold module) := fun h => nomatch h
theorem moduleUnhold (module : Nat) : Statement (.moduleUnhold module) := fun h => nomatch h
theorem retrain (module end_ : Nat) : Statement (.retrain module end_) := fun h => nomatch h
theorem stolonRetrain (port : Nat) : Statement (.stolonRetrain port) := fun h => nomatch h
theorem stolonHold (port : Nat) : Statement (.stolonHold port) := fun h => nomatch h
theorem stolonEnable (port : Nat) : Statement (.stolonEnable port) := fun h => nomatch h
theorem wgdata (core slot serial : Nat) : Statement (.wgdata core slot serial) := fun h => nomatch h
theorem invAll (die : Nat) : Statement (.invAll die) := fun h => nomatch h
theorem invAsid (die asid : Nat) : Statement (.invAsid die asid) := fun h => nomatch h
theorem invAsidPage (die asid page : Nat) : Statement (.invAsidPage die asid page) := fun h => nomatch h
theorem invPage (die page : Nat) : Statement (.invPage die page) := fun h => nomatch h
theorem invComplete (die : Nat) : Statement (.invComplete die) := fun h => nomatch h
theorem wtrapqPop (core : Nat) : Statement (.wtrapqPop core) := fun h => nomatch h
theorem wdmapWrite (core : Nat) (value : BitVec 64) : Statement (.wdmapWrite core value) := fun h => nomatch h
theorem wwindata (core win : Nat) (value : BitVec 64) : Statement (.wwindata core win value) := fun h => nomatch h
theorem asidEntryWrite (index : Nat) (value : BitVec 64) : Statement (.asidEntryWrite index value) := fun h => nomatch h
theorem clkoff (die : Nat) (value : BitVec 64) : Statement (.clkoff die value) := fun h => nomatch h
theorem clkrate (die : Nat) (value : BitVec 64) : Statement (.clkrate die value) := fun h => nomatch h
theorem sqDoorbell (value : BitVec 64) : Statement (.sqDoorbell value) := fun h => nomatch h
theorem sqConsume : Statement .sqConsume := fun h => nomatch h
theorem sqCompletion : Statement .sqCompletion := fun h => nomatch h
theorem hostMemAccess (write : Bool) (addr size : Nat) (value : BitVec 512) : Statement (.hostMemAccess write addr size value) := fun h => nomatch h
theorem hostWindowWrite (reg : Nat) (value : BitVec 64) : Statement (.hostWindowWrite reg value) := fun h => nomatch h
theorem panelReset : Statement .panelReset := fun h => nomatch h
theorem dieReset (die : Nat) : Statement (.dieReset die) := fun h => nomatch h
theorem sigreq : Statement .sigreq := fun h => nomatch h
theorem mext : Statement .mext := fun h => nomatch h
theorem mextComplete : Statement .mextComplete := fun h => nomatch h
theorem attgo : Statement .attgo := fun h => nomatch h
theorem attestComplete : Statement .attestComplete := fun h => nomatch h
theorem pcap (value : BitVec 64) : Statement (.pcap value) := fun h => nomatch h
theorem powerMeasure (centiwatts : Nat) : Statement (.powerMeasure centiwatts) := fun h => nomatch h
theorem sensorAlarm (sensor : Nat) : Statement (.sensorAlarm sensor) := fun h => nomatch h
theorem registerWrite (addr : Nat) (value : BitVec 64) : Statement (.registerWrite addr value) := fun h => nomatch h
theorem wrsStoTimeout (core slot serial : Nat) : Statement (.wrsStoTimeout core slot serial) := fun h => nomatch h
theorem partnerCopyRefresh (module : Nat) : Statement (.partnerCopyRefresh module) := fun h => nomatch h
theorem sweepMarkerReturn (group : Nat) : Statement (.sweepMarkerReturn group) := fun h => nomatch h
theorem reservationMessage (msg : Nat) : Statement (.reservationMessage msg) := fun h => nomatch h
theorem lb (rd rs1 : BitVec 5) (imm : BitVec 12) : Statement (.lb rd rs1 imm) := of_op 3#7 rfl (by decide) (by decide)
theorem lh (rd rs1 : BitVec 5) (imm : BitVec 12) : Statement (.lh rd rs1 imm) := of_op 3#7 rfl (by decide) (by decide)
theorem lw (rd rs1 : BitVec 5) (imm : BitVec 12) : Statement (.lw rd rs1 imm) := of_op 3#7 rfl (by decide) (by decide)
theorem ld (rd rs1 : BitVec 5) (imm : BitVec 12) : Statement (.ld rd rs1 imm) := of_op 3#7 rfl (by decide) (by decide)
theorem lbu (rd rs1 : BitVec 5) (imm : BitVec 12) : Statement (.lbu rd rs1 imm) := of_op 3#7 rfl (by decide) (by decide)
theorem lhu (rd rs1 : BitVec 5) (imm : BitVec 12) : Statement (.lhu rd rs1 imm) := of_op 3#7 rfl (by decide) (by decide)
theorem lwu (rd rs1 : BitVec 5) (imm : BitVec 12) : Statement (.lwu rd rs1 imm) := of_op 3#7 rfl (by decide) (by decide)
theorem sb (rs1 rs2 : BitVec 5) (imm : BitVec 12) : Statement (.sb rs1 rs2 imm) := of_op 35#7 rfl (by decide) (by decide)
theorem sh (rs1 rs2 : BitVec 5) (imm : BitVec 12) : Statement (.sh rs1 rs2 imm) := of_op 35#7 rfl (by decide) (by decide)
theorem sw (rs1 rs2 : BitVec 5) (imm : BitVec 12) : Statement (.sw rs1 rs2 imm) := of_op 35#7 rfl (by decide) (by decide)
theorem sd (rs1 rs2 : BitVec 5) (imm : BitVec 12) : Statement (.sd rs1 rs2 imm) := of_op 35#7 rfl (by decide) (by decide)
theorem fence (fm : Bool) (pred succ : BitVec 4) : Statement (.fence fm pred succ) := of_op 15#7 rfl (by decide) (by decide)
theorem fenceI : Statement .fenceI := of_op 15#7 rfl (by decide) (by decide)
theorem addi (rd rs1 : BitVec 5) (imm : BitVec 12) : Statement (.addi rd rs1 imm) := of_op 19#7 rfl (by decide) (by decide)
theorem slti (rd rs1 : BitVec 5) (imm : BitVec 12) : Statement (.slti rd rs1 imm) := of_op 19#7 rfl (by decide) (by decide)
theorem sltiu (rd rs1 : BitVec 5) (imm : BitVec 12) : Statement (.sltiu rd rs1 imm) := of_op 19#7 rfl (by decide) (by decide)
theorem xori (rd rs1 : BitVec 5) (imm : BitVec 12) : Statement (.xori rd rs1 imm) := of_op 19#7 rfl (by decide) (by decide)
theorem ori (rd rs1 : BitVec 5) (imm : BitVec 12) : Statement (.ori rd rs1 imm) := of_op 19#7 rfl (by decide) (by decide)
theorem andi (rd rs1 : BitVec 5) (imm : BitVec 12) : Statement (.andi rd rs1 imm) := of_op 19#7 rfl (by decide) (by decide)
theorem slli (rd rs1 : BitVec 5) (sh : BitVec 6) : Statement (.slli rd rs1 sh) := of_op 19#7 rfl (by decide) (by decide)
theorem srli (rd rs1 : BitVec 5) (sh : BitVec 6) : Statement (.srli rd rs1 sh) := of_op 19#7 rfl (by decide) (by decide)
theorem srai (rd rs1 : BitVec 5) (sh : BitVec 6) : Statement (.srai rd rs1 sh) := of_op 19#7 rfl (by decide) (by decide)
theorem auipc (rd : BitVec 5) (imm : BitVec 20) : Statement (.auipc rd imm) := of_op 23#7 rfl (by decide) (by decide)
theorem lui (rd : BitVec 5) (imm : BitVec 20) : Statement (.lui rd imm) := of_op 55#7 rfl (by decide) (by decide)
theorem addiw (rd rs1 : BitVec 5) (imm : BitVec 12) : Statement (.addiw rd rs1 imm) := of_op 27#7 rfl (by decide) (by decide)
theorem slliw (rd rs1 sh : BitVec 5) : Statement (.slliw rd rs1 sh) := of_op 27#7 rfl (by decide) (by decide)
theorem srliw (rd rs1 sh : BitVec 5) : Statement (.srliw rd rs1 sh) := of_op 27#7 rfl (by decide) (by decide)
theorem sraiw (rd rs1 sh : BitVec 5) : Statement (.sraiw rd rs1 sh) := of_op 27#7 rfl (by decide) (by decide)
theorem lrW (rd rs1 : BitVec 5) (aq rl : Bool) : Statement (.lrW rd rs1 aq rl) := of_op 47#7 rfl (by decide) (by decide)
theorem lrD (rd rs1 : BitVec 5) (aq rl : Bool) : Statement (.lrD rd rs1 aq rl) := of_op 47#7 rfl (by decide) (by decide)
theorem scW (rd rs1 rs2 : BitVec 5) (aq rl : Bool) : Statement (.scW rd rs1 rs2 aq rl) := of_op 47#7 rfl (by decide) (by decide)
theorem scD (rd rs1 rs2 : BitVec 5) (aq rl : Bool) : Statement (.scD rd rs1 rs2 aq rl) := of_op 47#7 rfl (by decide) (by decide)
theorem amoswapW (rd rs1 rs2 : BitVec 5) (aq rl : Bool) : Statement (.amoswapW rd rs1 rs2 aq rl) := of_op 47#7 rfl (by decide) (by decide)
theorem amoswapD (rd rs1 rs2 : BitVec 5) (aq rl : Bool) : Statement (.amoswapD rd rs1 rs2 aq rl) := of_op 47#7 rfl (by decide) (by decide)
theorem amoaddW (rd rs1 rs2 : BitVec 5) (aq rl : Bool) : Statement (.amoaddW rd rs1 rs2 aq rl) := of_op 47#7 rfl (by decide) (by decide)
theorem amoaddD (rd rs1 rs2 : BitVec 5) (aq rl : Bool) : Statement (.amoaddD rd rs1 rs2 aq rl) := of_op 47#7 rfl (by decide) (by decide)
theorem amoxorW (rd rs1 rs2 : BitVec 5) (aq rl : Bool) : Statement (.amoxorW rd rs1 rs2 aq rl) := of_op 47#7 rfl (by decide) (by decide)
theorem amoxorD (rd rs1 rs2 : BitVec 5) (aq rl : Bool) : Statement (.amoxorD rd rs1 rs2 aq rl) := of_op 47#7 rfl (by decide) (by decide)
theorem amoandW (rd rs1 rs2 : BitVec 5) (aq rl : Bool) : Statement (.amoandW rd rs1 rs2 aq rl) := of_op 47#7 rfl (by decide) (by decide)
theorem amoandD (rd rs1 rs2 : BitVec 5) (aq rl : Bool) : Statement (.amoandD rd rs1 rs2 aq rl) := of_op 47#7 rfl (by decide) (by decide)
theorem amoorW (rd rs1 rs2 : BitVec 5) (aq rl : Bool) : Statement (.amoorW rd rs1 rs2 aq rl) := of_op 47#7 rfl (by decide) (by decide)
theorem amoorD (rd rs1 rs2 : BitVec 5) (aq rl : Bool) : Statement (.amoorD rd rs1 rs2 aq rl) := of_op 47#7 rfl (by decide) (by decide)
theorem amominW (rd rs1 rs2 : BitVec 5) (aq rl : Bool) : Statement (.amominW rd rs1 rs2 aq rl) := of_op 47#7 rfl (by decide) (by decide)
theorem amominD (rd rs1 rs2 : BitVec 5) (aq rl : Bool) : Statement (.amominD rd rs1 rs2 aq rl) := of_op 47#7 rfl (by decide) (by decide)
theorem amomaxW (rd rs1 rs2 : BitVec 5) (aq rl : Bool) : Statement (.amomaxW rd rs1 rs2 aq rl) := of_op 47#7 rfl (by decide) (by decide)
theorem amomaxD (rd rs1 rs2 : BitVec 5) (aq rl : Bool) : Statement (.amomaxD rd rs1 rs2 aq rl) := of_op 47#7 rfl (by decide) (by decide)
theorem amominuW (rd rs1 rs2 : BitVec 5) (aq rl : Bool) : Statement (.amominuW rd rs1 rs2 aq rl) := of_op 47#7 rfl (by decide) (by decide)
theorem amominuD (rd rs1 rs2 : BitVec 5) (aq rl : Bool) : Statement (.amominuD rd rs1 rs2 aq rl) := of_op 47#7 rfl (by decide) (by decide)
theorem amomaxuW (rd rs1 rs2 : BitVec 5) (aq rl : Bool) : Statement (.amomaxuW rd rs1 rs2 aq rl) := of_op 47#7 rfl (by decide) (by decide)
theorem amomaxuD (rd rs1 rs2 : BitVec 5) (aq rl : Bool) : Statement (.amomaxuD rd rs1 rs2 aq rl) := of_op 47#7 rfl (by decide) (by decide)
theorem add (rd rs1 rs2 : BitVec 5) : Statement (.add rd rs1 rs2) := of_op 51#7 rfl (by decide) (by decide)
theorem sub (rd rs1 rs2 : BitVec 5) : Statement (.sub rd rs1 rs2) := of_op 51#7 rfl (by decide) (by decide)
theorem sll (rd rs1 rs2 : BitVec 5) : Statement (.sll rd rs1 rs2) := of_op 51#7 rfl (by decide) (by decide)
theorem slt (rd rs1 rs2 : BitVec 5) : Statement (.slt rd rs1 rs2) := of_op 51#7 rfl (by decide) (by decide)
theorem sltu (rd rs1 rs2 : BitVec 5) : Statement (.sltu rd rs1 rs2) := of_op 51#7 rfl (by decide) (by decide)
theorem xor (rd rs1 rs2 : BitVec 5) : Statement (.xor rd rs1 rs2) := of_op 51#7 rfl (by decide) (by decide)
theorem srl (rd rs1 rs2 : BitVec 5) : Statement (.srl rd rs1 rs2) := of_op 51#7 rfl (by decide) (by decide)
theorem sra (rd rs1 rs2 : BitVec 5) : Statement (.sra rd rs1 rs2) := of_op 51#7 rfl (by decide) (by decide)
theorem or (rd rs1 rs2 : BitVec 5) : Statement (.or rd rs1 rs2) := of_op 51#7 rfl (by decide) (by decide)
theorem and (rd rs1 rs2 : BitVec 5) : Statement (.and rd rs1 rs2) := of_op 51#7 rfl (by decide) (by decide)
theorem mul (rd rs1 rs2 : BitVec 5) : Statement (.mul rd rs1 rs2) := of_op 51#7 rfl (by decide) (by decide)
theorem mulh (rd rs1 rs2 : BitVec 5) : Statement (.mulh rd rs1 rs2) := of_op 51#7 rfl (by decide) (by decide)
theorem mulhsu (rd rs1 rs2 : BitVec 5) : Statement (.mulhsu rd rs1 rs2) := of_op 51#7 rfl (by decide) (by decide)
theorem mulhu (rd rs1 rs2 : BitVec 5) : Statement (.mulhu rd rs1 rs2) := of_op 51#7 rfl (by decide) (by decide)
theorem div (rd rs1 rs2 : BitVec 5) : Statement (.div rd rs1 rs2) := of_op 51#7 rfl (by decide) (by decide)
theorem divu (rd rs1 rs2 : BitVec 5) : Statement (.divu rd rs1 rs2) := of_op 51#7 rfl (by decide) (by decide)
theorem rem (rd rs1 rs2 : BitVec 5) : Statement (.rem rd rs1 rs2) := of_op 51#7 rfl (by decide) (by decide)
theorem remu (rd rs1 rs2 : BitVec 5) : Statement (.remu rd rs1 rs2) := of_op 51#7 rfl (by decide) (by decide)
theorem addw (rd rs1 rs2 : BitVec 5) : Statement (.addw rd rs1 rs2) := of_op 59#7 rfl (by decide) (by decide)
theorem subw (rd rs1 rs2 : BitVec 5) : Statement (.subw rd rs1 rs2) := of_op 59#7 rfl (by decide) (by decide)
theorem sllw (rd rs1 rs2 : BitVec 5) : Statement (.sllw rd rs1 rs2) := of_op 59#7 rfl (by decide) (by decide)
theorem srlw (rd rs1 rs2 : BitVec 5) : Statement (.srlw rd rs1 rs2) := of_op 59#7 rfl (by decide) (by decide)
theorem sraw (rd rs1 rs2 : BitVec 5) : Statement (.sraw rd rs1 rs2) := of_op 59#7 rfl (by decide) (by decide)
theorem mulw (rd rs1 rs2 : BitVec 5) : Statement (.mulw rd rs1 rs2) := of_op 59#7 rfl (by decide) (by decide)
theorem divw (rd rs1 rs2 : BitVec 5) : Statement (.divw rd rs1 rs2) := of_op 59#7 rfl (by decide) (by decide)
theorem divuw (rd rs1 rs2 : BitVec 5) : Statement (.divuw rd rs1 rs2) := of_op 59#7 rfl (by decide) (by decide)
theorem remw (rd rs1 rs2 : BitVec 5) : Statement (.remw rd rs1 rs2) := of_op 59#7 rfl (by decide) (by decide)
theorem remuw (rd rs1 rs2 : BitVec 5) : Statement (.remuw rd rs1 rs2) := of_op 59#7 rfl (by decide) (by decide)
theorem beq (rs1 rs2 : BitVec 5) (imm : BitVec 12) : Statement (.beq rs1 rs2 imm) := of_op 99#7 rfl (by decide) (by decide)
theorem bne (rs1 rs2 : BitVec 5) (imm : BitVec 12) : Statement (.bne rs1 rs2 imm) := of_op 99#7 rfl (by decide) (by decide)
theorem blt (rs1 rs2 : BitVec 5) (imm : BitVec 12) : Statement (.blt rs1 rs2 imm) := of_op 99#7 rfl (by decide) (by decide)
theorem bge (rs1 rs2 : BitVec 5) (imm : BitVec 12) : Statement (.bge rs1 rs2 imm) := of_op 99#7 rfl (by decide) (by decide)
theorem bltu (rs1 rs2 : BitVec 5) (imm : BitVec 12) : Statement (.bltu rs1 rs2 imm) := of_op 99#7 rfl (by decide) (by decide)
theorem bgeu (rs1 rs2 : BitVec 5) (imm : BitVec 12) : Statement (.bgeu rs1 rs2 imm) := of_op 99#7 rfl (by decide) (by decide)
theorem jalr (rd rs1 : BitVec 5) (imm : BitVec 12) : Statement (.jalr rd rs1 imm) := of_op 103#7 rfl (by decide) (by decide)
theorem jal (rd : BitVec 5) (imm : BitVec 20) : Statement (.jal rd imm) := of_op 111#7 rfl (by decide) (by decide)
theorem ecall : Statement .ecall := of_op 115#7 rfl (by decide) (by decide)
theorem ebreak : Statement .ebreak := of_op 115#7 rfl (by decide) (by decide)
theorem sret : Statement .sret := of_op 115#7 rfl (by decide) (by decide)
theorem mret : Statement .mret := of_op 115#7 rfl (by decide) (by decide)
theorem wfi : Statement .wfi := of_op 115#7 rfl (by decide) (by decide)
theorem wrsNto : Statement .wrsNto := of_op 115#7 rfl (by decide) (by decide)
theorem wrsSto : Statement .wrsSto := of_op 115#7 rfl (by decide) (by decide)
theorem sfenceVma (rs1 rs2 : BitVec 5) : Statement (.sfenceVma rs1 rs2) := of_op 115#7 rfl (by decide) (by decide)
theorem csrrw (rd rs1 : BitVec 5) (csr : BitVec 12) : Statement (.csrrw rd rs1 csr) := of_op 115#7 rfl (by decide) (by decide)
theorem csrrs (rd rs1 : BitVec 5) (csr : BitVec 12) : Statement (.csrrs rd rs1 csr) := of_op 115#7 rfl (by decide) (by decide)
theorem csrrc (rd rs1 : BitVec 5) (csr : BitVec 12) : Statement (.csrrc rd rs1 csr) := of_op 115#7 rfl (by decide) (by decide)
theorem csrrwi (rd uimm : BitVec 5) (csr : BitVec 12) : Statement (.csrrwi rd uimm csr) := of_op 115#7 rfl (by decide) (by decide)
theorem csrrsi (rd uimm : BitVec 5) (csr : BitVec 12) : Statement (.csrrsi rd uimm csr) := of_op 115#7 rfl (by decide) (by decide)
theorem csrrci (rd uimm : BitVec 5) (csr : BitVec 12) : Statement (.csrrci rd uimm csr) := of_op 115#7 rfl (by decide) (by decide)
theorem park : Statement .park := of_op 11#7 rfl (by decide) (by decide)
theorem wake (rs1 : BitVec 5) : Statement (.wake rs1) := of_op 11#7 rfl (by decide) (by decide)
theorem wakeR (rs1 : BitVec 5) : Statement (.wakeR rs1) := of_op 11#7 rfl (by decide) (by decide)
theorem pfence (scope : Scope) (pred succ : BitVec 5) : Statement (.pfence scope pred succ) := of_op 11#7 rfl (by decide) (by decide)
theorem stop : Statement .stop := of_op 11#7 rfl (by decide) (by decide)
theorem feEmpty (reg : RegRef) : Statement (.feEmpty reg) := of_op 11#7 rfl (by decide) (by decide)
theorem feTest (rd : BitVec 5) (reg : RegRef) : Statement (.feTest rd reg) := of_op 11#7 rfl (by decide) (by decide)
theorem feWait (reg : RegRef) : Statement (.feWait reg) := of_op 11#7 rfl (by decide) (by decide)
theorem dsb (rs1 rs2 : BitVec 5) (rel : Option Scope) : Statement (.dsb rs1 rs2 rel) := of_op 11#7 rfl (by decide) (by decide)
theorem dsh (rs1 rs2 : BitVec 5) (rel : Option Scope) : Statement (.dsh rs1 rs2 rel) := of_op 11#7 rfl (by decide) (by decide)
theorem dsw (rs1 rs2 : BitVec 5) (rel : Option Scope) : Statement (.dsw rs1 rs2 rel) := of_op 11#7 rfl (by decide) (by decide)
theorem dsd (rs1 rs2 : BitVec 5) (rel : Option Scope) : Statement (.dsd rs1 rs2 rel) := of_op 11#7 rfl (by decide) (by decide)
theorem dsv (rs1 : BitVec 5) (vs2 : BitVec 4) (rel : Option Scope) : Statement (.dsv rs1 vs2 rel) := of_op 11#7 rfl (by decide) (by decide)
theorem daddW (rs1 rs2 : BitVec 5) (rel : Option Scope) : Statement (.daddW rs1 rs2 rel) := of_op 11#7 rfl (by decide) (by decide)
theorem daddD (rs1 rs2 : BitVec 5) (rel : Option Scope) : Statement (.daddD rs1 rs2 rel) := of_op 11#7 rfl (by decide) (by decide)
theorem dmaxW (rs1 rs2 : BitVec 5) (rel : Option Scope) : Statement (.dmaxW rs1 rs2 rel) := of_op 11#7 rfl (by decide) (by decide)
theorem dmaxD (rs1 rs2 : BitVec 5) (rel : Option Scope) : Statement (.dmaxD rs1 rs2 rel) := of_op 11#7 rfl (by decide) (by decide)
theorem dminW (rs1 rs2 : BitVec 5) (rel : Option Scope) : Statement (.dminW rs1 rs2 rel) := of_op 11#7 rfl (by decide) (by decide)
theorem dminD (rs1 rs2 : BitVec 5) (rel : Option Scope) : Statement (.dminD rs1 rs2 rel) := of_op 11#7 rfl (by decide) (by decide)
theorem dmaxuW (rs1 rs2 : BitVec 5) (rel : Option Scope) : Statement (.dmaxuW rs1 rs2 rel) := of_op 11#7 rfl (by decide) (by decide)
theorem dmaxuD (rs1 rs2 : BitVec 5) (rel : Option Scope) : Statement (.dmaxuD rs1 rs2 rel) := of_op 11#7 rfl (by decide) (by decide)
theorem dandW (rs1 rs2 : BitVec 5) (rel : Option Scope) : Statement (.dandW rs1 rs2 rel) := of_op 11#7 rfl (by decide) (by decide)
theorem dandD (rs1 rs2 : BitVec 5) (rel : Option Scope) : Statement (.dandD rs1 rs2 rel) := of_op 11#7 rfl (by decide) (by decide)
theorem dorW (rs1 rs2 : BitVec 5) (rel : Option Scope) : Statement (.dorW rs1 rs2 rel) := of_op 11#7 rfl (by decide) (by decide)
theorem dorD (rs1 rs2 : BitVec 5) (rel : Option Scope) : Statement (.dorD rs1 rs2 rel) := of_op 11#7 rfl (by decide) (by decide)
theorem dxorW (rs1 rs2 : BitVec 5) (rel : Option Scope) : Statement (.dxorW rs1 rs2 rel) := of_op 11#7 rfl (by decide) (by decide)
theorem dxorD (rs1 rs2 : BitVec 5) (rel : Option Scope) : Statement (.dxorD rs1 rs2 rel) := of_op 11#7 rfl (by decide) (by decide)
theorem cntSet (c : BitVec 6) (rs1 : BitVec 5) : Statement (.cntSet c rs1) := of_op 11#7 rfl (by decide) (by decide)
theorem cntAdd (c : BitVec 6) (rs1 : BitVec 5) : Statement (.cntAdd c rs1) := of_op 11#7 rfl (by decide) (by decide)
theorem cntRd (rd : BitVec 5) (c : BitVec 6) : Statement (.cntRd rd c) := of_op 11#7 rfl (by decide) (by decide)
theorem cntWait (rd : BitVec 5) (c : BitVec 6) : Statement (.cntWait rd c) := of_op 11#7 rfl (by decide) (by decide)
theorem cntPoll (rd : BitVec 5) (c : BitVec 6) : Statement (.cntPoll rd c) := of_op 11#7 rfl (by decide) (by decide)
theorem cntMode (c : BitVec 6) (rs1 : BitVec 5) : Statement (.cntMode c rs1) := of_op 11#7 rfl (by decide) (by decide)
theorem chs (ch : BitVec 8) (rs1 : BitVec 5) : Statement (.chs ch rs1) := of_op 11#7 rfl (by decide) (by decide)
theorem chsv (ch : BitVec 8) (vs1 : BitVec 4) : Statement (.chsv ch vs1) := of_op 11#7 rfl (by decide) (by decide)
theorem chr (rd : BitVec 5) (ch : BitVec 8) : Statement (.chr rd ch) := of_op 11#7 rfl (by decide) (by decide)
theorem chrv (vd : BitVec 4) (ch : BitVec 8) : Statement (.chrv vd ch) := of_op 11#7 rfl (by decide) (by decide)
theorem altOn (n : BitVec 3) (ch : BitVec 8) : Statement (.altOn n ch) := of_op 11#7 rfl (by decide) (by decide)
theorem altOff (n : BitVec 3) : Statement (.altOff n) := of_op 11#7 rfl (by decide) (by decide)
theorem altWait (rd : BitVec 5) (tmo skip : Bool) : Statement (.altWait rd tmo skip) := of_op 11#7 rfl (by decide) (by decide)
theorem altClr : Statement .altClr := of_op 11#7 rfl (by decide) (by decide)
theorem chprobe (rd : BitVec 5) (ch : BitVec 8) : Statement (.chprobe rd ch) := of_op 11#7 rfl (by decide) (by decide)
theorem wbarA (b : BitVec 3) : Statement (.wbarA b) := of_op 11#7 rfl (by decide) (by decide)
theorem wbarW (rd : BitVec 5) (b : BitVec 3) : Statement (.wbarW rd b) := of_op 11#7 rfl (by decide) (by decide)
theorem grpPut (g : BitVec 4) (rs1 : BitVec 5) : Statement (.grpPut g rs1) := of_op 11#7 rfl (by decide) (by decide)
theorem grpGet (rd : BitVec 5) (g : BitVec 4) : Statement (.grpGet rd g) := of_op 11#7 rfl (by decide) (by decide)
theorem mmaFp8 (acc : BitVec 3) (rs1 rs2 : BitVec 5) (z : Bool) : Statement (.mmaFp8 acc rs1 rs2 z) := of_op 43#7 rfl (by decide) (by decide)
theorem mmaBf16 (acc : BitVec 3) (rs1 rs2 : BitVec 5) (z : Bool) : Statement (.mmaBf16 acc rs1 rs2 z) := of_op 43#7 rfl (by decide) (by decide)
theorem mmaFp16 (acc : BitVec 3) (rs1 rs2 : BitVec 5) (z : Bool) : Statement (.mmaFp16 acc rs1 rs2 z) := of_op 43#7 rfl (by decide) (by decide)
theorem mmaMxf8 (acc : BitVec 3) (rs1 rs2 : BitVec 5) (z : Bool) : Statement (.mmaMxf8 acc rs1 rs2 z) := of_op 43#7 rfl (by decide) (by decide)
theorem mmaMxf4 (acc : BitVec 3) (rs1 rs2 : BitVec 5) (z : Bool) : Statement (.mmaMxf4 acc rs1 rs2 z) := of_op 43#7 rfl (by decide) (by decide)
theorem mmaDxb8 (acc : BitVec 3) (rs1 rs2 : BitVec 5) (z : Bool) : Statement (.mmaDxb8 acc rs1 rs2 z) := of_op 43#7 rfl (by decide) (by decide)
theorem mmaDxb4 (acc : BitVec 3) (rs1 rs2 : BitVec 5) (z : Bool) : Statement (.mmaDxb4 acc rs1 rs2 z) := of_op 43#7 rfl (by decide) (by decide)
theorem mmaI8 (acc : BitVec 3) (rs1 rs2 : BitVec 5) (z : Bool) : Statement (.mmaI8 acc rs1 rs2 z) := of_op 43#7 rfl (by decide) (by decide)
theorem macq (acc : BitVec 3) : Statement (.macq acc) := of_op 43#7 rfl (by decide) (by decide)
theorem mrel (acc : BitVec 3) : Statement (.mrel acc) := of_op 43#7 rfl (by decide) (by decide)
theorem mzero (acc : BitVec 3) : Statement (.mzero acc) := of_op 43#7 rfl (by decide) (by decide)
theorem mload (acc : BitVec 3) (rs1 : BitVec 5) : Statement (.mload acc rs1) := of_op 43#7 rfl (by decide) (by decide)
theorem mdrain (acc : BitVec 3) (rs1 rs2 : BitVec 5) (amax : Bool) : Statement (.mdrain acc rs1 rs2 amax) := of_op 43#7 rfl (by decide) (by decide)
theorem mdrainD (acc : BitVec 3) (rs1 rs2 : BitVec 5) (amax : Bool) : Statement (.mdrainD acc rs1 rs2 amax) := of_op 43#7 rfl (by decide) (by decide)
theorem mdrainQ (acc : BitVec 3) (rs1 rs2 : BitVec 5) (amax : Bool) : Statement (.mdrainQ acc rs1 rs2 amax) := of_op 43#7 rfl (by decide) (by decide)
theorem ceGo (rd rs1 : BitVec 5) : Statement (.ceGo rd rs1) := of_op 43#7 rfl (by decide) (by decide)
theorem ceWait (rd rs1 : BitVec 5) : Statement (.ceWait rd rs1) := of_op 43#7 rfl (by decide) (by decide)
theorem ceStat (rd rs1 : BitVec 5) : Statement (.ceStat rd rs1) := of_op 43#7 rfl (by decide) (by decide)
theorem ceAbort (rd rs1 : BitVec 5) : Statement (.ceAbort rd rs1) := of_op 43#7 rfl (by decide) (by decide)
theorem plGo (rd rs1 : BitVec 5) : Statement (.plGo rd rs1) := of_op 43#7 rfl (by decide) (by decide)
theorem plWait (rd rs1 : BitVec 5) : Statement (.plWait rd rs1) := of_op 43#7 rfl (by decide) (by decide)
theorem plCancel (rd rs1 : BitVec 5) : Statement (.plCancel rd rs1) := of_op 43#7 rfl (by decide) (by decide)
theorem plStat (rd rs1 : BitVec 5) : Statement (.plStat rd rs1) := of_op 43#7 rfl (by decide) (by decide)
theorem sow (rd rs1 : BitVec 5) : Statement (.sow rd rs1) := of_op 43#7 rfl (by decide) (by decide)
theorem sstop (rd rs1 : BitVec 5) : Statement (.sstop rd rs1) := of_op 43#7 rfl (by decide) (by decide)
theorem sresume (rd rs1 : BitVec 5) : Statement (.sresume rd rs1) := of_op 43#7 rfl (by decide) (by decide)
theorem skill (rd rs1 : BitVec 5) : Statement (.skill rd rs1) := of_op 43#7 rfl (by decide) (by decide)
theorem ssave (rd rs1 rs2 : BitVec 5) : Statement (.ssave rd rs1 rs2) := of_op 43#7 rfl (by decide) (by decide)
theorem sload (rd rs1 rs2 : BitVec 5) : Statement (.sload rd rs1 rs2) := of_op 43#7 rfl (by decide) (by decide)
theorem vaddVv (vd vs1 vs2 : BitVec 4) (m : BitVec 3) : Statement (.vaddVv vd vs1 vs2 m) := of_op 91#7 rfl (by decide) (by decide)
theorem vaddVx (vd vs1 : BitVec 4) (rs2 : BitVec 5) (m : BitVec 3) : Statement (.vaddVx vd vs1 rs2 m) := of_op 91#7 rfl (by decide) (by decide)
theorem vsubVv (vd vs1 vs2 : BitVec 4) (m : BitVec 3) : Statement (.vsubVv vd vs1 vs2 m) := of_op 91#7 rfl (by decide) (by decide)
theorem vsubVx (vd vs1 : BitVec 4) (rs2 : BitVec 5) (m : BitVec 3) : Statement (.vsubVx vd vs1 rs2 m) := of_op 91#7 rfl (by decide) (by decide)
theorem vmulVv (vd vs1 vs2 : BitVec 4) (m : BitVec 3) : Statement (.vmulVv vd vs1 vs2 m) := of_op 91#7 rfl (by decide) (by decide)
theorem vmulVx (vd vs1 : BitVec 4) (rs2 : BitVec 5) (m : BitVec 3) : Statement (.vmulVx vd vs1 rs2 m) := of_op 91#7 rfl (by decide) (by decide)
theorem vmulhVv (vd vs1 vs2 : BitVec 4) (m : BitVec 3) : Statement (.vmulhVv vd vs1 vs2 m) := of_op 91#7 rfl (by decide) (by decide)
theorem vmulhVx (vd vs1 : BitVec 4) (rs2 : BitVec 5) (m : BitVec 3) : Statement (.vmulhVx vd vs1 rs2 m) := of_op 91#7 rfl (by decide) (by decide)
theorem vminVv (vd vs1 vs2 : BitVec 4) (m : BitVec 3) : Statement (.vminVv vd vs1 vs2 m) := of_op 91#7 rfl (by decide) (by decide)
theorem vminVx (vd vs1 : BitVec 4) (rs2 : BitVec 5) (m : BitVec 3) : Statement (.vminVx vd vs1 rs2 m) := of_op 91#7 rfl (by decide) (by decide)
theorem vmaxVv (vd vs1 vs2 : BitVec 4) (m : BitVec 3) : Statement (.vmaxVv vd vs1 vs2 m) := of_op 91#7 rfl (by decide) (by decide)
theorem vmaxVx (vd vs1 : BitVec 4) (rs2 : BitVec 5) (m : BitVec 3) : Statement (.vmaxVx vd vs1 rs2 m) := of_op 91#7 rfl (by decide) (by decide)
theorem vminuVv (vd vs1 vs2 : BitVec 4) (m : BitVec 3) : Statement (.vminuVv vd vs1 vs2 m) := of_op 91#7 rfl (by decide) (by decide)
theorem vminuVx (vd vs1 : BitVec 4) (rs2 : BitVec 5) (m : BitVec 3) : Statement (.vminuVx vd vs1 rs2 m) := of_op 91#7 rfl (by decide) (by decide)
theorem vmaxuVv (vd vs1 vs2 : BitVec 4) (m : BitVec 3) : Statement (.vmaxuVv vd vs1 vs2 m) := of_op 91#7 rfl (by decide) (by decide)
theorem vmaxuVx (vd vs1 : BitVec 4) (rs2 : BitVec 5) (m : BitVec 3) : Statement (.vmaxuVx vd vs1 rs2 m) := of_op 91#7 rfl (by decide) (by decide)
theorem vsaddVv (vd vs1 vs2 : BitVec 4) (m : BitVec 3) : Statement (.vsaddVv vd vs1 vs2 m) := of_op 91#7 rfl (by decide) (by decide)
theorem vsaddVx (vd vs1 : BitVec 4) (rs2 : BitVec 5) (m : BitVec 3) : Statement (.vsaddVx vd vs1 rs2 m) := of_op 91#7 rfl (by decide) (by decide)
theorem vssubVv (vd vs1 vs2 : BitVec 4) (m : BitVec 3) : Statement (.vssubVv vd vs1 vs2 m) := of_op 91#7 rfl (by decide) (by decide)
theorem vssubVx (vd vs1 : BitVec 4) (rs2 : BitVec 5) (m : BitVec 3) : Statement (.vssubVx vd vs1 rs2 m) := of_op 91#7 rfl (by decide) (by decide)
theorem vmaccVv (vd vs1 vs2 : BitVec 4) (m : BitVec 3) : Statement (.vmaccVv vd vs1 vs2 m) := of_op 91#7 rfl (by decide) (by decide)
theorem vmaccVx (vd vs1 : BitVec 4) (rs2 : BitVec 5) (m : BitVec 3) : Statement (.vmaccVx vd vs1 rs2 m) := of_op 91#7 rfl (by decide) (by decide)
theorem vfaddVv (vd vs1 vs2 : BitVec 4) (m : BitVec 3) : Statement (.vfaddVv vd vs1 vs2 m) := of_op 91#7 rfl (by decide) (by decide)
theorem vfaddVx (vd vs1 : BitVec 4) (rs2 : BitVec 5) (m : BitVec 3) : Statement (.vfaddVx vd vs1 rs2 m) := of_op 91#7 rfl (by decide) (by decide)
theorem vfsubVv (vd vs1 vs2 : BitVec 4) (m : BitVec 3) : Statement (.vfsubVv vd vs1 vs2 m) := of_op 91#7 rfl (by decide) (by decide)
theorem vfsubVx (vd vs1 : BitVec 4) (rs2 : BitVec 5) (m : BitVec 3) : Statement (.vfsubVx vd vs1 rs2 m) := of_op 91#7 rfl (by decide) (by decide)
theorem vfmulVv (vd vs1 vs2 : BitVec 4) (m : BitVec 3) : Statement (.vfmulVv vd vs1 vs2 m) := of_op 91#7 rfl (by decide) (by decide)
theorem vfmulVx (vd vs1 : BitVec 4) (rs2 : BitVec 5) (m : BitVec 3) : Statement (.vfmulVx vd vs1 rs2 m) := of_op 91#7 rfl (by decide) (by decide)
theorem vfminVv (vd vs1 vs2 : BitVec 4) (m : BitVec 3) : Statement (.vfminVv vd vs1 vs2 m) := of_op 91#7 rfl (by decide) (by decide)
theorem vfminVx (vd vs1 : BitVec 4) (rs2 : BitVec 5) (m : BitVec 3) : Statement (.vfminVx vd vs1 rs2 m) := of_op 91#7 rfl (by decide) (by decide)
theorem vfmaxVv (vd vs1 vs2 : BitVec 4) (m : BitVec 3) : Statement (.vfmaxVv vd vs1 vs2 m) := of_op 91#7 rfl (by decide) (by decide)
theorem vfmaxVx (vd vs1 : BitVec 4) (rs2 : BitVec 5) (m : BitVec 3) : Statement (.vfmaxVx vd vs1 rs2 m) := of_op 91#7 rfl (by decide) (by decide)
theorem vfmaccVv (vd vs1 vs2 : BitVec 4) (m : BitVec 3) : Statement (.vfmaccVv vd vs1 vs2 m) := of_op 91#7 rfl (by decide) (by decide)
theorem vfmaccVx (vd vs1 : BitVec 4) (rs2 : BitVec 5) (m : BitVec 3) : Statement (.vfmaccVx vd vs1 rs2 m) := of_op 91#7 rfl (by decide) (by decide)
theorem vfnmsacVv (vd vs1 vs2 : BitVec 4) (m : BitVec 3) : Statement (.vfnmsacVv vd vs1 vs2 m) := of_op 91#7 rfl (by decide) (by decide)
theorem vfnmsacVx (vd vs1 : BitVec 4) (rs2 : BitVec 5) (m : BitVec 3) : Statement (.vfnmsacVx vd vs1 rs2 m) := of_op 91#7 rfl (by decide) (by decide)
theorem vmseqVv (md : BitVec 3) (vs1 vs2 : BitVec 4) (m : BitVec 3) : Statement (.vmseqVv md vs1 vs2 m) := of_op 91#7 rfl (by decide) (by decide)
theorem vmseqVx (md : BitVec 3) (vs1 : BitVec 4) (rs2 : BitVec 5) (m : BitVec 3) : Statement (.vmseqVx md vs1 rs2 m) := of_op 91#7 rfl (by decide) (by decide)
theorem vmsneVv (md : BitVec 3) (vs1 vs2 : BitVec 4) (m : BitVec 3) : Statement (.vmsneVv md vs1 vs2 m) := of_op 91#7 rfl (by decide) (by decide)
theorem vmsneVx (md : BitVec 3) (vs1 : BitVec 4) (rs2 : BitVec 5) (m : BitVec 3) : Statement (.vmsneVx md vs1 rs2 m) := of_op 91#7 rfl (by decide) (by decide)
theorem vmsltVv (md : BitVec 3) (vs1 vs2 : BitVec 4) (m : BitVec 3) : Statement (.vmsltVv md vs1 vs2 m) := of_op 91#7 rfl (by decide) (by decide)
theorem vmsltVx (md : BitVec 3) (vs1 : BitVec 4) (rs2 : BitVec 5) (m : BitVec 3) : Statement (.vmsltVx md vs1 rs2 m) := of_op 91#7 rfl (by decide) (by decide)
theorem vmsltuVv (md : BitVec 3) (vs1 vs2 : BitVec 4) (m : BitVec 3) : Statement (.vmsltuVv md vs1 vs2 m) := of_op 91#7 rfl (by decide) (by decide)
theorem vmsltuVx (md : BitVec 3) (vs1 : BitVec 4) (rs2 : BitVec 5) (m : BitVec 3) : Statement (.vmsltuVx md vs1 rs2 m) := of_op 91#7 rfl (by decide) (by decide)
theorem vmfeqVv (md : BitVec 3) (vs1 vs2 : BitVec 4) (m : BitVec 3) : Statement (.vmfeqVv md vs1 vs2 m) := of_op 91#7 rfl (by decide) (by decide)
theorem vmfeqVx (md : BitVec 3) (vs1 : BitVec 4) (rs2 : BitVec 5) (m : BitVec 3) : Statement (.vmfeqVx md vs1 rs2 m) := of_op 91#7 rfl (by decide) (by decide)
theorem vmfltVv (md : BitVec 3) (vs1 vs2 : BitVec 4) (m : BitVec 3) : Statement (.vmfltVv md vs1 vs2 m) := of_op 91#7 rfl (by decide) (by decide)
theorem vmfltVx (md : BitVec 3) (vs1 : BitVec 4) (rs2 : BitVec 5) (m : BitVec 3) : Statement (.vmfltVx md vs1 rs2 m) := of_op 91#7 rfl (by decide) (by decide)
theorem vmfleVv (md : BitVec 3) (vs1 vs2 : BitVec 4) (m : BitVec 3) : Statement (.vmfleVv md vs1 vs2 m) := of_op 91#7 rfl (by decide) (by decide)
theorem vmfleVx (md : BitVec 3) (vs1 : BitVec 4) (rs2 : BitVec 5) (m : BitVec 3) : Statement (.vmfleVx md vs1 rs2 m) := of_op 91#7 rfl (by decide) (by decide)
theorem vandVv (vd vs1 vs2 : BitVec 4) (m : BitVec 3) : Statement (.vandVv vd vs1 vs2 m) := of_op 91#7 rfl (by decide) (by decide)
theorem vandVx (vd vs1 : BitVec 4) (rs2 : BitVec 5) (m : BitVec 3) : Statement (.vandVx vd vs1 rs2 m) := of_op 91#7 rfl (by decide) (by decide)
theorem vorVv (vd vs1 vs2 : BitVec 4) (m : BitVec 3) : Statement (.vorVv vd vs1 vs2 m) := of_op 91#7 rfl (by decide) (by decide)
theorem vorVx (vd vs1 : BitVec 4) (rs2 : BitVec 5) (m : BitVec 3) : Statement (.vorVx vd vs1 rs2 m) := of_op 91#7 rfl (by decide) (by decide)
theorem vxorVv (vd vs1 vs2 : BitVec 4) (m : BitVec 3) : Statement (.vxorVv vd vs1 vs2 m) := of_op 91#7 rfl (by decide) (by decide)
theorem vxorVx (vd vs1 : BitVec 4) (rs2 : BitVec 5) (m : BitVec 3) : Statement (.vxorVx vd vs1 rs2 m) := of_op 91#7 rfl (by decide) (by decide)
theorem vsllVv (vd vs1 vs2 : BitVec 4) (m : BitVec 3) : Statement (.vsllVv vd vs1 vs2 m) := of_op 91#7 rfl (by decide) (by decide)
theorem vsllVx (vd vs1 : BitVec 4) (rs2 : BitVec 5) (m : BitVec 3) : Statement (.vsllVx vd vs1 rs2 m) := of_op 91#7 rfl (by decide) (by decide)
theorem vsrlVv (vd vs1 vs2 : BitVec 4) (m : BitVec 3) : Statement (.vsrlVv vd vs1 vs2 m) := of_op 91#7 rfl (by decide) (by decide)
theorem vsrlVx (vd vs1 : BitVec 4) (rs2 : BitVec 5) (m : BitVec 3) : Statement (.vsrlVx vd vs1 rs2 m) := of_op 91#7 rfl (by decide) (by decide)
theorem vsraVv (vd vs1 vs2 : BitVec 4) (m : BitVec 3) : Statement (.vsraVv vd vs1 vs2 m) := of_op 91#7 rfl (by decide) (by decide)
theorem vsraVx (vd vs1 : BitVec 4) (rs2 : BitVec 5) (m : BitVec 3) : Statement (.vsraVx vd vs1 rs2 m) := of_op 91#7 rfl (by decide) (by decide)
theorem vle (vd : BitVec 4) (rs1 : BitVec 5) (m : BitVec 3) : Statement (.vle vd rs1 m) := of_op 123#7 rfl (by decide) (by decide)
theorem vlse (vd : BitVec 4) (rs1 rs2 : BitVec 5) (m : BitVec 3) : Statement (.vlse vd rs1 rs2 m) := of_op 123#7 rfl (by decide) (by decide)
theorem vlxe (vd : BitVec 4) (rs1 : BitVec 5) (vs2 : BitVec 4) (m : BitVec 3) : Statement (.vlxe vd rs1 vs2 m) := of_op 123#7 rfl (by decide) (by decide)
theorem vse (vs : BitVec 4) (rs1 : BitVec 5) (m : BitVec 3) : Statement (.vse vs rs1 m) := of_op 123#7 rfl (by decide) (by decide)
theorem vsse (vs : BitVec 4) (rs1 rs2 : BitVec 5) (m : BitVec 3) : Statement (.vsse vs rs1 rs2 m) := of_op 123#7 rfl (by decide) (by decide)
theorem vsxe (vs : BitVec 4) (rs1 : BitVec 5) (vs2 : BitVec 4) (m : BitVec 3) : Statement (.vsxe vs rs1 vs2 m) := of_op 123#7 rfl (by decide) (by decide)
theorem vcvt (vd vs1 : BitVec 4) (code : BitVec 5) (m : BitVec 3) : Statement (.vcvt vd vs1 code m) := of_op 123#7 rfl (by decide) (by decide)
theorem vqnt (vd vs1 : BitVec 4) (code : BitVec 5) : Statement (.vqnt vd vs1 code) := of_op 123#7 rfl (by decide) (by decide)
theorem vdeq (vd vs1 : BitVec 4) (code : BitVec 5) : Statement (.vdeq vd vs1 code) := of_op 123#7 rfl (by decide) (by decide)
theorem vfcvti (vd vs1 : BitVec 4) (m : BitVec 3) : Statement (.vfcvti vd vs1 m) := of_op 123#7 rfl (by decide) (by decide)
theorem vicvtf (vd vs1 : BitVec 4) (m : BitVec 3) : Statement (.vicvtf vd vs1 m) := of_op 123#7 rfl (by decide) (by decide)
theorem vexp2 (vd vs1 : BitVec 4) (m : BitVec 3) : Statement (.vexp2 vd vs1 m) := of_op 123#7 rfl (by decide) (by decide)
theorem vlog2 (vd vs1 : BitVec 4) (m : BitVec 3) : Statement (.vlog2 vd vs1 m) := of_op 123#7 rfl (by decide) (by decide)
theorem vrcp (vd vs1 : BitVec 4) (m : BitVec 3) : Statement (.vrcp vd vs1 m) := of_op 123#7 rfl (by decide) (by decide)
theorem vrsqrt (vd vs1 : BitVec 4) (m : BitVec 3) : Statement (.vrsqrt vd vs1 m) := of_op 123#7 rfl (by decide) (by decide)
theorem vtanh (vd vs1 : BitVec 4) (m : BitVec 3) : Statement (.vtanh vd vs1 m) := of_op 123#7 rfl (by decide) (by decide)
theorem vredsum (rd : BitVec 5) (vs1 : BitVec 4) (m : BitVec 3) : Statement (.vredsum rd vs1 m) := of_op 123#7 rfl (by decide) (by decide)
theorem vfredsum (rd : BitVec 5) (vs1 : BitVec 4) (m : BitVec 3) : Statement (.vfredsum rd vs1 m) := of_op 123#7 rfl (by decide) (by decide)
theorem vredmax (rd : BitVec 5) (vs1 : BitVec 4) (m : BitVec 3) : Statement (.vredmax rd vs1 m) := of_op 123#7 rfl (by decide) (by decide)
theorem vfredmax (rd : BitVec 5) (vs1 : BitVec 4) (m : BitVec 3) : Statement (.vfredmax rd vs1 m) := of_op 123#7 rfl (by decide) (by decide)
theorem vfredamax (rd : BitVec 5) (vs1 : BitVec 4) (m : BitVec 3) : Statement (.vfredamax rd vs1 m) := of_op 123#7 rfl (by decide) (by decide)
theorem vslideup (vd vs1 : BitVec 4) (rs2 : BitVec 5) (m : BitVec 3) : Statement (.vslideup vd vs1 rs2 m) := of_op 123#7 rfl (by decide) (by decide)
theorem vslidedown (vd vs1 : BitVec 4) (rs2 : BitVec 5) (m : BitVec 3) : Statement (.vslidedown vd vs1 rs2 m) := of_op 123#7 rfl (by decide) (by decide)
theorem vgather (vd vs1 vs2 : BitVec 4) (m : BitVec 3) : Statement (.vgather vd vs1 vs2 m) := of_op 123#7 rfl (by decide) (by decide)
theorem vbcast (vd : BitVec 4) (rs1 : BitVec 5) (m : BitVec 3) : Statement (.vbcast vd rs1 m) := of_op 123#7 rfl (by decide) (by decide)
theorem vext (rd : BitVec 5) (vs1 : BitVec 4) (rs2 : BitVec 5) : Statement (.vext rd vs1 rs2) := of_op 123#7 rfl (by decide) (by decide)
theorem vcompress (vd vs1 : BitVec 4) (ms2 : BitVec 3) : Statement (.vcompress vd vs1 ms2) := of_op 123#7 rfl (by decide) (by decide)
theorem vmand (md ms1 ms2 : BitVec 3) : Statement (.vmand md ms1 ms2) := of_op 123#7 rfl (by decide) (by decide)
theorem vmor (md ms1 ms2 : BitVec 3) : Statement (.vmor md ms1 ms2) := of_op 123#7 rfl (by decide) (by decide)
theorem vmnot (md ms1 : BitVec 3) : Statement (.vmnot md ms1) := of_op 123#7 rfl (by decide) (by decide)
theorem vmpop (rd : BitVec 5) (ms1 : BitVec 3) : Statement (.vmpop rd ms1) := of_op 123#7 rfl (by decide) (by decide)
theorem vmfirst (rd : BitVec 5) (ms1 : BitVec 3) : Statement (.vmfirst rd ms1) := of_op 123#7 rfl (by decide) (by decide)
theorem vmerge (vd vs1 vs2 : BitVec 4) (m : BitVec 3) : Statement (.vmerge vd vs1 vs2 m) := of_op 123#7 rfl (by decide) (by decide)
theorem vcfg (rd rs1 : BitVec 5) : Statement (.vcfg rd rs1) := of_op 123#7 rfl (by decide) (by decide)

end Sys2Proof.Laws.WordForm
end

