-- ==== Sys2Proof/Tests/Slice0.lean ====
section
/-! SUPPORT. Tests of the model: ill-formed terms, worked encodings of the spec, single steps against the spec's own figures, and for each
statement with hypotheses a state and operands that meet them. -/

namespace Sys2Proof.Tests

set_option Elab.async false

open Sys2Proof.Machine Sys2Proof.Claims

/-! ### Ill-formed terms, one for each check of `Instr.wf` (R12, R19, R23, R258) -/

theorem test_wf_compare_into_m0 : (Instr.vmseqVv 0 1 2 0).wf = false ∧ (Instr.vmseqVv 1 1 2 0).wf = true := by decide +kernel
theorem test_wf_vmand_into_m0 : (Instr.vmand 0 1 2).wf = false ∧ (Instr.vmand 1 0 2).wf = true := by decide +kernel
theorem test_wf_vmerge_without_mask : (Instr.vmerge 1 2 3 0).wf = false ∧ (Instr.vmerge 1 2 3 4).wf = true := by decide +kernel
theorem test_wf_pfence_without_path : (Instr.pfence .core 0 1).wf = false ∧ (Instr.pfence .core 1 0).wf = false ∧ (Instr.pfence .core 1 1).wf = true := by decide +kernel
theorem test_wf_vcvt_code : (Instr.vcvt 1 2 5 0).wf = false ∧ (Instr.vcvt 1 2 0x14 0).wf = true := by decide +kernel
theorem test_wf_vqnt_code : (Instr.vqnt 1 2 7).wf = false ∧ (Instr.vqnt 1 2 8).wf = true := by decide +kernel
theorem test_wf_vdeq_code : (Instr.vdeq 1 2 13).wf = false ∧ (Instr.vdeq 1 2 12).wf = true := by decide +kernel
theorem test_wf_event : (Instr.panelReset).wf = false := by decide +kernel

/-! ### Worked encodings: the spec's own words (R16, R56 to R61, R121, R244, R254 to R267 and the program listings) -/

theorem test_decode_park : decode 0x0000000B = .ok .park := by rfl
theorem test_decode_wake : decode 0x1005800B = .ok (.wake 11) := by rfl
theorem test_decode_wakeR : decode 0x2005000B = .ok (.wakeR 10) := by rfl
theorem test_decode_pfence_core : decode 0x3010800B = .ok (.pfence .core 1 1) := by rfl
theorem test_decode_pfence_panel : decode 0x3443000B = .ok (.pfence .panel 6 4) := by rfl
theorem test_decode_stop : decode 0x4000000B = .ok .stop := by rfl
theorem test_decode_feEmpty : decode 0x0201900B = .ok (.feEmpty (.v 3)) := by rfl
theorem test_decode_feTest : decode 0x1401150B = .ok (.feTest 10 (.acc 2)) := by rfl
theorem test_decode_feWait : decode 0x2005100B = .ok (.feWait (.x 10)) := by rfl
theorem test_decode_csrr : decode 0xC80022F3 = .ok (.csrrs 5 0 0xC80) := by rfl
theorem test_decode_ld : decode 0x00833583 = .ok (.ld 11 6 8) := by rfl
theorem test_decode_andi : decode 0x03F57393 = .ok (.andi 7 10 63) := by rfl
theorem test_decode_srli : decode 0x0242D293 = .ok (.srli 5 5 36) := by rfl
theorem test_decode_lui : decode 0x123455B7 = .ok (.lui 11 0x12345) := by rfl
theorem test_decode_auipc : decode 0x00001517 = .ok (.auipc 10 1) := by rfl
theorem test_decode_addiw : decode 0x6785859B = .ok (.addiw 11 11 0x678) := by rfl
theorem test_decode_amoadd : decode 0x01D3A02F = .ok (.amoaddW 0 7 29 false false) := by rfl
theorem test_decode_lr : decode 0x100E22AF = .ok (.lrW 5 28 false false) := by rfl
theorem test_decode_wrsNto : decode 0x00D00073 = .ok .wrsNto := by rfl
theorem test_decode_branch : decode 0x00054C63 = .ok (.blt 10 0 12) := by rfl
theorem test_decode_dsd : decode 0xE0B5200B = .ok (.dsd 10 11 (some .core)) := by rfl
theorem test_decode_dsv : decode 0xC235200B = .ok (.dsv 10 3 none) := by rfl
theorem test_decode_daddD : decode 0x1CB5300B = .ok (.daddD 10 11 (some .panel)) := by rfl
theorem test_decode_cntSet : decode 0x0255C00B = .ok (.cntSet 37 11) := by rfl
theorem test_decode_cntWait : decode 0x3050450B = .ok (.cntWait 10 5) := by rfl
theorem test_decode_chs : decode 0x0035500B = .ok (.chs 3 10) := by rfl
theorem test_decode_chr : decode 0x2280550B = .ok (.chr 10 40) := by rfl
theorem test_decode_altOn : decode 0x4030510B = .ok (.altOn 2 3) := by rfl
theorem test_decode_altWait : decode 0x6000D50B = .ok (.altWait 10 true false) := by rfl
theorem test_decode_wbarA : decode 0x0600600B = .ok (.wbarA 3) := by rfl
theorem test_decode_grpPut : decode 0x2025E00B = .ok (.grpPut 2 11) := by rfl
theorem test_decode_mma : decode 0x00B5002B = .ok (.mmaFp8 0 10 11 false) := by rfl
theorem test_decode_ceGo : decode 0x0005A52B = .ok (.ceGo 10 11) := by rfl
theorem test_decode_ssave : decode 0x4124C32B = .ok (.ssave 6 9 18) := by rfl
theorem test_decode_sresume : decode 0x2004C32B = .ok (.sresume 6 9) := by rfl
theorem test_decode_vaddVv : decode 0x003100DB = .ok (.vaddVv 1 2 3 0) := by rfl
theorem test_decode_vsaddVx : decode 0x80A312DB = .ok (.vsaddVx 5 6 10 0) := by rfl
theorem test_decode_vfmacc : decode 0x8231225B = .ok (.vfmaccVv 4 2 3 1) := by rfl
theorem test_decode_vmflt : decode 0x5020C15B = .ok (.vmfltVv 2 1 2 0) := by rfl
theorem test_decode_vsllVx : decode 0x305170DB = .ok (.vsllVx 1 2 5 0) := by rfl
theorem test_decode_vcvt : decode 0x0131127B = .ok (.vcvt 4 2 0x13 0) := by rfl
theorem test_decode_vqnt : decode 0x1080937B = .ok (.vqnt 6 1 8) := by rfl
theorem test_decode_vfredsum : decode 0x1001B57B = .ok (.vfredsum 10 3 0) := by rfl
theorem test_decode_vext : decode 0x40B1457B = .ok (.vext 10 2 11) := by rfl
theorem test_decode_vcompress : decode 0x503140FB = .ok (.vcompress 1 2 3) := by rfl
theorem test_decode_vmand : decode 0x003150FB = .ok (.vmand 1 2 3) := by rfl
theorem test_decode_vmerge : decode 0x583150FB = .ok (.vmerge 1 2 3 4) := by rfl
theorem test_decode_vcfg : decode 0x0005E57B = .ok (.vcfg 10 11) := by rfl
theorem test_decode_reserved_v_bit : (decode 0x013100DB).isOk = false := by decide +kernel
theorem test_decode_zero : (decode 0x00000000).isOk = false := by decide +kernel
theorem test_encode_vmerge : encode (.vmerge 1 2 3 4) = 0x583150FB := by decide +kernel
theorem test_table_word : decodeTableWord 32 0x0000000B = some .park := by decide +kernel

/-! ### Single steps, against the spec's own figures -/

/-- The state after an instruction. -/
def after (i : Instr) (s : State) : State :=
  match exec i s with
  | .next t => t
  | _ => s

/-- Slot 1 of core 0, in U-mode, with every register FULL and nothing outstanding. -/
def base : State := { State.quiet with curSlot := 1 }

/-- The same slot in M-mode. -/
def inM : State := base.modMe fun t => { t with mode := .m }

/-- The service slot of core 0, in M-mode. -/
def service : State := State.quiet

/-- R244: `vcfg a0, a1` with a1 = 0x08 gives 0x0000_0000_0080_4008. -/
theorem test_vcfg : (after (.vcfg 10 11) (base.setX 11 8)).x 10 = 0x804008 := by decide +kernel

/-- R244: a reserved bit leaves `wvtype` and sets bit 63. -/
theorem test_vcfg_rejected : (after (.vcfg 10 11) (base.setX 11 0x100)).x 10 = 0x8000000000202002 := by decide +kernel

/-- R265: the example of the pairwise tree. -/
theorem test_vfredsum :
    (after (.vfredsum 10 3 0) (base.setV 3 (BitVec.ofNat 1024 (0x3F800000 + 0x33800000 * 2 ^ 32 + 0x33800000 * 2 ^ (32 * 17))))).x 10 = 0x3F800001 := by
  decide +kernel

/-- R250: the FP32 cases of the table. -/
theorem test_minmax :
    Fmt.minmax .fp32 false 0x3F800000 0x7FC01234 = (0x3F800000, 0) ∧ Fmt.minmax .fp32 true 0x7F800001 0x40000000 = (0x40000000, flagNV) ∧
    Fmt.minmax .fp32 false 0x7FC00000 0x7F800001 = (0x7FC00000, flagNV) ∧ Fmt.minmax .fp32 false 0x80000000 0 = (0x80000000, 0) ∧
    Fmt.minmax .fp32 true 0x80000000 0 = (0, 0) ∧ Fmt.minmax .fp32 true 0xFF800000 0x40400000 = (0x40400000, 0) := by decide +kernel

/-- R16: the wrap of the largest number, and the standard results for a zero divisor and the signed overflow. -/
theorem test_add_wraps : (after (.add 3 1 2) ((base.setX 1 0xFFFFFFFFFFFFFFFF).setX 2 2)).x 3 = 1 := by decide +kernel
theorem test_div_by_zero : (after (.div 3 1 2) (base.setX 1 7)).x 3 = 0xFFFFFFFFFFFFFFFF := by decide +kernel
theorem test_remw_overflow : (after (.remw 3 1 2) ((base.setX 1 0x80000000).setX 2 0xFFFFFFFFFFFFFFFF)).x 3 = 0 := by decide +kernel
theorem test_mulhsu : (after (.mulhsu 3 1 2) ((base.setX 1 0xFFFFFFFFFFFFFFFF).setX 2 2)).x 3 = 0xFFFFFFFFFFFFFFFF := by decide +kernel
theorem test_sraiw : (after (.sraiw 3 1 4) (base.setX 1 0x80000000)).x 3 = 0xFFFFFFFFF8000000 := by decide +kernel
theorem test_x0_discards : (after (.addi 0 1 5) base).x 0 = 0 := by decide +kernel

/-- R9: a taken branch backwards, and a target that is not a multiple of 4. -/
theorem test_branch_back : (after (.beq 1 2 0xFFC) (base.modMe fun t => { t with pc := 0x100 })).me.pc = 0xF8 := by decide +kernel
theorem test_jalr_misaligned : (after (.jalr 1 2 2) base).me.st = .faulted := by decide +kernel

/-- R104, R105: a counter at 3 of 3 polls as 0x0000_0003_0000_0001 (R228's trace), and a sum clamps at zero with OVR. -/
theorem test_cnt_poll : (after (.cntPoll 10 0) (base.modCounter 0 0 fun k => { k with
    value := 3
    target := 3 })).x 10 = 0x300000001 := by decide +kernel
theorem test_cnt_add_clamps : ((after (.cntAdd 0 1) (base.setX 1 0xFFFFFFFF)).counter 0 0).ovr = true := by decide +kernel

/-- R57: a wake from U-mode does not reach the service slot. -/
theorem test_wake_service_from_u : ((after (.wake 1) (base.setX 1 15)).slot 0 15).token = false := by decide +kernel

/-- R342: the service slot's `ecall` with MIE 1 goes to mtvec and saves its pc; with MIE 0 it halts the core. -/
theorem test_ecall_enters : (after .ecall (service.modMe fun t => { t with
    pc := 0x1E0040
    c := { t.c with
      mtvec := 0x1E1000
      mstatus := 8 } })).me.pc = 0x1E1000 := by decide +kernel
theorem test_ecall_halts : (after .ecall service).halted 0 = true := by decide +kernel

/-- R41: the signed minimum of words. -/
theorem test_amomin : AtomicOp.min.apply 4 0xFFFFFFFF 1 % 2 ^ 32 = 0xFFFFFFFF := by decide +kernel

/-- R251: saturation of bytes raises SAT. -/
theorem test_vsadd_saturates :
    let t := after (.vsaddVx 5 6 10 0) (((base.setX 11 0).setX 10 0x7F).setV 6 1 |>.modMe fun t => { t with u := { t.u with wvtype := 0 } })
    field (t.v 5) 0 8 = 0x7F ∧ t.me.u.wvflags = 0x20 := by decide +kernel

/-- R259: an FP32 code beyond 448 saturates in E4M3 and raises OF and NX. -/
theorem test_vcvt_e4m3 : convertCode .fp32 .e4m3 .rne 0x44000000 = (0x7E, flagOF ||| flagNX) := by decide +kernel

/-- R262: exact results of the SFU, and the reciprocal of zero. -/
theorem test_vexp2 : SfuOp.exp2.code .fp32 0x40400000 = (0x41000000, 0) := by decide +kernel
theorem test_vrcp_zero : SfuOp.rcp.code .fp32 0x80000000 = (0xFF800000, flagDZ) := by decide +kernel

/-- R249: a subnormal result is kept; a result rounded to a tie goes to even. -/
theorem test_round_subnormal : Fmt.roundFin .fp16 .rne { n := 1, e := -24 } = (1, 0) := by decide +kernel
theorem test_round_tie : Fmt.roundFin .fp32 .rne { n := 2 ^ 25 + 2, e := 0 } = (0x4C000000, flagNX) := by decide +kernel

/-- R71, R83: a local load starts one row, and its bank grant completes it. -/
theorem test_local_load :
    let s := (inM.setX 1 0x1000).writeSpad 0 0x1000 [0xFE, 0xFF]
    let t := after (.bankGrant 0) { after (.lh 3 1 0) s with cycle := s.cycle + 4 }
    t.x 3 = 0xFFFFFFFFFFFFFFFE ∧ t.me.mem = none := by decide +kernel

/-- R92, R96: a deposit address without its mark traps with cause 7. -/
theorem test_deposit_mark : ((after (.dsd 1 2 none) (inM.setX 1 0x1000)).here.trapq.map fun r => r.cause) = [7] := by decide +kernel

/-- R139: the first offset past the shared pool does not exist. -/
theorem test_hbm_pools : hbmOffsetOk 6 (6 * 2 ^ 37 - 1) = true ∧ hbmOffsetOk 6 (6 * 2 ^ 37) = false ∧ hbmOffsetOk 6 (2 ^ 41) = true := by decide +kernel

/-- R417: the first thing due after reset is slot 15 of core 0, at the first byte of the core image. -/
theorem test_reset : (State.reset.agenda.head?.map fun d => (d.cycle, d.act)) = some (15, .issue 0 15) ∧ (State.reset.slot 0 15).pc = 0x1E0000 := by
  decide +kernel

/-! ### Witnesses: for each statement, and each clause of it, a state and operands that meet its hypotheses together -/

/-- `base` with an x register in a full/empty state. -/
def marked (r : BitVec 5) (g : RegSt) : State := base.modMe fun t => t.markX r g
def empty : RegSt := { fe := .empty, prod := none }
def poisoned : RegSt := { fe := .poisoned, prod := none }
def awaited : RegSt := { fe := .full, prod := some .sfu }

theorem test_witness_IntegerInstructionResults : base.Running ∧ base.Full (.x 1) ∧ base.Full (.x 31) ∧ base.Free (.x 0) ∧ base.Free (.x 31) := by
  decide +kernel

theorem test_witness_SourceStatesAreTested :
    ((marked 1 poisoned).me.xState 1).fe = .poisoned ∧
    (((marked 2 poisoned).me.xState 1).fe ≠ .poisoned ∧ ((marked 2 poisoned).me.xState 2).fe = .poisoned) ∧
    (let s := (marked 1 empty).modMe fun t => { t with u := { t.u with wfetrap := 2 } };
      (s.me.xState 1).fe = .empty ∧ (s.me.xState 2).fe ≠ .poisoned ∧ s.me.u.wfetrap.getLsbD 1 = true) ∧
    (let s := (marked 31 empty).modMe fun t => { t with u := { t.u with wfetrap := 0x80000000 } };
      (s.me.xState 1).fe = .full ∧ (s.me.xState 31).fe = .empty ∧ s.me.u.wfetrap.getLsbD 31 = true) ∧
    (((marked 1 empty).me.xState 1).fe = .empty ∧ (marked 1 empty).me.u.wfetrap.getLsbD 1 = false ∧ ((marked 1 empty).me.xState 2).fe = .full) ∧
    (((marked 2 empty).me.xState 1).fe = .full ∧ ((marked 2 empty).me.xState 2).fe = .empty ∧ (marked 2 empty).me.u.wfetrap.getLsbD 2 = false) ∧
    (let s := (marked 1 empty).modMe fun t => t.markX 2 empty;
      (s.me.xState 1).fe = .empty ∧ (s.me.xState 2).fe = .empty ∧ s.me.u.wfetrap.getLsbD 1 = false ∧ s.me.u.wfetrap.getLsbD 2 = false) ∧
    (((marked 3 awaited).me.xState 1).fe = .full ∧ ¬ (marked 3 awaited).Free (.x 3)) := by decide +kernel

theorem test_witness_BranchAndJumpResults :
    base.Running ∧ base.Full (.x 1) ∧ base.Full (.x 2) ∧ base.Free (.x 1) ∧
    ((base.x 1 == base.x 2) = true ∧ (base.me.pc + ((0x804 : BitVec 12) ++ 0#1).signExtend 64).toNat % 4 = 0) ∧
    ((base.x 1 != base.x 2) = false) ∧ (base.me.pc + ((0x801 : BitVec 12) ++ 0#1).signExtend 64).toNat % 4 ≠ 0 ∧
    (base.me.pc + ((0x80000 : BitVec 20) ++ 0#1).signExtend 64).toNat % 4 = 0 ∧ (base.me.pc + ((1 : BitVec 20) ++ 0#1).signExtend 64).toNat % 4 ≠ 0 ∧
    ((base.x 1 + (0x7FD : BitVec 12).signExtend 64) &&& ~~~(1#64)).toNat % 4 = 0 ∧ ((base.x 1 + (2 : BitVec 12).signExtend 64) &&& ~~~(1#64)).toNat % 4 ≠ 0 := by
  decide +kernel

/-- The service slot in a mode, with a status and delegations. -/
def serviceIn (mode : Mode) (status deleg : Word) : State :=
  service.modMe fun t => { t with
    mode := mode
    c := { t.c with
      mstatus := status
      medeleg := deleg } }

theorem test_witness_TrapsOfEverySlot :
    base.curSlot < 15 ∧
    (let s := serviceIn .s 2 (2 ^ 9);
      s.curSlot = 15 ∧ s.me.mode = .s ∧ s.me.c.medeleg.getLsbD (callCause s.me.mode) = true ∧ s.me.c.mstatus.getLsbD 1 = true) ∧
    (let s := serviceIn .s 8 0;
      s.curSlot = 15 ∧ ¬ (s.me.mode = .s ∧ s.me.c.medeleg.getLsbD 3 = true ∧ s.me.c.mstatus.getLsbD 1 = true) ∧ s.me.c.mstatus.getLsbD 3 = true) ∧
    (service.curSlot = 15 ∧ service.me.mode = .m ∧ service.me.c.mstatus.getLsbD 3 = false) ∧ (after .ecall service).halted 0 = true ∧
    (∀ m ∈ [Mode.u, .s, .m], (serviceIn m 0 0).curSlot = 15 ∧ (serviceIn m 0 0).me.mode = m ∧ (serviceIn m 0 0).me.c.mstatus.getLsbD 3 = false ∧
      (after (.illegalInstruction 0) (serviceIn m 0 0)).halted 0 = true) := by decide +kernel

theorem test_witness_TrapReturns :
    (inM.Running ∧ inM.me.mode = .m) ∧ ((serviceIn .s 0 0).me.mode = .s ∧ (serviceIn .s 0 0).me.c.mstatus.getLsbD 22 = false) ∧ base.me.mode ≠ .m ∧
    base.me.mode = .u ∧ ((serviceIn .s 0x400000 0).me.mode = .s ∧ (serviceIn .s 0x400000 0).me.c.mstatus.getLsbD 22 = true) := by decide +kernel

theorem test_witness_CsrInstructionResults :
    (inM.Running ∧ inM.Free (.x 1) ∧ inM.Full (.x 2) ∧ (0x340 : BitVec 12).toNat ∉ sharedCsrs ∧ csrAllowed inM 0x340 true ∧ csrAllowed inM 0xF11 false) ∧
    (¬ csrAllowed base 0x340 true ∧ ¬ csrAllowed base 0x340 false ∧ ¬ csrAllowed inM 0xF11 true ∧ ¬ csrAllowed inM 0x301 true ∧ csrAllowed inM 0x301 false ∧ (2 : BitVec 5) ≠ 0) := by
  unfold csrAllowed
  repeat' apply And.intro
  all_goals decide +kernel

theorem test_witness_CsrWritesStoreTheirFields : inM.Running ∧ storedFields.length = 26 := by decide +kernel

/-- `base` with an access of the slot outstanding. -/
def accessing (p : Path) (sc : Scope) : State := base.modMe fun t => { t with accs := [{ id := 7, path := p, scope := sc, write := true }] }

theorem test_witness_FencesCollectEarlierAccesses :
    base.Running ∧ base.me.fence = none ∧ (accessing .glb .panel).me.accs ≠ [] ∧ (accessing .glb .panel).me.fence = none ∧
    (base.modMe fun t => { t with fence := some { awaited := [7], succ := 3, scope := .domain } }).me.fence ≠ none := by decide +kernel

theorem test_witness_StopEndsTheProcess :
    service.curSlot = 15 ∧ base.curSlot < 15 ∧ (∃ a ∈ (accessing .glb .panel).me.accs, a.path = .glb) ∧
    (base.me.fence.isSome = false ∧ base.me.accs = [] ∧ base.here.tq = [] ∧ base.here.trun = none ∧ base.here.drains = []) := by decide +kernel

/-- `base` owning accumulator 7. -/
def owning : State := base.modHere fun k => k.modAcc 7 fun a => { a with owner := some 1 }

theorem test_witness_FullEmptyInstructions :
    base.Running ∧ base.Free (.x 31) ∧ ¬ (marked 3 awaited).Free (.x 3) ∧ ((marked 1 empty).regState (.x 1)).fe = .empty ∧
    (base.regState (.v 15)).fe ≠ .empty ∧ (owning.here.getAcc 7).owner = some owning.curSlot ∧ (base.here.getAcc 7).owner ≠ some base.curSlot := by
  decide +kernel

/-- Another slot of the issuing core as given. -/
def other (n : Nat) (f : Slot → Slot) : State := inM.modSlot 0 n f

/-- A list of a slot of core 0. -/
def list (slot : Nat) : GList :=
  { lid := 0xFFFF, slot := slot, mode := .m, wasid := BitVec.ofNat 64 (9 * 2 ^ 60 + 3 * 2 ^ 44), wlocwin := 0, access := 7, next := 0x1000, index := 0, reading := false,
    pending := none, inFlight := [], done := 5, ended := false, aborted := false, failed := none }

/-- An entry of a list. -/
def work (op len : Nat) : Entry :=
  { index := 2, op := op, cnt := some 63, wait := false, mod := false, len := len, src := 0x100, dst := 0x23F, aux := 0x0807060504030201, aux2 := 0, access := 7,
    pages := [], wants := [], ranges := [], bad := false, pre := [], pos := 0, parts := [], carry := [], toRead := [], toWrite := [], reading := false, writing := false, sent := 0,
    left := 0, finished := false, dead := false }

/-- A fault record. -/
def faultRec : FaultRec := { source := 0, cause := 13, pid := 0, sid := 0, asid := 0, kind := 0, va := 0 }

theorem test_witness_ParkWakeAndReservationWaits :
    base.Running ∧ base.Full (.x 1) ∧ base.me.token = false ∧ (base.modMe fun t => { t with token := true }).me.token = true ∧
    (base.me.mode = .u ∧ ((base.setX 1 15).x 1).toNat % 16 = 15) ∧ ((base.setX 1 2).slot 0 2).pid = none ∧
    (let s := base.modMe fun t => { t with
        st := .ready
        pid := some 3 };
      (((s.setX 1 1).x 1).toNat % 16 = s.curSlot ∧ s.me.st = .ready ∧ s.me.pid ≠ none)) ∧
    (let s := other 14 fun t => { t with
        st := .parked
        pid := some 3 };
      (s.slot 0 14).st = .parked ∧ (s.slot 0 14).hold = false ∧ (s.slot 0 14).pid ≠ none ∧ 14 ≠ s.curSlot) ∧
    (let s := other 0 fun t => { t with
        st := .page
        pid := some 3 };
      (s.slot 0 0).st = .page ∧ (s.slot 0 0).hold = false ∧ (s.slot 0 0).pendFault = none) ∧
    (let s := other 0 fun t => { t with
        st := .page
        pid := some 3
        pendFault := some faultRec };
      (s.slot 0 0).st = .page ∧ (s.slot 0 0).hold = false ∧ (s.slot 0 0).pendFault ≠ none) ∧
    (∀ st ∈ [SlotSt.parked, .page, .blocked], let s := other 0 fun t => { t with
        st := st
        pid := some 3
        hold := true };
      (s.slot 0 0).st = st ∧ (s.slot 0 0).hold = true ∧ (s.slot 0 0).pid ≠ none) ∧
    base.me.resv = none ∧ (base.modMe fun t => { t with resv := some { block := 0, addr := 0, size := 4 } }).me.resv ≠ none ∧
    (let s := other 2 fun t => { t with wait := some { kind := .wrsSto, since := 0, serial := 5 } };
      ∃ w, (s.slot 0 2).wait = some w ∧ (s.slot 0 2).hold = false ∧ w.kind = .wrsSto ∧ 2 < 16) := by
  refine ⟨?_, ?_, ?_, ?_, ?_, ?_, ?_, ?_, ?_, ?_, ?_, ?_, ?_, ⟨_, rfl, ?_⟩⟩ <;> decide +kernel

theorem test_witness_ReservationWaitsRunOut :
    ∀ k ∈ [WaitKind.wrsNto, .wrsSto], let w : Wait := { kind := k, since := 0, serial := 5 };
      let s := { base with cycle := 1024 }.modMe fun t => { t with
        resv := some { block := 0, addr := 0, size := 4 }
        wait := some w
        u := { t.u with wtmo := 1024 } };
      base.me.wait = none ∧ s.Running ∧ s.me.resv ≠ none ∧ s.me.wait = some w ∧ s.me.hold = false ∧ s.agenda = [] ∧ w.since + 1024 ≤ s.cycle ∧ s.me.limit = 1024 ∧
        ¬ w.since + 1024 ≤ { s with cycle := 1023 }.cycle ∧ base.me.limit = 0 := by decide +kernel

theorem test_witness_SlotControlInstructions :
    base.me.mode = .u ∧ (inM.me.mode ≠ .u ∧ inM.Full (.x 1) ∧ inM.Full (.x 2) ∧ inM.Free (.x 3) ∧ inM.Running ∧ inM.me.st ≠ .parked) ∧
    ((inM.setX 1 15).x 1).toNat % 16 = 15 ∧ ((inM.setX 1 1).x 1).toNat % 16 = inM.curSlot ∧ (inM.slot 0 14).st = .stopped ∧
    ((other 14 fun t => { t with st := .ready }).slot 0 14).st ≠ .stopped ∧ ((other 14 fun t => { t with st := .ready }).slot 0 14).hold = false ∧
    ((other 14 fun t => { t with st := .faulted }).slot 0 14).st = .faulted ∧
    (((inM.setX 2 0x1FF001).x 2).toNat % 64 ≠ 0 ∧ 0x200000 < ((inM.setX 2 0x1FF001).x 2).toNat + 4096) ∧
    (let s := other 14 fun t => { t with
        st := .ready
        hold := true };
      (s.slot 0 14).hold = true ∧ (s.slot 0 14).pendTrap = none ∧ (s.slot 0 14).pendFault = none) ∧
    (let s := other 14 fun t => { t with
        st := .page
        hold := true
        leaving := true };
      (s.slot 0 14).hold = true ∧ (s.slot 0 14).st = .page ∧ (s.slot 0 14).leaving = true ∧ (s.slot 0 14).pendTrap = none ∧ (s.slot 0 14).pendFault = none) ∧
    (∀ st ∈ [SlotSt.parked, .page], ∀ token ∈ [false, true], let s := other 14 fun t => { t with
        st := st
        hold := true
        token := token };
      (s.slot 0 14).hold = true ∧ (s.slot 0 14).st = st ∧ (s.slot 0 14).token = token) := by decide +kernel

theorem test_witness_SaveAndLoadMoveSixtyFourRows :
    let s := ((other 14 fun t => { t with
        st := .ready
        hold := true }).setX 1 14).setX 2 0x1DF000
    s.Running ∧ s.me.mode ≠ .u ∧ s.Full (.x 1) ∧ s.Full (.x 2) ∧ s.Free (.x 3) ∧ s.Unheld ∧ (s.x 1).toNat % 16 = 14 ∧
    14 ≠ s.curSlot ∧ (s.slot 0 14).st ≠ .stopped ∧ (s.slot 0 14).hold = true ∧ (s.x 2).toNat % 64 = 0 ∧ (s.x 2).toNat + 4096 ≤ 0x1E0000 ∧
    s.saveWaits 0 14 = false ∧ s.me.mode = .m ∧ (∀ l ∈ s.here.gl.lists, ∀ e ∈ l.inFlight, ∀ r ∈ e.ranges, r.1 + r.2 ≤ 0x1DF000 ∨ 0x1E0000 ≤ r.1) ∧
    (let w := BitVec.ofNat 64 (2 ^ 30 + 2 ^ 29 + 479 * 2 ^ 16);
      let u := s.modMe fun t => { t with
        mode := .s
        u := { t.u with wlocwin := w } };
      u.me.mode = .s ∧ ∀ p ∈ [30, 29], ∀ page ∈ [0x1DF000 / 4096, 0x1DFFFF / 4096],
        field w 0 9 ≤ page ∧ page ≤ field w 16 9 ∧ u.me.u.wlocwin.getLsbD p = true) ∧
    (s.modSlot 0 14 fun t => { t with fence := some { awaited := [7], succ := 3, scope := .domain } }).saveWaits 0 14 = true ∧
    (let u := s.modHere fun k => { k with gl := { k.gl with lists := [{ list 2 with inFlight := [{ work 0 64 with ranges := [(0x1DF040, 64)] }] }] } };
      ∃ l ∈ u.here.gl.lists, ∃ e ∈ l.inFlight, ∃ r ∈ e.ranges, ¬ (r.1 + r.2 ≤ 0x1DF000 ∨ 0x1E0000 ≤ r.1)) := by
  repeat' apply And.intro
  all_goals decide +kernel

/-- `base` with a counter as given. -/
def counting (n : Nat) (k : Counter) : State := base.modCounter 0 n fun _ => k

theorem test_witness_CounterInstructionsAndWaits :
    (base.Running ∧ base.Full (.x 1) ∧ base.Free (.x 3)) ∧ ((counting 63 { Counter.reset with ovr := true }).counter 0 63).ovr = true ∧
    ((base.counter 0 63).ovr = false ∧ (base.counter 0 63).target.toNat ≤ (base.counter 0 63).value.toNat) ∧
    (let k := (counting 63 { Counter.reset with target := 1 }).counter 0 63;
      k.ovr = false ∧ ¬ (k.target.toNat ≤ k.value.toNat) ∧ k.loss = false ∧ k.cancel = false) ∧
    (let s := other 2 fun t => { t with wait := some { kind := .cntWait 3 63, since := 0, serial := 5 } };
      (s.slot 0 2).wait = some { kind := .cntWait 3 63, since := 0, serial := 5 } ∧ (s.slot 0 2).hold = false ∧
      (s.slot 0 2).u.wtmo.getLsbD 63 = false) := by decide +kernel

/-- A wire context of cores 0 and 1, of which core 1 has arrived. -/
def context : WireCtx := { ticket := 1, context := 7, phase := 255, members := [0, 1], arrived := [1], completed := some 254 }

/-- `base` on core 0 bound to it through its context 7. -/
def wiredBase : State := (base.modHere fun k => { k with wire := [(7, 0)] }).modDie 0 fun d => { d with wires := [(0, context)] }

theorem test_witness_WireBarrierPhases :
    (wiredBase.Running ∧ wiredBase.Free (.x 3) ∧ wired wiredBase wiredBase.curCore (7 : BitVec 3).toNat 0 context) ∧
    (KMap.get wiredBase.here.wireArr 7 ≠ some context.phase ∧ (KMap.get wiredBase.here.wireArr 7).getD 0 ≠ context.phase) ∧
    (let s := wiredBase.modHere fun k => { k with wireArr := [(7, 255)] };
      KMap.get s.here.wireArr 7 = some context.phase ∧ wired s 0 7 0 context) ∧
    KMap.get base.here.wire 0 = none ∧
    (let s := wiredBase.modSlot 0 2 fun t => { t with wbar := [(7, 255, [])] };
      wired s 0 7 0 context ∧ 0 ∈ context.members ∧ 0 ∉ context.arrived ∧ (s.slot 0 2).wbar = [(7, 255, [])] ∧
      ∀ m ∈ context.members, m = 0 ∨ m ∈ context.arrived) ∧
    KMap.get (wiredBase.die 0).wires 0 = some context := by
  unfold wired; decide +kernel

theorem test_witness_GroupHandlesAreKept :
    base.Running ∧ (inM.Full (.x 1) ∧ inM.me.mode ≠ .u ∧ ((inM.setX 1 (1#64 <<< 63)).x 1).getLsbD 63 = true) ∧
    (base.Full (.x 1) ∧ base.me.mode = .u ∧ base.here.ticket = none) ∧ ((inM.x 1).getLsbD 63 = false ∧ inM.here.ticket = none) ∧ base.Free (.x 3) := by
  decide +kernel

/-- An endpoint between slot 1 and slot 2 of core 0. -/
def endOf (sending : Bool) (owner peer : Nat) : Endpoint :=
  { sending := sending, owner := owner, peerCore := 0, peerSlot := 3 - owner, peerEp := peer, peerPid := 2, scope := .core, broken := false,
    offer := none, recvOut := none, recvRec := none, sendPending := false, withdrawing := false, victim := none, ackKept := none, kept := none }

/-- `base` with a sending end 255 of slot 1 and the receiving end 9 of slot 2. -/
def sender (p : Endpoint) : State := base.modHere fun k => { k with eps := [(9, p), (255, endOf true 1 9)] }

/-- `base` with a receiving end 255 of slot 1 and the sending end 9 of slot 2. -/
def receiver (e : Endpoint) : State := base.modHere fun k => { k with eps := [(9, endOf true 2 255), (255, e)] }

theorem test_witness_SendsAndReceivesMeet :
    (let s := (sender { endOf false 2 255 with recvOut := some false }).modSlot 0 2 fun t =>
        { (t.markX 31 { fe := .empty, prod := some (.receive 9) }) with recvs := [{ ch := 9, dst := .x 31, scope := .core, serial := 1, timed := true }] };
      s.Running ∧ s.me.wait = none ∧ s.endpoint 0 255 = some (endOf true 1 9) ∧ (s.endpoint 0 9).map (·.recvOut) = some (some false) ∧
      (s.slot 0 2).recvs.map (·.ch) = [9] ∧ ((s.slot 0 2).xState 31).prod = some (.receive 9) ∧ s.Full (.x 1) ∧ s.Full (.v 15) ∧ s.me.accs = []) ∧
    (let s := sender (endOf false 2 255);
      (s.endpoint 0 9).map (·.recvOut) = some none ∧ s.endpoint 0 255 = some (endOf true 1 9) ∧ s.Full (.x 1)) ∧
    (let s := receiver (endOf false 1 9);
      s.Running ∧ s.Free (.x 31) ∧ s.Free (.v 15) ∧ s.me.recvs = [] ∧ s.endpoint 0 255 = some (endOf false 1 9) ∧ s.endpoint 0 9 = some (endOf true 2 255)) ∧
    ((receiver { endOf false 1 9 with offer := some { vec := false, value := 5, pid := 2 } }).endpoint 0 255).map (fun e => e.offer.map (·.vec)) = some (some false) ∧
    ((receiver { endOf false 1 9 with offer := some { vec := true, value := 5, pid := 2 } }).endpoint 0 255).map (fun e => e.offer.map (·.vec)) = some (some true) ∧
    ((receiver { endOf false 1 9 with broken := true }).endpoint 0 255).map (·.broken) = some true := by
  repeat' apply And.intro
  all_goals decide +kernel

theorem test_witness_EndpointsAndAltWait :
    (base.endpoint 0 255 = none ∧ base.me.wait = none ∧ base.Full (.x 1) ∧ base.Full (.v 1)) ∧
    (let s := receiver (endOf false 1 9);
      s.Running ∧ s.Free (.x 3) ∧ s.endpoint 0 255 = some (endOf false 1 9) ∧ (endOf false 1 9).owner = s.curSlot ∧ (endOf false 1 9).sending = false) ∧
    (∀ k < 8, vecGet base.me.alt ((field base.me.u.wchst 16 3 + k) % 8) none = none) ∧
    (let s := (receiver { endOf false 1 9 with broken := true }).modMe fun t => { t with alt := vecSet t.alt 7 (some 255) };
      vecGet s.me.alt ((field s.me.u.wchst 16 3 + 7) % 8) none = some 255 ∧ ((s.endpoint 0 255).map (·.broken)) = some true ∧
      ∀ j < 7, vecGet s.me.alt ((field s.me.u.wchst 16 3 + j) % 8) none = none) ∧
    (let s := (receiver (endOf false 1 9)).modMe fun t => { t with alt := vecSet t.alt 7 (some 255) };
      vecGet s.me.alt 7 none ≠ none ∧ (s.endpoint 0 255).map (fun e => (e.offer.isSome, e.broken)) = some (false, false) ∧ s.me.st ≠ .blocked) ∧
    (base.modMe fun t => { t with st := .blocked }).me.st = .blocked := by
  repeat' apply And.intro
  all_goals decide +kernel

/-- A deposit of eight bytes of slot 1 of core 0 to a core. -/
def depositTo (target : Nat) : Dep :=
  { kind := .store, core := 0, slot := 1, counted := true, addr := 0, target := target, targetSlot := 0, off := 0x1DFFF8, size := 8, data := 0xFF, cnt := some 63,
    asid := 0, global := false, acc := 7, rel := none, awaited := [], ready := 0, deadline := 0, written := [] }

/-- A deposit address of core 511 of die 0 at offset 0x1000, without and with counter 63. -/
def someDa : Word := BitVec.ofNat 64 (13 * 2 ^ 60 + 31 * 2 ^ 41 + 15 * 2 ^ 37 + 0x1000)
def countedDa : Word := someDa ||| BitVec.ofNat 64 (63 * 2 ^ 27 + 2 ^ 26)

theorem test_witness_DepositsAreCheckedAndEnqueued :
    (let s := inM.setX 1 someDa;
      s.Running ∧ s.Full (.x 1) ∧ s.Unheld ∧ s.Full (.x 2) ∧ s.Full (.v 15) ∧ s.here.outbound < 32 ∧
      (∀ p ∈ depositStores, (s.here.checkDa s.panel s.me.mode (s.x 1) p.2).toOption = some (s.panel, 511)) ∧
      (s.here.checkDa s.panel s.me.mode (s.x 1) 64).toOption = some (s.panel, 511) ∧
      (∀ p ∈ postedAtomics, (s.here.checkDa s.panel s.me.mode (s.x 1) p.2.2).toOption = some (s.panel, 511)) ∧ field (s.x 1) 60 4 = 13) ∧
    ((inM.here.checkDa inM.panel inM.me.mode countedDa 8).toOption = some (inM.panel, 511)) ∧
    (let s := inM.modHere fun k => { k with outq := (List.range 32).map fun n => (n, depositTo 1) };
      32 ≤ s.here.outbound) ∧
    (let s := inM.modHere fun k => { k with
        outq := (List.range 31).map fun n => (n, depositTo 1)
        drains := [{ id := 3, slot := 1, acc := 0, left := 1, rows := [depositTo 1], amax := none }] };
      32 ≤ s.here.outbound) ∧
    ((base.setX 1 someDa).here.ticket = none ∧ (base.modHere fun k => { k with ticket := some 1 }).here.ticket ≠ none ∧ 0 + 1 ≤ field (someDa ||| 0x400000000000#64) 46 8) ∧
    (field (0x1000 : Word) 60 4 ≠ 13) ∧ (field (someDa + 1) 0 21 % 8 ≠ 0) ∧
    ((base.setX 1 someDa).me.mode = .u ∧ (base.setX 1 someDa).here.wsheaf = 0 ∧ field someDa 0 21 % 8 = 0) ∧
    (inM.me.mode ≠ .u ∧ 31 < field (someDa ||| BitVec.ofNat 64 (32 * 2 ^ 46)) 46 8) ∧
    (let a : Word := BitVec.ofNat 64 (2 ^ 48);
      inM.me.mode = .m ∧ inM.me.c.mstatus.getLsbD 17 = false ∧ field a 48 16 = 1 ∧ field a 42 6 = inM.panel ∧ a.toNat % 8 = 0 ∧
      hbmOffsetOk inM.hshare (field a 0 42) = true) ∧
    (inM.x 1).toNat < 0x1E0000 ∧
    (let da : Word := BitVec.ofNat 64 (13 * 2 ^ 60 + 14 * 2 ^ 33);
      field da 60 4 = 13 ∧ field da 54 6 = 0 ∧ field da 0 33 = 0 ∧ (inM.here.daTarget inM.panel inM.me.mode da).toOption = some (inM.panel, 0) ∧
      field da 33 4 ≠ 15) := by
  repeat' apply And.intro
  all_goals decide +kernel

/-- `base` with a message numbered 5 on its way to a core. -/
def flying (dst : Nat) (b : Body) : State :=
  { base with net := [(5, { net := .dep, src := 0, dst := dst, body := b, generation := 0, crossed := 0, due := 0, eject := 0, route := [] })] }

/-- An inbound window over everything below the service region, for every counter and address space 0. -/
def window : Word := BitVec.ofNat 64 (0x7800 * 2 ^ 21 + 63 * 2 ^ 44 + 2 ^ 63)

/-- A state whose core 1 has that window as its window 7. -/
def opened (s : State) : State := s.modCore 1 fun k => { k with win := vecSet k.win 7 window }

/-- Open as core 1, with a deposit for its last eight bytes on its way there. -/
def landing (d : Dep) : State := opened (flying 1 (.dep d))

theorem carries_of {s : State} {c : Nat} {d : Dep}
    (h : s.net = [(5, { net := .dep, src := 0, dst := c, body := .dep d, generation := 0, crossed := 0, due := 0, eject := 0, route := [] })]) : carries s 5 c d :=
  ⟨{ net := .dep, src := 0, dst := c, body := .dep d, generation := 0, crossed := 0, due := 0, eject := 0, route := [] }, by rw [h]; rfl, rfl, rfl⟩

theorem landing_carries (d : Dep) : carries (landing d) 5 1 d := carries_of rfl

theorem window_admits : admits ((landing (depositTo 1)).core 1) (depositTo 1) :=
  ⟨window, by decide +kernel, by decide +kernel, by decide +kernel, by decide +kernel, fun n h => by
    obtain rfl : 63 = n := Option.some.inj h
    decide +kernel⟩

/-- A global request of slot 15 of core 0, access 7. -/
def request (op : ReqOp) (dst : Option RegRef) (posted : Option Bool) (poison : Bool) : Req :=
  { core := 0, slot := 15, acc := 7, op := op, addr := 2 ^ 48, dst := dst, posted := posted, issued := 0, deadline := 7, reached := some 7, performed := true, poison := poison,
    value := 9, bytes := [], arrived := false }

theorem uncovered (l : List Word) (off size : Nat) (h : (l.all fun w => !winCovers w off size) = true) : ∀ w ∈ l, winCovers w off size = false :=
  fun w hw => by simpa using List.all_eq_true.mp h w hw

theorem test_witness_LandingsWriteOrAreRefused :
    (let s := base.modCore 0 fun k => { k with outq := [(5, depositTo 16383)] };
      (s.core 0).outq = [(5, depositTo 16383)] ∧ (s.core 0).drains = [] ∧ (depositTo 16383).awaited = [] ∧ (depositTo 16383).global = false ∧ (depositTo 16383).target < 16384) ∧
    (carries (landing (depositTo 1)) 5 1 (depositTo 1) ∧ admits ((landing (depositTo 1)).core 1) (depositTo 1) ∧ (depositTo 1).written = [] ∧
      ((landing (depositTo 1)).core 1).waitingRows 5 = []) ∧
    (let s := (landing (depositTo 1)).modCore 1 fun k => { k with bank := [{ cls := .inbound, bank := 31, first := 0, act := .landing 5 30719 }] };
      carries s 5 1 (depositTo 1) ∧ 30719 ∈ (s.core 1).waitingRows 5) ∧
    (let d := { depositTo 1 with kind := .atomic .add };
      carries (landing d) 5 1 d ∧ d.kind = .atomic .add ∧ ((landing d).core 1).poisoned d.off d.size = false) ∧
    (carries (flying 1 (.dep (depositTo 1))) 5 1 (depositTo 1) ∧
      (∀ w ∈ ((flying 1 (.dep (depositTo 1))).core 1).win.toList, winCovers w (depositTo 1).off (depositTo 1).size = false) ∧
      ((flying 1 (.dep (depositTo 1))).die 0).chaff.full 256 = false) ∧
    (let d := { depositTo 1 with
        kind := .wake
        targetSlot := 15 };
      let s := (landing d).modSlot 1 15 fun t => { t with st := .ready };
      carries s 5 1 d ∧ d.targetSlot < 16 ∧ (s.slot 1 15).st = .ready) ∧
    (let d := { depositTo 1 with
        kind := .wake
        targetSlot := 14 };
      carries (landing d) 5 1 d ∧ d.targetSlot ≠ 15 ∧ ((landing d).slot 1 14).pid = none) ∧
    (let s := flying 1 (.raise 63 8 true);
      KMap.get s.net 5 = some { net := .dep, src := 0, dst := 1, body := .raise 63 8 true, generation := 0, crossed := 0, due := 0, eject := 0, route := [] } ∧ s.sow.mailbox = []) ∧
    (let s := flying 0 (.receipt 15 7 true .store);
      KMap.get s.net 5 = some { net := .dep, src := 0, dst := 0, body := .receipt 15 7 true .store, generation := 0, crossed := 0, due := 0, eject := 0, route := [] } ∧ s.reqs = []) ∧
    (let d := { depositTo 0 with
        kind := .atomic .maxu
        global := true
        slot := 15
        off := 2 ^ 48 };
      let r := request (.amo 8 .maxu 0xFF) none (some true) false;
      let s := { flying 0 (.dep d) with reqs := [(9, r)] };
      carries s 5 0 d ∧ s.reqs = [(9, r)] ∧ r.core = d.core ∧ r.slot = d.slot ∧ r.acc = d.acc ∧ r.posted.isSome ∧ (∀ q ∈ (s.core d.core).outq, q.2.global = false) ∧ (∀ n, r.reached = some n → n ≤ r.deadline) ∧
        s.memPoisoned d.off d.size = false) := by
  refine ⟨by decide +kernel, ⟨landing_carries _, window_admits, rfl, by decide +kernel⟩, ⟨carries_of rfl, by decide +kernel⟩,
    ⟨landing_carries _, rfl, by decide +kernel⟩,
    ⟨carries_of rfl, uncovered _ _ _ (by decide +kernel), by decide +kernel⟩, ⟨carries_of rfl, by decide +kernel, by decide +kernel⟩,
    ⟨landing_carries _, by decide +kernel, by decide +kernel⟩, by decide +kernel, by decide +kernel, ⟨carries_of rfl, by decide +kernel⟩⟩

theorem test_witness_AddressTraps :
    (base.Full (.x 1) ∧ base.Full (.x 2) ∧ base.Free (.x 3)) ∧ (∀ p ∈ loads, p.2.1 ≠ 1 → ((base.setX 1 1).x 1).toNat % p.2.1 ≠ 0) ∧
    (∀ p ∈ stores, p.2 ≠ 1 → ((base.setX 1 1).x 1).toNat % p.2 ≠ 0) ∧ (∀ p ∈ amos, ((base.setX 1 2).x 1).toNat % p.2.2 ≠ 0) ∧
    (∀ n ∈ [4, 8], ((base.setX 1 0x200000).x 1).toNat % n = 0 ∧ 0x200000 ≤ ((base.setX 1 0x200000).x 1).toNat) ∧
    (let s := base.setX 1 0x1FFFF8;
      s.curSlot ≠ 15 ∧ 0x1E0000 ≤ (s.x 1).toNat ∧ (s.x 1).toNat < 0x200000 ∧ ∀ p ∈ loads, (s.x 1).toNat % p.2.1 = 0) := by
  repeat' apply And.intro
  all_goals decide +kernel

/-- Core 0 whose slot 15 alone has a local access, of one row, due now. -/
def granting (op : LocalOp) : State :=
  (base.modSlot 0 15 fun t => { t with mem := some { op := op, addr := 0x1DFFF8, rows := [30719], data := 0, poison := false } }).modHere fun k =>
    { k with bank := [{ cls := .slot, bank := 31, first := 0, act := .slotRow 15 30719 }] }

theorem granting_alone (op : LocalOp) : Alone (granting op) 0 15 { op := op, addr := 0x1DFFF8, rows := [30719], data := 0, poison := false } :=
  ⟨by decide, ⟨30719, rfl, rfl⟩, rfl, rfl, fun j h => by rw [show (granting op).mmaComing 0 = none from rfl] at h; exact nomatch h⟩

theorem test_witness_BankGrantsPerformAccesses :
    (∀ op ∈ [LocalOp.load 8 false 31, .store 8 5, .lr 8 0, .sc 8 5 31, .amo 8 .swap 5 31],
      Alone (granting op) 0 15 { op := op, addr := 0x1DFFF8, rows := [30719], data := 0, poison := false } ∧ scalar op = true ∧
      ((granting op).core 0).spadPoison = []) ∧
    (let s := (granting (.sc 8 5 31)).modSlot 0 15 fun t => { t with resv := some { block := 0x1DFFC0, addr := 0x1DFFF8, size := 8 } };
      Alone s 0 15 { op := .sc 8 5 31, addr := 0x1DFFF8, rows := [30719], data := 0, poison := false } ∧ (s.slot 0 15).resv ≠ none) := by
  refine ⟨?_, ⟨by decide, ⟨30719, rfl, rfl⟩, rfl, rfl, fun j h => nomatch (show State.mmaComing _ 0 = none by rfl).symm.trans h⟩, by decide +kernel⟩
  intro op h
  refine ⟨granting_alone op, ?_, rfl⟩
  simp only [List.mem_cons, List.not_mem_nil, or_false] at h
  rcases h with rfl | rfl | rfl | rfl | rfl <;> rfl

/-- The last eight bytes of the first page of HBM. -/
def hbmWord : Word := BitVec.ofNat 64 (2 ^ 48 + 0xFF8)

theorem test_witness_GlobalAccessesArePostedAndPerformed :
    (let s := inM.setX 1 hbmWord;
      s.Running ∧ s.me.mode = .m ∧ s.me.c.mstatus.getLsbD 17 = false ∧ s.Full (.x 1) ∧ s.Full (.x 2) ∧ s.Free (.x 0) ∧ s.Free (.x 31) ∧ s.Unheld ∧
      field (s.x 1) 48 16 = 1 ∧ field (s.x 1) 42 6 = s.panel ∧ hbmOffsetOk s.hshare (field (s.x 1) 0 42) = true ∧ ∀ n ∈ [1, 2, 4, 8], (s.x 1).toNat % n = 0) ∧
    (∀ op ∈ [ReqOp.load 8 true, .store 8 5, .amo 8 .min 5], let r := { request op none none false with performed := false };
      let s := { base with reqs := [(9, r)] };
      KMap.get s.reqs 9 = some r ∧ r.performed = false ∧ bitsOf r.addr 48 8 = 1 ∧ s.memPoisoned r.addr 8 = false ∧ s.mustWait r = false ∧ (∀ n, r.reached = some n → n ≤ r.deadline)) ∧
    (let r := { request (.load 8 true) none none false with performed := false };
      let q := { request (.store 8 5) none none false with performed := false, acc := 6 };
      let s := { base with reqs := [(8, q), (9, r)] };
      KMap.get s.reqs 9 = some r ∧ s.mustWait r = true ∧ r.performed = false ∧ (∀ n, r.reached = some n → n ≤ r.deadline)) ∧
    (∀ op ∈ [ReqOp.load 8 true, .amo 8 .min 5], let r := request op (some (.x 31)) none;
      let s := fun p => { base.modSlot 0 15 fun t => t.markX 31 { fe := .empty, prod := some (.request 9) } with reqs := [(9, r p)] };
      ∀ p ∈ [false, true], KMap.get (s p).reqs 9 = some (r p) ∧ (r p).slot < 16 ∧ (r p).posted = none ∧ (r p).dst = some (.x 31) ∧ (r p).poison = p ∧
        (((s p).slot 0 15).xState 31).prod = some (.request 9)) ∧
    (let r := request (.store 8 5) none none false;
      KMap.get { base with reqs := [(9, r)] }.reqs 9 = some r ∧ r.slot < 16 ∧ r.posted = none ∧ r.dst = none) ∧
    (bitsOf (2 ^ 48) 48 8 = 1 ∧ base.physOk (2 ^ 48) .write .m 64 false = true ∧ bitsOf (2 ^ 48) 42 6 = base.panel) ∧
    (let s := { base with host := { base.host with route := [(5, 2 ^ 15)] } };
      s.physOk (2 ^ 48 + 5 * 2 ^ 42) .write .m 64 false = true ∧ bitsOf (2 ^ 48 + 5 * 2 ^ 42) 42 6 ≠ s.panel) ∧
    (let a := 15 * 2 ^ 48 + 2 * 2 ^ 40 + 0x610;
      bitsOf a 48 8 = 15 ∧ bitsOf a 40 2 = 2 ∧ bitsOf a 0 24 ≠ 0x600 ∧ bitsOf a 0 24 ≠ 0x608) ∧
    (let a := 14 * 2 ^ 48 + 31 * 2 ^ 37 + 31 * 2 ^ 32 + 15 * 2 ^ 28 + 0x1FFFC0;
      bitsOf a 48 8 = 14 ∧ bitsOf a 42 6 = base.panel ∧ bitsOf a 21 7 = 0 ∧ bitsOf a 0 21 + 64 ≤ 0x200000) := by
  repeat' apply And.intro
  all_goals decide +kernel

/-- `base` with the last doubleword of the scratchpad below the service region in x1, and a window of the slot there. -/
def reaching : State := (base.setX 1 0x1DFFF8).modMe fun t => { t with mode := .m }

theorem test_witness_LocalAccessesStartOrWait :
    (let s := reaching;
      s.Running ∧ s.Full (.x 1) ∧ s.Full (.x 2) ∧ s.Free (.x 3) ∧ s.Unheld ∧ s.here.gl.lists = [] ∧ (∀ a ∈ s.me.accs, a.scope ≠ .core) ∧
      ∀ n ∈ [1, 2, 4, 8], (s.x 1).toNat % n = 0 ∧ reaches s .read (s.x 1).toNat n ∧ reaches s .write (s.x 1).toNat n) ∧
    (let s := service.setX 1 0x1FFFF8;
      s.Running ∧ s.Unheld ∧ reaches s .read (s.x 1).toNat 8 ∧ reaches s .write (s.x 1).toNat 8) ∧
    (let s := (base.setX 1 0x1DFFF8).modMe fun t => { t with u := { t.u with wlocwin := BitVec.ofNat 64 ((479 + 479 * 2 ^ 16 + 3 * 2 ^ 29) * 2 ^ 32) } };
      s.me.mode = .u ∧ reaches s .read (s.x 1).toNat 8 ∧ reaches s .write (s.x 1).toNat 8) ∧
    (let s := reaching.modMe fun t => { t with aqs := [3] };
      s.Running ∧ s.me.aqs ≠ [] ∧ reaches s .write (s.x 1).toNat 8) ∧
    (let s := reaching.modMe fun t => { t with recvs := [{ ch := 9, dst := .x 3, scope := .core, serial := 1, timed := true }] };
      s.me.recvs ≠ [] ∧ reaches s .write (s.x 1).toNat 8) ∧
    (let s := reaching.modMe fun t => { t with fence := some { awaited := [7], succ := 1, scope := .core } };
      (∃ f, s.me.fence = some f ∧ f.succ.getLsbD 0 = true) ∧ reaches s .write (s.x 1).toNat 8) := by
  unfold reaches
  refine ⟨by decide +kernel, by decide +kernel, by decide +kernel, by decide +kernel, by decide +kernel, ⟨_, rfl, by decide +kernel⟩, by decide +kernel⟩


/-- The entry of the page of 0x2000000000 in address space 3, with permissions as given. -/
def entry (perm : BitVec 10) : TlbEntry := { vpn := 0x2000000, level := 0, asid := 3, global := false, ppn := 5, perm := perm }

/-- `base` under Sv48, with that page in x1. -/
def paging : State :=
  (base.setX 1 0x2000000000).modMe fun t => { t with c := { t.c with satp := BitVec.ofNat 64 (9 * 2 ^ 60 + 3 * 2 ^ 44) } }

/-- A refill request of slot 15 for that page. -/
def refill (met : List Inval) : Walk := { id := 4, vpn := 0x2000000, asid := 3, root := 0, slots := [(15, 0x2000000000, 0)], met := met, cut := none }

/-- Core 0 with it, slot 15 waiting. -/
def refilling (met : List Inval) : State :=
  ((base.modSlot 0 15 fun t => { t with st := .walk }).modHere fun k => { k with walks := [refill met] }).modDie 0 fun d => { d with tlb2 := [entry 0xDF] }

theorem test_witness_TranslationMissesAndRefills :
    (let s := paging;
      s.Running ∧ s.me.mode = .u ∧ s.Full (.x 1) ∧ s.Free (.x 3) ∧ field s.me.c.satp 60 4 = 9 ∧ (s.x 1).toNat % 8 = 0 ∧ 0x200000 ≤ (s.x 1).toNat ∧
      s.x 1 = ((s.x 1).setWidth 48).signExtend 64 ∧ s.here.tlb.find? (fun e => e.hits (field (s.x 1) 12 36) 3) = none ∧ s.here.walks = []) ∧
    (let s := paging.setX 1 0x800000000000;
      s.x 1 ≠ ((s.x 1).setWidth 48).signExtend 64) ∧
    (let s := paging.modHere fun k => { k with tlb := [entry 0xCF] };
      s.curSlot < 15 ∧ s.here.tlb.find? (fun e => e.hits (field (s.x 1) 12 36) 3) = some (entry 0xCF) ∧ (entry 0xCF).perm.getLsbD 4 = false ∧
      (s.die (dieOf s.curCore)).flt.full 64 = false) ∧
    (∀ met ∈ [[], [{ asid := some 3, page := none }]], let s := refilling met;
      (s.core 0).walks = [refill met] ∧ (refill met).cut = none ∧ (refill met).slots = [(15, 0x2000000000, 0)] ∧ (s.slot 0 15).st = .walk ∧
      (s.die 0).tlb2.find? (fun e => e.hits (refill met).vpn (refill met).asid) = some (entry 0xDF)) ∧
    (∀ n ∈ (refill []).met, ¬ Claims.removes n.asid n.page (entry 0xDF)) ∧
    (∃ n ∈ (refill [{ asid := some 3, page := none }]).met, Claims.removes n.asid n.page { entry 0xDF with vpn := 0x2000000 }) := by
  refine ⟨?_, ?_, ?_, by decide +kernel, nofun, _, List.mem_singleton.2 rfl, fun a h => ?_, nofun⟩
  · repeat' apply And.intro
    all_goals decide +kernel
  · decide +kernel
  · repeat' apply And.intro
    all_goals decide +kernel
  · cases h
    exact ⟨rfl, rfl⟩

theorem test_witness_InvalidationsRemoveEntries :
    base.Running ∧ base.me.mode = .u ∧ ((serviceIn .s 0 0).me.mode = .s ∧ (serviceIn .s 0 0).me.c.mstatus.getLsbD 20 = false) ∧
    ((serviceIn .s 0x100000 0).me.mode = .s ∧ (serviceIn .s 0x100000 0).me.c.mstatus.getLsbD 20 = true) ∧
    (inM.me.mode = .m ∧ inM.Full (.x 1) ∧ inM.Full (.x 2) ∧ ∀ a ∈ inM.me.accs, a.write = false) ∧
    (let s := (accessing .glb .panel).modMe fun t => { t with mode := .m };
      s.me.mode = .m ∧ ∃ a ∈ s.me.accs, a.write = true) ∧
    (base.die 31).inv = none := by
  repeat' apply And.intro
  all_goals decide +kernel

/-- A trap record of slot 14. -/
def trapRec : TrapRec := { slot := 14, mode := .u, tgt := false, cause := 2, word := 0, pc := 0, tval := 0, extra := 0 }

theorem test_witness_SharedCsrsAndRecords :
    (inM.Running ∧ inM.me.mode = .m ∧ inM.Full (.x 1) ∧ inM.Free (.x 3) ∧ inM.me.wait = none) ∧
    (let f := fun v : Word => field v 15 5 + (field (base.core 0).wsheaf 8 5 + 1) ≤ 32 ∧ field v 11 4 + (field (base.core 0).wsheaf 0 4 + 1) ≤ 16;
      f (BitVec.ofNat 64 (31 * 2 ^ 15 + 15 * 2 ^ 11)) ∧
      ¬ (field (31 * 2 ^ 15 : Word) 15 5 + (field (((base.modHere fun k => { k with wsheaf := 0x100 }).core 0).wsheaf) 8 5 + 1) ≤ 32)) ∧
    (field window 6 15 * 64 + field window 21 16 * 64 ≤ 0x1E0000 ∧ field window 38 6 ≤ field window 44 6) ∧
    (¬ (field (window ||| 64#64) 6 15 * 64 + field (window ||| 64#64) 21 16 * 64 ≤ 0x1E0000)) ∧
    (let s := (base.modSlot 0 14 fun t => { t with pendTrap := some trapRec }).modSlot 0 15 fun t => { t with st := .ready };
      (s.slot 0 14).pendTrap = some trapRec ∧ trapRec.slot = 14 ∧ (∀ j < 16, j ≠ 14 → (s.slot 0 j).pendTrap = none) ∧ (s.core 0).trapq.length < 16 ∧
      (s.slot 0 14).recsHeld = false ∧ (s.slot 0 15).st = .ready) ∧
    (let s := base.modSlot 0 14 fun t => { t with
        pendTrap := some trapRec
        recsHeld := true };
      ∀ j < 16, (s.slot 0 j).pendTrap = none ∨ (s.slot 0 j).recsHeld = true) ∧
    (let k := base.here.modSlot 15 fun t => { t with pendFault := some faultRec };
      let s := { base with cores := [(0, k)] };
      k.faults = [] ∧ (k.slot 15).pendFault = some faultRec ∧ (k.slot 15).recsHeld = false ∧ (∀ j < 16, j ≠ 15 → (k.slot j).pendFault = none) ∧ (s.die 0).flt.full 64 = false ∧ (s.die 0).fltNotify = 0) ∧
    (let k := { base.here with faults := [(15, faultRec)] };
      let s := { base with cores := [(0, k)] };
      k.faults = [(15, faultRec)] ∧ (∀ j < 16, (k.slot j).pendFault = none) ∧ (s.die 0).flt.full 64 = false ∧ (s.die 0).fltNotify = 0) ∧
    (let w : Wait := { kind := .wgdata 31 1 5, since := 0, serial := 3 };
      let s := base.modSlot 0 15 fun t => { t with wait := some w };
      (s.slot 0 15).wait = some w ∧ edgeFacesOut 0 (field (s.slot 0 15).u.wgsel 24 2) = true) := by
  repeat' apply And.intro
  all_goals decide +kernel

/-- An end of slot 15 of core 0 whose other end is on core 16383. -/
def farEnd (sending : Bool) : Endpoint :=
  { endOf sending 15 9 with
    peerCore := 16383
    peerSlot := 0
    scope := .panel }

/-- That end as endpoint 255 of core 0, with a channel message on its way to it. -/
def messaged (e : Endpoint) (x : ChMsg) : State := (flying 0 (.chan 255 x)).modHere fun k => { k with eps := [(255, e)] }

theorem brings_of {s : State} {x : ChMsg}
    (h : s.net = [(5, { net := .dep, src := 0, dst := 0, body := .chan 255 x, generation := 0, crossed := 0, due := 0, eject := 0, route := [] })]) : brings s 5 0 255 x :=
  ⟨{ net := .dep, src := 0, dst := 0, body := .chan 255 x, generation := 0, crossed := 0, due := 0, eject := 0, route := [] }, by rw [h]; rfl, rfl, rfl⟩

/-- A receive of endpoint 255 into x31. -/
def farRecv : Recv := { ch := 255, dst := .x 31, scope := .panel, serial := 1, timed := true }

/-- Slot 15 of core 0 with it outstanding. -/
def farWaits (s : State) : State :=
  s.modSlot 0 15 fun t => { (t.markX 31 { fe := .empty, prod := some (.receive 255) }) with recvs := [farRecv] }

/-- Slot 15 of core 0 blocked in a send. -/
def farSends (s : State) (phase : SendPhase) : State :=
  s.modSlot 0 15 fun t => { t with wait := some { kind := .send 255 phase, since := 0, serial := 3 } }

/-- A scalar offer. -/
def offer : Offer := { vec := false, value := 5, pid := 2 }

theorem test_witness_ChannelMessagesAct :
    ((messaged (farEnd false) .withdraw).endpoint 0 255 = some (farEnd false) ∧ (farEnd false).owner < 16 ∧ (farEnd false).peerCore ≠ 0 ∧
      (farEnd false).peerCore < 16384) ∧
    (brings (messaged (farEnd false) (.offer offer)) 5 0 255 (.offer offer) ∧ (farEnd false).broken = false ∧ (farEnd false).recvOut = none) ∧
    (let e := { farEnd false with recvOut := some false };
      let s := farWaits (messaged e (.offer offer));
      brings s 5 0 255 (.offer offer) ∧ s.endpoint 0 255 = some e ∧ offer.vec = false ∧ (s.slot 0 15).recvs = [farRecv] ∧ farRecv.ch = 255 ∧ farRecv.dst = .x 31 ∧
        ((s.slot 0 15).xState 31).prod = some (.receive 255)) ∧
    (let s := farSends (messaged (farEnd true) (.ack true)) .offered;
      brings s 5 0 255 (.ack true) ∧ (s.slot 0 15).wait = some { kind := .send 255 .offered, since := 0, serial := 3 } ∧ (s.slot 0 15).hold = false) ∧
    (∀ w ∈ [false, true], let e := { farEnd true with withdrawing := w };
      let s := (farSends (messaged e (.ack true)) .withdrawing).modSlot 0 15 fun t => { t with hold := true };
      brings s 5 0 255 (.ack true) ∧ s.endpoint 0 255 = some e ∧ (s.slot 0 15).wait = some { kind := .send 255 .withdrawing, since := 0, serial := 3 } ∧
        (s.slot 0 15).hold = true) ∧
    brings (messaged (farEnd true) (.recv 4)) 5 0 255 (.recv 4) ∧
    (let e := { farEnd false with offer := some offer };
      brings (messaged e .withdraw) 5 0 255 .withdraw ∧ e.offer.isSome ∧ e.sending = false) ∧
    (brings (messaged (farEnd false) .withdraw) 5 0 255 .withdraw ∧ (farEnd false).offer = none) ∧
    (let e := { farEnd true with withdrawing := true };
      let s := farSends (messaged e .withdrawn) .withdrawing;
      brings s 5 0 255 .withdrawn ∧ s.endpoint 0 255 = some e ∧ e.withdrawing = true ∧ (s.slot 0 15).hold = false ∧ e.victim = none ∧
        (s.slot 0 15).u.wtmo.getLsbD 63 = false) ∧
    (let e := { farEnd true with
        owner := 14
        withdrawing := true
        victim := some 70000 };
      let s := (messaged e .withdrawn).modSlot 0 14 fun t => { t with wait := some { kind := .send 255 .withdrawing, since := 0, serial := 3 } };
      brings s 5 0 255 .withdrawn ∧ s.endpoint 0 255 = some e ∧ e.withdrawing = true ∧ (s.slot 0 14).hold = false ∧ e.victim = some 70000 ∧ e.owner < 15 ∧
        (s.slot 0 14).wait = some { kind := .send 255 .withdrawing, since := 0, serial := 3 }) ∧
    (let s := farSends (messaged (farEnd true) .broken) .offered;
      brings s 5 0 255 .broken ∧ (s.slot 0 15).recvs = []) ∧
    (let s := farSends (messaged (farEnd true) .withdraw) (.release offer);
      (s.slot 0 15).wait = some { kind := .send 255 (.release offer), since := 0, serial := 3 } ∧ (farEnd true).broken = false) := by
  refine ⟨by decide +kernel, ⟨brings_of rfl, rfl, rfl⟩, ⟨brings_of rfl, by decide +kernel⟩, ⟨brings_of rfl, by decide +kernel⟩,
    fun w h => ⟨brings_of rfl, rfl, rfl, rfl⟩, brings_of rfl, ⟨brings_of rfl, by decide +kernel⟩, ⟨brings_of rfl, rfl⟩, ⟨brings_of rfl, by decide +kernel⟩,
    ⟨brings_of rfl, by decide +kernel⟩, ⟨brings_of rfl, by decide +kernel⟩, by decide +kernel⟩

/-- Slot 14 of core 0 waiting for a receive of endpoint 255 into x31, with a mark table and a message on its way to the core. -/
def stuck (marks : List Mark) (b : Body) : State :=
  let e := { farEnd false with
    owner := 14
    recvOut := some false }
  let f := { farEnd false with
    owner := 14
    offer := some offer }
  ((flying 0 b).modHere fun k => { k with eps := [(9, f), (255, e)] }).modSlot 0 14 fun t =>
    { (t.markX 31 { fe := .empty, prod := some (.receive 255) }) with
      recvs := [farRecv]
      marks := marks
      st := .blocked
      wait := some { kind := .source (.x 31) [] none, since := 0, serial := 3 } }

theorem stuck_awaits (marks : List Mark) (b : Body) :
    AwaitsReceive (stuck marks b) 0 14 { kind := .source (.x 31) [] none, since := 0, serial := 3 } farRecv 31
      { farEnd false with
        owner := 14
        recvOut := some false } :=
  ⟨by decide, rfl, rfl, rfl, ⟨[], none, rfl⟩, ⟨by decide, rfl⟩, rfl, rfl, rfl, rfl, rfl, rfl, by decide, by decide⟩

/-- A probe of slot 14 that comes back with a sequence number. -/
def back (seq : Nat) : Probe :=
  { init := (State.quiet.slot 0 14).pidWord, initSeq := seq, root := (State.quiet.slot 0 14).pidWord, rootSeq := seq, orRooted := false, hops := 3, count := 70000,
    list := [], from_ := 2, fromAlt := false }

/-- A mark of its own probe with replies to come. -/
def markOf (pending : Nat) : Mark :=
  { init := (State.quiet.slot 0 14).pidWord, seq := 0, parent := none, pending := pending, gathered := [], count := 0xFFFF }

theorem test_witness_DeadlocksAreConfirmed :
    (AwaitsReceive (stuck [] (.marker 0)) 0 14 { kind := .source (.x 31) [] none, since := 0, serial := 3 } farRecv 31 { farEnd false with
        owner := 14
        recvOut := some false } ∧
      (stuck [] (.marker 0)).probePeriod 0 ≠ 0 ∧ (stuck [] (.marker 0)).cycle < 0 + (stuck [] (.marker 0)).probePeriod 0 ∧
      0 + (stuck [] (.marker 0)).probePeriod 0 ≤ { stuck [] (.marker 0) with cycle := 7168 }.cycle ∧ ((stuck [] (.marker 0)).slot 0 14).lastProbe = none ∧
      ((stuck [] (.marker 0)).core 0).trapq.length < 16 ∧ ((stuck [] (.marker 0)).die 0).dlk.full 16 = false) ∧
    (∀ n ∈ [0, 65535], let s := stuck [] (.probe 9 true (back n));
      (KMap.get s.net 5).map (fun m => (m.dst, m.body)) = some (0, .probe 9 true (back n)) ∧ (s.endpoint 0 9).map (·.owner) = some 14 ∧ 9 ≠ farRecv.ch ∧
      (back n).init = (s.slot 0 14).pidWord ∧ (back n).root = (s.slot 0 14).pidWord ∧ (back n).orRooted = false ∧ (back n).hops ≠ (s.core 0).processes ∧
      (s.endpoint 0 9).map (fun f => f.offer.any (fun o => o.pid == (back n).from_)) = some true ∧
      ((back n).initSeq = (s.slot 0 14).bseq.toNat ↔ n = 0)) ∧
    (∀ n ∈ [1, 2], let k := markOf n;
      let s := stuck [k] (.reply 14 k.init k.seq k.init 0 [] 1);
      (KMap.get s.net 5).map (·.dst) = some 0 ∧ (s.slot 0 14).marks = [k] ∧ k.init = (s.slot 0 14).pidWord ∧ k.seq = (s.slot 0 14).bseq.toNat ∧ k.pending = n) := by
  refine ⟨⟨stuck_awaits _ _, by decide +kernel⟩, by decide +kernel, by decide +kernel⟩

/-- `owning` in M-mode, with its operands in x1 and x2. -/
def tensors (a b : Word) : State := ((owning.setX 1 a).setX 2 b).modMe fun t => { t with mode := .m }

/-- An `mma` of a slot. -/
def tensorOp (slot : Nat) (fmt : BitVec 4) (z : Bool) (next : Nat) (poison : Bool) : TensorOp :=
  { slot := slot, acc := 7, a := 0x1000, b := 0x2000, fmt := fmt, z := z, next := next, poison := poison, wfmt := 0, wscl := 0, wmstr := 0, access := 7 }

/-- Four tiles in use. -/
def fourTiles : KMap (AccWord × Int) := [(0, (0, 0)), (1, (0, 0)), (2, (0, 0)), (3, (0, 0))]

theorem test_witness_TensorInstructionsIssue :
    (base.Running ∧ (base.here.getAcc 7).owner = none) ∧ ((owning.here.getAcc 7).owner = some owning.curSlot) ∧
    (let s := base.modHere fun k => k.modAcc 7 fun a => { a with owner := some 15 };
      (s.here.getAcc 7).owner = some 15 ∧ 15 ≠ s.curSlot) ∧
    (owning.Free (.acc 7) ∧ owning.Unheld) ∧ (((tensors 1 0).x 1).toNat % 64 ≠ 0 ∧ (tensors 1 0).Full (.x 1) ∧ (tensors 1 0).Full (.x 2)) ∧
    (((tensors 64 1).x 1).toNat % 64 = 0 ∧ ((tensors 64 1).x 2).toNat % 64 ≠ 0) ∧
    (let s := tensors 0x1DF700 0;
      s.Running ∧ s.me.mode = .m ∧ operandFits (s.x 1) (field s.me.u.wmstr 6 10) ∧ operandFits (s.x 2) (field s.me.u.wmstr 22 10) ∧ s.Free (.acc 7) ∧ s.Full (.acc 7) ∧
      s.here.th.tiles.length < 4 ∧ (∀ o ∈ s.here.tq, o.slot ≠ s.curSlot) ∧ s.Unheld ∧ s.here.trun = none ∧
      field s.me.u.wfmt 0 2 < 2 ∧ field s.me.u.wfmt 2 2 < 2) ∧
    (let s := (tensors 0 0).modMe fun t => { t with u := { t.u with wfmt := 8 } };
      ¬ (field s.me.u.wfmt 0 2 < 2 ∧ field s.me.u.wfmt 2 2 < 2)) ∧
    (let s := (tensors 0 0).modHere fun k => { k with th := { k.th with tiles := fourTiles } };
      4 ≤ s.here.th.tiles.length) ∧
    (let s := (tensors 0 0).modHere fun k => { k with tq := [tensorOp 1 0 true 0 false] };
      s.here.th.tiles.length < 4 ∧ ∃ o ∈ s.here.tq, o.slot = s.curSlot) ∧
    untrapped (tensors 0 0) 7 ∧
    (∀ g ∈ [empty, poisoned], let s := ((tensors 0 0).modHere fun k => k.modAcc 7 fun a => { a with reg := g }).modMe fun t => { t with
        u := { t.u with wfetrap := BitVec.ofNat 64 (2 ^ 55) } };
      (s.here.getAcc 7).owner = some s.curSlot ∧ (s.here.getAcc 7).reg = g ∧ s.me.u.wfetrap.getLsbD (48 + 7) = true) ∧
    untrapped ((tensors 0 0).modHere fun k => k.modAcc 7 fun a => { a with reg := empty }) 7 := by
  unfold operandFits untrapped
  repeat' apply And.intro
  all_goals decide +kernel

/-- A plane descriptor of 256 FP32 elements at source 0. -/
def drainDesc : BitVec 512 := BitVec.ofNat 512 (256 * 2 ^ 192)

/-- A group of cores 0 and 1. -/
def pair : Group :=
  { used := true, generation := 1, members := [0, 1], op := .add, ticket := 1, index := 0, tree := treeOf [0, 1],
    behind := [{ generation := 0, tree := treeOf [0, 1], sweeping := false }], awaits := [] }

theorem test_witness_LoadsAndDrainsStart :
    (base.Running ∧ base.Full (.x 1) ∧ base.Full (.x 2) ∧ (base.here.getAcc 7).owner ≠ some base.curSlot) ∧
    (let s := tensors 0 32;
      (s.here.getAcc 7).owner = some s.curSlot ∧ field (s.x 2) 5 59 ≠ 0 ∧ untrapped s 7 ∧ ¬ (7 : BitVec 3).toNat % 2 = 0) ∧
    (let s := (tensors 0 40).modHere fun k => k.modAcc 6 fun a => { a with owner := some 1 };
      let t := s.modHere fun k => k.modAcc 7 fun a => { a with owner := none };
      (s.here.getAcc 6).owner = some s.curSlot ∧ untrapped s 6 ∧ 8 ≤ field (s.x 2) 0 4 ∧ field (s.x 2) 0 4 ≤ 12 ∧ field (s.x 2) 5 59 ≠ 0 ∧
      (s.here.getAcc (6 + 1)).owner = some s.curSlot ∧ untrapped s (6 + 1) ∧ (t.here.getAcc 6).owner = some t.curSlot ∧ untrapped t 6 ∧
      (t.here.getAcc (6 + 1)).owner ≠ some t.curSlot) ∧
    ((tensors 8 0).x 1).toNat % 16 ≠ 0 ∧
    (let s := tensors 0x1DFC00 0;
      s.Running ∧ s.Full (.x 1) ∧ s.Full (.x 2) ∧ s.Free (.acc 7) ∧ s.Full (.acc 7) ∧ s.Unheld ∧ s.me.mode = .m ∧ (s.x 1).toNat % 16 = 0 ∧
      field s.me.u.wmstr 36 12 = 0 ∧ (s.x 1).toNat + 15 * 64 + 64 ≤ 0x1E0000 ∧ drainForm (s.x 2) s.me.u.wmstr 64 ∧ targetRow (field (s.x 2) 0 4) = 64 ∧
      ¬ 2 ≤ (s.here.drains.filter fun x => x.left != 0).length) ∧
    (let s := (tensors 0x1DFF00 22).modMe fun t => { t with u := { t.u with wmstr := BitVec.ofNat 64 (2 ^ 36) } };
      drainForm (s.x 2) s.me.u.wmstr 16 ∧ (s.x 1).toNat + 15 * 16 + targetRow (field (s.x 2) 0 4) ≤ 0x1E0000 ∧ (s.x 2).getLsbD 4 = true) ∧
    (let s := (tensors 0 0).modHere fun k => { k with drains :=
        [{ id := 3, slot := 1, acc := 0, left := 1, rows := [], amax := none }, { id := 4, slot := 1, acc := 1, left := 1, rows := [], amax := none }] };
      2 ≤ (s.here.drains.filter fun x => x.left != 0).length) ∧
    (let s := tensors (someDa ||| 0x1FF000#64) 6;
      (s.here.checkDa s.panel s.me.mode (s.x 1) 16).toOption = some (s.panel, 511) ∧ drainForm (s.x 2) s.me.u.wmstr 16 ∧
      field (s.x 1) 0 21 + 15 * 16 + targetRow (field (s.x 2) 0 4) ≤ 0x200000 ∧ s.here.outbound ≤ 16 ∧
      16 < (s.modHere fun k => { k with outq := (List.range 17).map fun n => (n, depositTo 1) }).here.outbound) ∧
    (let s := ((tensors 0x1DFFC0 0).modHere fun k => { k with
        spad := k.spad.writeAll 0x1DFFC0 (leBytes 64 drainDesc.toNat)
        grp := vecSet k.grp 0 (BitVec.ofNat 64 (2 ^ 63 + 2 ^ 16)) }).modSow fun w => { w with groups := [(0, pair)] };
      let p := planeDesc (BitVec.ofNat 512 (s.here.spad.load 64 (s.x 1).toNat));
      let h := vecGet s.here.grp p.gh 0;
      (s.here.getAcc 7).owner = some s.curSlot ∧ field (s.x 2) 0 4 = 0 ∧ s.me.mode = .m ∧ (s.x 1).toNat % 64 = 0 ∧ (s.x 1).toNat + 64 ≤ 0x1E0000 ∧
      s.here.poisoned (s.x 1).toNat 64 = false ∧ p.src = 0 ∧ p.elems = 256 ∧ p.sfmt = 0 ∧ s.Unheld ∧ s.here.th.tiles = [] ∧ s.here.th.ops = [] ∧
      KMap.get s.sow.groups (field h 0 12) = some pair ∧ h.getLsbD 63 = true ∧ field h 16 4 = pair.generation ∧ s.curCore ∈ pair.members ∧ s.planes = []) := by
  unfold drainForm untrapped
  repeat' apply And.intro
  all_goals decide +kernel

/-- A run of the tensor unit whose rows have all been granted. -/
def tensorRun (fmt : BitVec 4) (next : Nat) (poison : Bool) (words : AccWord) : TensorRun :=
  { op := tensorOp 15 fmt false next poison, start := 0, early := 0, late := 0, earlyLast := 7, lateLast := 15, data := [], words := words, afl := 0, cut := none,
    abandon := none }

theorem test_witness_TensorUnitRuns :
    ((tensorRun 7 0 false 0).op.fmt = 7#4) ∧
    ((tensorRun 6 0 false (BitVec.ofNat 8192 (0x7FC00001 * 2 ^ (32 * 255)))).op.fmt.toNat < 7 ∧
      (Fmt.fp32.decode (field (tensorRun 6 0 false (BitVec.ofNat 8192 (0x7FC00001 * 2 ^ (32 * 255)))).words (32 * (16 * 15 + 15)) 32)).isNan = true) ∧
    (let s := base.modHere fun k => { k with tq := [tensorOp 15 0 true 0 false, tensorOp 1 0 false 0 false] };
      (s.core 0).tq = tensorOp 15 0 true 0 false :: [tensorOp 1 0 false 0 false] ∧ (s.core 0).trun = none ∧ (s.core 0).th.tiles.length < 4 ∧ s.sec.pthr = 0 ∧
      (tensorOp 15 0 true 0 false).z = true ∧ (tensorOp 1 0 false 0 false).z = false) ∧
    (∀ p ∈ [(0, 1, 3), (0, 3, 11), (2, 2, 15)], let r := tensorRun 7 p.1 false 0;
      let s := { base.modHere fun k => { k with trun := some r } with cycle := p.2.2 };
      let ends := fun q => r.start + (q + 1) * (16 / 4) - 1;
      (s.core 0).trun = some r ∧ r.early = 0 ∧ r.late = 0 ∧ r.abandon = none ∧ r.cut = none ∧ r.earlyLast ≤ r.start + 7 ∧ r.lateLast ≤ r.start + 15 ∧
      r.op.fmt.toNat < 8 ∧ [4, 2, 2, 4, 8, 4, 8, 4].getD r.op.fmt.toNat 0 = 4 ∧ 0 < p.2.1 ∧ r.op.next + p.2.1 ≤ 4 ∧ ends (r.op.next + p.2.1 - 1) ≤ s.cycle ∧
      s.cycle < ends (r.op.next + p.2.1)) ∧
    (let r := { tensorRun 7 1 false 0 with cut := some 7 };
      let s := { (base.modHere fun k => { k with trun := some r }).modSlot 0 15 fun t => { t with hold := true } with cycle := 7 };
      (s.core 0).trun = some r ∧ r.cut = some 7 ∧ 7 ≤ r.start + (r.op.next + 1) * 4 - 1 ∧ r.op.next + 1 < 4 ∧ r.start + (r.op.next + 1) * 4 - 1 ≤ s.cycle ∧
      r.op.slot < 16 ∧ r.op.acc < 8 ∧ (s.slot 0 r.op.slot).hold = true) ∧
    (∀ q ∈ [(4, 8), (1, 2), (7, 4)], ∀ b ∈ [false, true], let r := tensorRun q.1 q.2 b 0;
      ((base.modHere fun k => { k with trun := some r }).core 0).trun = some r ∧ r.op.fmt.toNat < 8 ∧ [4, 2, 2, 4, 8, 4, 8, 4].getD r.op.fmt.toNat 0 ≤ r.op.next ∧ r.op.acc < 8 ∧ r.op.slot < 16 ∧ r.op.poison = b) ∧
    (∀ b ∈ [false, true], let m : MLoad := { slot := 15, access := 7, left := 0, words := 5, poison := b };
      KMap.get ((base.modHere fun k => { k with mloads := [(7, m)] }).core 0).mloads (7 : BitVec 3).toNat = some m ∧ m.slot < 16) ∧
    (let r := { depositTo 1 with ready := 4 };
      let x : Drain := { id := 3, slot := 15, acc := 7, left := 2, rows := [r, { r with ready := 5 }], amax := none };
      ((base.modHere fun k => { k with drains := [x] }).core 0).drains = [x] ∧ x.rows = [r, { r with ready := 5 }] ∧ r.core = 0 ∧ r.awaited = [] ∧ r.ready ≤ base.cycle + 4 ∧
      base.cycle ≤ r.ready ∧ base.cycle + 4 < 5 ∧ ((base.modHere fun k => { k with drains := [x] }).core 0).outq = [] ∧ 0 < { base with nextId := 9 }.nextId) ∧
    (let x : Drain := { id := 3, slot := 15, acc := 7, left := 0, rows := [], amax := none };
      ((base.modHere fun k => { k with drains := [x] }).core 0).drains = [x] ∧ x.amax = none ∧ x.slot < 16) ∧
    (let x : Drain := { id := 3, slot := 15, acc := 7, left := 0, rows := [], amax := some (depositTo 5) };
      ((base.modHere fun k => { k with drains := [x] }).core 0).drains = [x] ∧ x.amax = some (depositTo 5) ∧ x.left = 0 ∧ (depositTo 5).awaited = [] ∧
      (depositTo 5).core = 0) := by
  repeat' apply And.intro
  all_goals decide +kernel

theorem test_witness_RowsAreDrained :
    (let s := ((tensors 0x1DF700 12).modHere fun k => k.modAcc 6 fun a => { a with owner := some 1 });
      (s.here.getAcc 6).owner = some s.curSlot ∧ s.Full (.acc 6) ∧ s.Free (.acc 6) ∧ drainForm (s.x 2) s.me.u.wmstr 16 ∧ field (s.x 2) 0 4 = 12 ∧ s.me.mode = .m ∧
      (s.x 1).toNat % 16 = 0 ∧ (s.x 1).toNat + 15 * 16 + targetRow 12 ≤ 0x1E0000 ∧ (6 : BitVec 3).toNat % 2 = 0 ∧ (s.here.getAcc (6 + 1)).owner = some s.curSlot ∧
      s.Full (.acc (6 + 1)) ∧ (s.x 1).toNat + 2048 + 15 * 16 + 2 ≤ 0x1E0000 ∧ s.Unheld ∧ s.here.drains = []) ∧
    (((drainRow 0 0 15 5 0 15).1[63]?).isSome ∧ ((drainRow 12 0 15 5 0 15).1[15]?).isSome ∧ ((drainRow 12 0 15 5 0 15).2[1]?).isSome) := by
  unfold drainForm
  refine ⟨?_, by decide +kernel⟩
  repeat' apply And.intro
  all_goals decide +kernel

theorem test_witness_SlicesAreFinite :
    ∀ f < 7, ∀ b ∈ [false, true], let r := tensorRun (BitVec.ofNat 4 f) 0 false 0;
      r.op.fmt.toNat < 7 ∧ (∀ n < 32, (tensorElement r b 15 (32 * r.op.next + n)).isSome) ∧ (Fmt.fp32.decode (field r.words (32 * (16 * 15 + 15)) 32)).finite = true := by
  decide +kernel

/-- `base` with lists on its Gleaner, and a0 in x1. -/
def gleaning (a : Word) (l : List GList) : State :=
  (base.setX 1 a).modHere fun k => { k with gl := { k.gl with lists := l } }

theorem test_witness_GleanerInstructionResults :
    (base.Running ∧ base.Full (.x 1) ∧ base.Free (.x 3)) ∧ ((gleaning 1 []).x 1).toNat % 64 ≠ 0 ∧
    (((gleaning 0x200000 []).x 1).toNat % 64 = 0 ∧ 0x200000 ≤ ((gleaning 0x200000 []).x 1).toNat) ∧
    (let s := (gleaning 0x1DFFC0 []).modMe fun t => { t with mode := .m };
      (s.x 1).toNat % 64 = 0 ∧ (s.x 1).toNat + 64 ≤ 0x1E0000 ∧ s.me.mode = .m ∧ s.Unheld ∧ s.here.gl.lists.length < 8) ∧
    (8 ≤ (gleaning 0 (List.replicate 8 (list 2))).here.gl.lists.length) ∧
    (let s := gleaning 9 [list 2];
      (∀ l ∈ s.here.gl.lists, l.lid ≠ field (s.x 1) 0 16) ∧ (s.x 1).getLsbD 63 = false) ∧
    (let s := gleaning 0xFFFF [list 2];
      s.here.gl.lists = [list 2] ∧ (list 2).lid = field (s.x 1) 0 16 ∧ (s.x 1).getLsbD 63 = false ∧ (list 2).inFlight = []) ∧
    (let s := gleaning (BitVec.ofNat 64 (2 ^ 63)) [list 1];
      (s.x 1).getLsbD 63 = true ∧ ∃ l ∈ s.here.gl.lists, l.slot = s.curSlot) ∧
    (let s := gleaning (BitVec.ofNat 64 (2 ^ 63)) [list 2];
      (s.x 1).getLsbD 63 = true ∧ (∀ l ∈ s.here.gl.lists, l.slot ≠ s.curSlot) ∧ s.me.wait = none) := by
  repeat' apply And.intro
  all_goals decide +kernel

/-- The entry whose translation of the highest page of the lower half has arrived, with a byte to write there. -/
def translated : Entry :=
  { work 1 1 with
    wants := [{ page := 2 ^ 35 - 1, due := 0, cut := none }]
    toWrite := [(1, .write (2 ^ 47 - 1) [9])] }

/-- The leaf of that page, writable by U-mode: the first page of this panel's HBM. -/
def leaf : TlbEntry := { vpn := 2 ^ 35 - 1, level := 0, asid := 3, global := false, ppn := 2 ^ 36, perm := 0xDF }

/-- A crew of one core which starts slot 14. -/
def crew : Crew :=
  { dieLo := 0, dieHi := 0, rowLo := 0, rowHi := 0, colLo := 0, colHi := 0, text := [1, 2, 3, 4], data := [5], slots := [(14, 0, 0x400, 0)], windows := [], counters := [] }

/-- An unsigned image of one core of one die with it. -/
def image : Image :=
  { prio := 0, asid := 7, dies := 1, rows := 1, cols := 1, nameHash := 0, length := 128, signed := false, crews := [crew], chans := [], groups := [], wireMask := 0 }

/-- A sheaf of that image on the last core of the last die. -/
def sheaf (st : SheafSt) : Sheaf :=
  { here := 0, sat := true, others := [], sid := 0, ticket := 64, st := st, source := .host 1, prio := 0, asid := 7, imageAddr := 2 ^ 48, image := image, preds := [], done := BitVec.ofNat 64 (2 ^ 48 + 0x1000),
    places :=
      [{ panel := 0, die := 31, row0 := 31, col0 := 15 }], wires := [], groups := [], area := 0, status := 3, round := 0, roundStart := 0, sums := [0, 0, 0, 0], resumed := false,
    starting := 1, awaits := [], stopped := [], settled := true, saved := [], ops := [] }

theorem test_witness_CopyEngineWrites :
    ((work 1 64).op = 1 ∧ 63 < (work 1 64).len) ∧
    (let e := work 0 65;
      let got := [(0x101, (List.replicate 64 (7 : Byte)).map some)];
      e.op = 0 ∧ partAt e.dst e.len 1 = some (1, 64) ∧ e.src + e.len ≤ 2 ^ 64 ∧ (∀ g ∈ got, none ∉ g.2) ∧ gotByte got (e.src + 1 + 63) = some 7 ∧
        ∃ g ∈ [(0x101, (7 : Byte) |> fun b => [some b, none])], none ∈ g.2) ∧
    (∀ l ∈ [list 15, { list 15 with pending := some (work 6 0) }, { list 15 with pending := some (work 7 0) }], let s := gleaning 0 [l];
      (s.core 0).gl.lists = [l] ∧ l.slot < 16 ∧ l.ended = false ∧ l.aborted = false ∧ l.failed = none ∧ l.reading = false ∧ l.inFlight = [] ∧
      (s.core 0).gl.frozen = false ∧ s.halted 0 = false) ∧
    (let l := { list 15 with inFlight := [translated] };
      let s := (gleaning 0 [l]).modDie 0 fun d => { d with tlb2 := [leaf] };
      let a := 2 ^ 47 - 1;
      let p := a / 4096;
      (s.core 0).gl.lists = [l] ∧ l.inFlight = [translated] ∧ translated.wants = [{ page := p, due := 0, cut := none }] ∧ 0 ≤ s.cycle ∧ translated.dead = false ∧ translated.finished = false ∧
        translated.toWrite = [(1, .write a [9])] ∧ translated.toRead = [] ∧ s.sec.pthr < 4 ∧
      field l.wasid 60 4 = 9 ∧ 0x200000 ≤ a ∧ a < 2 ^ 47 ∧ translated.pages = [] ∧ (s.core 0).gl.sentAt ≠ some s.cycle ∧
      (s.die 0).tlb2.find? (fun x => x.hits p (field l.wasid 44 10)) = some leaf ∧ permOk leaf.perm .s true false .write = true ∧
      s.physOk (leaf.phys a) .write .m 1 false = true ∧ bitsOf (leaf.phys a) 48 8 = 1) ∧
    (let s := { gleaning 0 [list 15] with sec := { base.sec with haltAll := true } };
      let ends := s.modSow fun w => { w with sheaves := [(0, sheaf .killing)] };
      (s.core 0).gl.lists = [list 15] ∧ (list 15).inFlight = [] ∧ s.halted 0 = true ∧ s.beingKilled 0 = false ∧
        (ends.core 0).gl.lists = [list 15] ∧ (ends.modHere fun k => { k with ticket := some 0 }).beingKilled 0 = true) ∧
    (let e := { work 0 64 with finished := true };
      e.finished = true ∧ e.left = 0 ∧ e.bad = false ∧ e.cnt = some 63 ∧ e.op = 0 ∧ base.sow.mailbox = []) ∧
    ({ list 15 with failed := some (3, 2) }.failed = some (3, 2) ∧ ({ list 15 with aborted := true }.failed = none ∧ { list 15 with aborted := true }.aborted = true) ∧
      ({ list 15 with ended := true }.aborted = false ∧ { list 15 with ended := true }.ended = true)) := by
  repeat' apply And.intro
  all_goals decide +kernel

theorem test_witness_EntriesTransform :
    (let e := { work 2 2 with
        aux2 := 3
        pre := [some 1, some 0, some 0, some 0, none, some 0, some 0, some 0] };
      let got := [(0x103, [some 7, some 8, some 9])];
      e.op = 2 ∧ 1 < e.len ∧ (e.pre.drop (4 * 0)).take 4 = [some (1 : Byte), some 0, some 0, some 0] ∧ (∀ g ∈ got, none ∉ g.2) ∧ 2 < e.aux2 ∧
        gotByte got (e.src + 1 * e.aux2 + 2) = some 9 ∧ (∃ g ∈ [(0x103, [(none : Option Byte)])], none ∈ g.2) ∧ none ∈ (e.pre.drop (4 * 1)).take 4) ∧
    (let e := { work 3 32 with aux := 0x200 };
      let got := [(0x100, List.replicate 24 (some (0xFF : Byte))), (0x200, [some 9])];
      e.op = 3 ∧ e.len % 32 = 0 ∧ (∀ k < 3, gotByte got (e.src + 3 * (31 / 4) + k) = some 0xFF) ∧ gotByte got (e.aux + 0) = some 9 ∧
        sameValue6 false 63 0xCF ∧ sameValue6 true 63 0xCF) ∧
    (∀ m ∈ [some 4, none], let e := { work 4 4 with pre := [m] };
      let got := [(0x100, [some (7 : Byte), some 8])];
      e.op = 4 ∧ e.len % 4 = 0 ∧ e.pre[0 / 2]? = some m ∧ gotByte got (e.src + 2 * 1 * 0 + 1) = some 8) ∧
    (let e := { work 5 64 with dst := someDa.toNat };
      let got := [(0x100, List.replicate 64 (some (3 : Byte)))];
      e.op = 5 ∧ (∀ k < 64, gotByte got (e.src + 64 * 0 + k) = some 3) ∧ gotByte [(0x100, [some (3 : Byte)])] (e.src + 64 * 0 + 63) = none ∧ 64 * 0 + 64 ≤ e.len ∧
        e.dst < 2 ^ 64 ∧ e.dst % 2 ^ 21 + e.len ≤ 0x200000 ∧ ((inM.core 0).checkDa inM.panel (list 15).mode (BitVec.ofNat 64 e.dst) 64).toOption = some (inM.panel, 511)) := by
  unfold sameValue6
  repeat' apply And.intro
  all_goals decide +kernel

/-- An operation of a core's Thresher. -/
def thOp (slot : Nat) (joined : Option (Nat × Nat)) : ThOp :=
  { oid := 0xFFFF, tile := 6, slot := slot, mode := .m, wlocwin := 0, access := 7, joined := joined, drain := false, drainTile := none, eovf := true }

/-- `base` with operations on its Thresher, and a value in x1. -/
def threshing (a : Word) (l : List ThOp) : State := (base.setX 1 a).modHere fun k => { k with th := { k.th with ops := l } }

/-- A REDUCE of FP32 in 8 planes with explicit exponent, counter 63, of so many elements. -/
def reduceDesc (elems : Nat) : PlaneDesc := planeDesc (BitVec.ofNat 512 (5 + 2 * 2 ^ 16 + 63 * 2 ^ 18 + 6 * 2 ^ 32 + elems * 2 ^ 192))

/-- A rank of it on a core. -/
def rankOf (core elems : Nat) (send recv : Bool) : Rank :=
  { core := core, oid := 0xFFFF, desc := reduceDesc elems, rejected := false, ending := none, ended := false, send := send, recv := recv, scale := 0, codes := [], raw := [],
    exps := [], estars := 0, sent := 0, stopped := false, frozen := false, blocks := [], least := 0, raises := [] }

/-- The operation of group 0 with these ranks. -/
def planeOp (ranks : KMap Rank) : PlaneOp :=
  { group := 0, generation := 1, tile := 6, members := [0, 1], combine := .add, joined := [0, 1], ranks := ranks, ref := some (reduceDesc 64), faulted := false, aovf := false,
    tree := treeOf [0, 1], inputs := [], estar := [], out := [], sent := 0, cancels := [], begun := [], waits := [], places := [], tails := [], halting := false, drains := [] }

/-- `base` with that operation as number 3, a message of a generation on its way from one node to another, and the group. -/
def planing (o : PlaneOp) (src dst generation : Nat) (b : Body) : State :=
  { base.modSow fun w => { w with groups := [(0, pair)] } with
    planes := [(3, o)]
    net := [(5, { net := .pln, src := src, dst := dst, body := b, generation := generation, crossed := 0, due := 0, eject := 0, route := [] })] }

theorem planing_carries (o : PlaneOp) (src dst : Nat) (b : Body) : carriesPlane (planing o src dst 1 b) 5 3 o src dst b :=
  ⟨{ net := .pln, src := src, dst := dst, body := b, generation := 1, crossed := 0, due := 0, eject := 0, route := [] }, rfl, rfl, rfl, rfl, rfl,
    by simp [planing, State.group, KMap.get, State.modSow, pair]⟩

theorem test_witness_ThresherInstructionResults :
    (base.Running ∧ base.Full (.x 1) ∧ base.Free (.x 3)) ∧ ((threshing 1 []).x 1).toNat % 64 ≠ 0 ∧
    (((threshing 0x200000 []).x 1).toNat % 64 = 0 ∧ 0x200000 ≤ ((threshing 0x200000 []).x 1).toNat) ∧
    (let s := (threshing 0x1DFFC0 []).modMe fun t => { t with mode := .m };
      (s.x 1).toNat % 64 = 0 ∧ (s.x 1).toNat + 64 ≤ 0x1E0000 ∧ s.me.mode = .m ∧ s.Unheld ∧ s.here.th.ops.length < 8) ∧
    8 ≤ (threshing 0 (List.replicate 8 (thOp 2 none))).here.th.ops.length ∧
    (let s := threshing 9 [thOp 2 none];
      (∀ o ∈ s.here.th.ops, o.oid ≠ field (s.x 1) 0 16 ∧ o.tile ≠ field (s.x 1) 0 16) ∧ (s.x 1).getLsbD 63 = false) ∧
    (let s := threshing 0xFFFF [thOp 2 none];
      s.here.th.ops = [thOp 2 none] ∧ (thOp 2 none).oid = field (s.x 1) 0 16 ∧ (thOp 2 none).joined = none ∧ (s.x 1).getLsbD 63 = false) ∧
    (let s := threshing (BitVec.ofNat 64 (2 ^ 63)) [thOp 1 none];
      (s.x 1).getLsbD 63 = true ∧ ∃ o ∈ s.here.th.ops, o.slot = s.curSlot) ∧
    (let s := threshing (BitVec.ofNat 64 (2 ^ 63)) [thOp 2 none];
      (s.x 1).getLsbD 63 = true ∧ (∀ o ∈ s.here.th.ops, o.slot ≠ s.curSlot) ∧ s.me.wait = none) ∧
    (let r := rankOf 0 64 true true;
      let x := planeOp [(1, r)];
      let s := { threshing 6 [thOp 2 (some (3, 1))] with planes := [(3, x)] };
      s.here.th.ops = [thOp 2 (some (3, 1))] ∧ (thOp 2 (some (3, 1))).tile = field (s.x 1) 0 16 ∧ KMap.get s.planes 3 = some x ∧ KMap.get x.ranks 1 = some r ∧ r.recv = true ∧
      r.ending = none ∧ r.desc.cnt < 64) := by
  repeat' apply And.intro
  all_goals decide +kernel

/-- An UP message of 32 equal integers. -/
def upOf32 (i : Int) : UpMsg := { ints := List.replicate 32 i, nan := 0, pinf := 0, minf := 0, ovf := false }

/-- A block of a receiver that has its HEADER. -/
def landedBlock : Landed := { exp := 100, signs := 5, codes := [], verb := false, mags := List.replicate 32 0, planes := 0 }

/-- An operation whose only rank is the greatest member index, on core 0. -/
def soleRank (r : Rank) : PlaneOp := { planeOp [(65535, r)] with
  joined := [65535]
  members := [0]
  ref := none }

/-- An operation whose ranks, on cores 0, 1 and 2 in a row, all send and receive. -/
def row3 : PlaneOp := { planeOp [(0, rankOf 0 64 true true), (1, rankOf 1 64 true true), (2, rankOf 2 64 true true)] with
  members := [0, 1, 2]
  tree := treeOf [0, 1, 2] }

/-- The operation with one input held for a combine. -/
def holding (o : PlaneOp) (node branch : Nat) (b : Body) : PlaneOp :=
  { o with inputs := [{ node := node, branch := branch, msg := none, body := b }] }

/-- The operation with one receiver, on core 0, a block of whose tile is on its way to a row that its bank is to grant now. -/
def landingRow (r : Rank) (row : Nat) (b : Body) : State :=
  (planing (planeOp [(1, r)]) 0 0 1 b).modCore 0 fun k => { k with bank := [{ cls := .inbound, bank := row % 32, first := 0, act := .planeRow 5 row }] }

theorem landingRow_carries (r : Rank) (row : Nat) (b : Body) : carriesPlane (landingRow r row b) 5 3 (planeOp [(1, r)]) 0 0 b :=
  ⟨{ net := .pln, src := 0, dst := 0, body := b, generation := 1, crossed := 0, due := 0, eject := 0, route := [] }, rfl, rfl, rfl, rfl, rfl,
    by simp [landingRow, planing, State.group, State.modCore, KMap.get, State.modSow, pair]⟩

theorem test_witness_PlaneLandings :
    (∀ b : Bool, let r := { rankOf 0 64 true true with
        frozen := b
        blocks := [(1, landedBlock)] };
      let s := fun body => landingRow r 2 body;
      (∀ body ∈ [Body.header 3 0 1 1 100 0 5 8 [], .header 3 0 1 1 100 1 5 8 (List.replicate 32 0x7FC00000), .plane 3 0 1 1 7 1 9], carriesPlane (s body) 5 3 (planeOp [(1, r)]) r.core r.core body ∧
        ((s body).core r.core).bank = [{ cls := .inbound, bank := 2, first := (s body).cycle, act := .planeRow 5 2 }] ∧ ((s body).core r.core).lastGrant = []) ∧
      r.frozen = b ∧ (1 : BitVec 4).getLsbD 0 = true ∧ (List.replicate 32 0x7FC00000).length = 32 ∧ KMap.get r.blocks 1 = some landedBlock ∧ landedBlock.mags.length = 32 ∧
      r.ending = none ∧ r.desc.cnt < 64) := by
  intro b
  refine ⟨fun body _ => ⟨landingRow_carries _ _ _, rfl, rfl⟩, rfl, rfl, rfl, rfl, rfl, rfl, (by decide +kernel : (reduceDesc 64).cnt < 64)⟩

theorem test_witness_PlaneOperationsRun :
    (let r := rankOf 0 64 true true;
      let o := soleRank r;
      KMap.get (planing o 1 0 1 (.marker 0)).planes 3 = some o ∧ KMap.get o.ranks 65535 = some r ∧ 65535 < 65536 ∧ 0 + 1 < r.desc.sourceBlocks ∧ r.codes.length = 32 * 0 ∧
      r.desc.sfmt = 0) ∧
    (let r := rankOf 0 64 true true;
      let o := planeOp [(1, r)];
      1 ≠ r.core ∧ carriesPlane (planing o 1 r.core 1 (.eround 3 true 64 [7, 9])) 5 3 o 1 r.core (.eround 3 true 64 [7, 9]) ∧ carriesPlane (planing o 1 r.core 1 (.eround 3 true 0 [7])) 5 3 o 1 r.core (.eround 3 true 0 [7]) ∧ o.rankAt r.core = some (1, r) ∧ r.send = true ∧
      r.rejected = false) ∧
    (∀ op ∈ [AtomicOp.add, .max, .min], let u := upOf32 (-(2 ^ 63)); let v := upOf32 (2 ^ 63 - 1);
      (let o := holding { row3 with combine := op } 1 1 (.up 3 1 v);
        carriesPlane (planing o 2 1 1 (.up 3 1 u)) 5 3 o 2 1 (.up 3 1 u) ∧ o.branches 1 o.senders = [1, 2] ∧ o.waits = [] ∧ o.places = [] ∧ u.ints.length = 32 ∧
        v.ints.length = 32 ∧ (∀ k ∈ u.ints ++ v.ints, -(2 ^ 63) ≤ k ∧ k < 2 ^ 63) ∧ o.combine = op ∧ o.tree.parent 1 = some 0) ∧
      (let o := holding { row3 with combine := op } 0 0 (.up 3 1 v);
        carriesPlane (planing o 1 0 1 (.up 3 1 u)) 5 3 o 1 0 (.up 3 1 u) ∧ o.branches 0 o.senders = [0, 1] ∧ o.tree.parent 0 = none ∧ o.ref = some (reduceDesc 64) ∧
        o.out = [])) ∧
    (let o := holding row3 1 1 (.eround 3 false 64 [0, 255]);
      carriesPlane (planing o 2 1 1 (.eround 3 false 64 [7, 9])) 5 3 o 2 1 (.eround 3 false 64 [7, 9]) ∧ o.branches 1 o.senders = [1, 2] ∧ o.waits = [] ∧ o.places = [] ∧
      (∀ e ∈ [7, 9] ++ [0, 255], e < 256) ∧ o.tree.parent 1 = some 0) ∧
    (let r := rankOf 0 64 true true;
      let o := planeOp [(1, r)];
      r.recv = true ∧ r.frozen = false ∧ r.desc.planes ≠ 0 ∧ r.least = 0 ∧ 1 < r.desc.destElems / 32 ∧
      carriesPlane (planing o r.core r.core 1 (.header 3 0 1 1 100 0 5 8 [])) 5 3 o r.core r.core (.header 3 0 1 1 100 0 5 8 [])) ∧
    (let r := { rankOf 0 32 true true with blocks := [(0, landedBlock)] };
      let o := planeOp [(1, r)];
      r.desc.destElems = 32 ∧ 7 < r.desc.planes ∧ KMap.get r.blocks 0 = some landedBlock ∧ landedBlock.mags.length = 32 ∧
      carriesPlane (planing o r.core r.core 1 (.plane 3 0 1 0 7 8 1)) 5 3 o r.core r.core (.plane 3 0 1 0 7 8 1)) ∧
    (let r := { rankOf 0 32 true true with raises := [(0, 3)] };
      r.raises = [(base.cycle, 3)] ∧ r.desc.cnt < 64) ∧
    (let r := rankOf 0 64 true false;
      let o := soleRank r;
      o.ranks = [(65535, r)] ∧ o.members = [r.core] ∧ o.joined = [65535] ∧ o.ref = none ∧ o.faulted = false ∧ r.rejected = false ∧ r.desc.badShared = false ∧ r.send = true ∧
      r.recv = false ∧ r.codes = [] ∧ 0 < r.desc.sourceWidth) ∧
    (let o := { row3 with
        cancels := [(1, 1)]
        begun := [1] };
      carriesPlane (planing o 2 1 1 (.cancel 3 none)) 5 3 o 2 1 (.cancel 3 none) ∧ o.tree.parent 1 = some 0 ∧ o.mask 1 = [2] ∧ (o.reduces = true → 1 ∈ o.begun) ∧
      o.waits = [] ∧ o.places = []) ∧
    (let r := rankOf 0 64 true false;
      let o := planeOp [(1, r)];
      carriesPlane (planing o 1 r.core 1 (.cancel 3 (some 1))) 5 3 o 1 r.core (.cancel 3 (some 1))) ∧
    (let s := planing row3 1 16383 2 (.cancel 3 none);
      let x : Msg := { net := .pln, src := 1, dst := 16383, body := .cancel 3 none, generation := 2, crossed := 0, due := 0, eject := 0, route := [] };
      KMap.get s.net 5 = some x ∧ (s.group (x.generation / 16)).generation ≠ x.generation % 16 ∧ 16383 < relayBase) ∧
    (let r := { rankOf 0 64 true true with ending := some 1 };
      let z := thOp 15 (some (3, 65535));
      let s := { planing (soleRank r) 1 0 1 (.marker 0) with cores := [(0, { Core.reset with th := { Core.reset.th with ops := [z] } })] };
      KMap.get s.planes 3 = some (soleRank r) ∧ r.ending = some 1 ∧ r.ended = false ∧ (s.core r.core).th.ops = [z] ∧ z.oid = r.oid ∧ z.slot < 16 ∧
      z.joined = some (3, 65535)) := by
  refine ⟨by decide +kernel, ⟨by decide, planing_carries _ _ _ _, planing_carries _ _ _ _, by decide +kernel⟩, fun op h => ⟨⟨planing_carries _ _ _ _, ?_⟩, planing_carries _ _ _ _, ?_⟩,
    ⟨planing_carries _ _ _ _, by decide +kernel⟩, ⟨rfl, rfl, by decide +kernel, rfl, by decide +kernel, planing_carries _ _ _ _⟩,
    ⟨by decide +kernel, by decide +kernel, by decide +kernel, by decide +kernel, planing_carries _ _ _ _⟩, by decide +kernel, by decide +kernel,
    ⟨planing_carries _ _ _ _, by decide +kernel⟩, planing_carries _ _ _ _, by decide +kernel, by decide +kernel⟩
  · revert op
    decide +kernel
  · revert op
    decide +kernel

/-- An operation one of whose cores has halted. -/
def halting (o : PlaneOp) : PlaneOp := { o with halting := true }

theorem test_witness_PlaneOperationsEnd :
    (let r := rankOf 0 64 true true;
      let o := planeOp [(1, r)];
      r.ended = false ∧ o.faulted = false ∧ o.halting = false ∧ r.ending = none ∧ r.desc.cnt < 64) ∧
    (∀ n ∈ [3, 4], let o := halting (planeOp [(1, rankOf 0 64 true true)]);
      let s := { planing o 0 1 1 (.cancel n none) with sec := { base.sec with haltAll := true } };
      o.halting = true ∧ s.haltSettled 3 o = (n == 4)) ∧
    (let r := { rankOf 0 32 true true with
        blocks := [(0, { landedBlock with planes := 6 })]
        least := 6 };
      6 < 7 ∧ 7 < r.desc.planes ∧ ¬ r.least < 6 ∧ r.least < 7 ∧ KMap.get r.blocks 0 = some { landedBlock with planes := 6 }) := by
  repeat' apply And.intro
  all_goals decide +kernel

/-- A module after reset but for its state. -/
def moduleOf (st : LinkSt) : Module := { Module.reset with st := st }

/-- A launch of slot 15 of core 0 with a record. -/
def launch (record : List Word) : Launch := { id := 4, source := .slot 0 15, record := record, user := false }

/-- `base` with a launch in the Sower's inbox, whose slot waits for it. -/
def launching (record : List Word) : State :=
  (base.modSlot 0 15 fun t => { t with issued := some 4 }).modSow fun w => { w with inbox := [launch record] }

/-- The header of an unsigned image of one core of one die, of 128 bytes, with one crew. -/
def header : BitVec 512 := BitVec.ofNat 512 (0x574F532E + 2 ^ 32 + 7 * 2 ^ 64 + 128 * 2 ^ 192 + 2 ^ 224 + 64 * 2 ^ 320)

/-- Its bytes in HBM at the first address, and space 7 in the ASID table. -/
def imaged : State :=
  let s := (launching (BitVec.ofNat 64 (2 ^ 48) :: List.replicate 7 0)).modSow fun w => { w with
    inbox := []
    asid := [(7, BitVec.ofNat 64 (2 ^ 63))] }
  { s with mem := s.mem.writeAll (2 ^ 48) (leBytes 64 header.toNat) }

/-- How an image's sections are read is open: with this reading, and no fuse for signatures, the image is valid. -/
theorem imaged_reads (h : Config.imageBody (imaged.mem.bytes 128 (2 ^ 48)) = some { crews := [crew], chans := [], groups := [], sizes := [] }) (hf : Config.sigFuse = false) :
    (imaged.readImage (2 ^ 48)).1 = some (image, imaged.mem.bytes 64 (2 ^ 48) ++ imaged.mem.bytes 128 (2 ^ 48)) := by
  have e0 : imaged.physOk (2 ^ 48) .read .m 8 false = true := by decide +kernel
  have e1 : imaged.readRow (2 ^ 48) 64 = (some (imaged.mem.bytes 64 (2 ^ 48)), imaged) := by decide +kernel
  have e2 : imaged.readRow (2 ^ 48) 128 = (some (imaged.mem.bytes 128 (2 ^ 48)), imaged) := by decide +kernel
  have e3 : BitVec.ofNat 512 (leNat (imaged.mem.bytes 64 (2 ^ 48))) = header := by decide +kernel
  have e4 : headerOk header = true := by decide +kernel
  have e5 : field header 192 32 = 128 := by decide +kernel
  have e6 : imaged.physOk (2 ^ 48 + 128 - 1) .read .m 1 false = true := by decide +kernel
  have e7 : field header 480 32 = 0 := by decide +kernel
  have e8 : image.ok = true := by decide +kernel
  have e9 : imaged.signatureOk header (imaged.mem.bytes 128 (2 ^ 48)) = true := by
    have : imaged.sec.sigreq = false := by decide +kernel
    simp [State.signatureOk, e7, this, hf]
  have e10 : imageOf header (imaged.mem.bytes 128 (2 ^ 48)) = some image := by
    simp only [imageOf, h]
    decide +kernel
  simp only [State.readImage, e0, e1, e2, e3, e4, e5, e6, e7, e8, e9, e10]
  rfl

theorem test_witness_LaunchesAreAnswered :
    (base.Running ∧ base.me.issued = none ∧ base.Full (.x 1) ∧ base.Free (.x 3)) ∧ ((base.setX 1 1).x 1).toNat % 64 ≠ 0 ∧ 0x200000 ≤ ((base.setX 1 0x200000).x 1).toNat ∧
    (let s := inM.setX 1 0x1DFFC0;
      (s.x 1).toNat % 64 = 0 ∧ (s.x 1).toNat + 64 ≤ 0x1E0000 ∧ s.me.mode = .m ∧ s.me.accs = [] ∧ s.here.poisoned (s.x 1).toNat 64 = false) ∧
    (accessing .glb .panel).me.accs ≠ [] ∧
    (base.launchOf = none ∧ base.firstShut (route base.curCore relayBase true) = none ∧ base.firstShut (route relayBase base.curCore true) = none) ∧
    (∀ p ∈ [(LinkSt.train, false), (.down, true)], let s := { base with modules := [(34, moduleOf p.1)] };
      s.firstShut (route s.curCore relayBase true) = some (34, 0) ∧ s.firstShut (route relayBase s.curCore true) = some (34, 1) ∧ s.discards 34 = p.2) ∧
    (let s := (base.modMe fun t => { t with issued := some 4 }).modSow fun w => { w with answers := [(4, 65)] };
      s.me.issued = some 4 ∧ s.launchOf = some 4 ∧ KMap.get s.sow.answers 4 = some 65) ∧
    (let s := (base.modMe fun t => { t with wait := some { kind := .resumed, since := 0, serial := 3 } }).modHere fun k => { k with sows := [(1, 4)] };
      s.launchOf = some 4 ∧ s.me.issued = none ∧ s.me.waitKind = some .resumed) ∧
    (KMap.get base.sow.answers 4 = none ∧ base.me.waitKind ≠ some .resumed) ∧
    (let s := launching [1];
      s.sow.inbox = [launch [1]] ∧ (launch [1]).source = .slot 0 15 ∧ (s.slot 0 15).issued = some (launch [1]).id ∧ field ((launch [1]).word 0) 0 12 ≠ 0) ∧
    (let l := launch (BitVec.ofNat 64 (2 ^ 48) :: List.replicate 7 0);
      let s := launching l.record;
      s.recordOk l = true ∧ field (l.word 0) 48 16 = 1 ∧ ((s.modSow fun w => { w with inbox := [] }).readImage (l.word 0).toNat).1 = none ∧ s.sow.sheaves = [] ∧
      (∀ k < 4, l.word (2 + k) = 0) ∧ imaged.launchStatus l image image.asid = 0 ∧ imaged.launchStatus l { image with dies := 33 } image.asid = 2 ∧
      imaged.launchStatus l image 8 = 5) := by
  repeat' apply And.intro
  all_goals decide +kernel

/-- The Sower with a sheaf as ticket 1, space 7 valid. -/
def sowing (h : Sheaf) : State := base.modSow fun w => { w with
  sheaves := [(1, h)]
  asid := [(7, BitVec.ofNat 64 (2 ^ 63))] }

theorem sheaf_oneCore (st : SheafSt) : OneCore (sheaf st) 1 16383 :=
  ⟨⟨_, rfl, by decide, rfl, by decide, by decide, by decide⟩, ⟨(by decide : field (64 : Word) 0 6 = 0), (by decide : 1 = (64 : Word).toNat / 64)⟩, ⟨rfl, rfl, rfl⟩, ⟨rfl, rfl, rfl, rfl, rfl⟩, rfl⟩

theorem test_witness_SheavesArePlacedAndStarted :
    (let h := { sheaf .queued with places := [] };
      let s := sowing h;
      s.sow.sheaves = [(1, h)] ∧ h.image.dies = 1 ∧ h.image.groups = [] ∧ h.image.wireMask = 0 ∧ s.sow.held = [] ∧ s.sow.placing = none ∧ h.home = s.panel ∧ h.here = s.panel ∧ 1 = h.ticket.toNat / 64 ∧
      0 < h.image.rows ∧ 0 < h.image.cols ∧ s.panelsAfter none = [] ∧ ({ s with host := { s.host with route := [(63, 2 ^ 15)] } }.panelsAfter none).head? = some 63 ∧
      (s.asidEntry h.asid).getLsbD 63 = true ∧ placeable s (coreAt 0 0 0) ∧ 0 + h.image.rows ≤ 32 ∧ 0 + h.image.cols ≤ 16) ∧
    (let h := { sheaf .queued with image := { image with rows := 33 } };
      ∀ r, ¬ r + h.image.rows ≤ 32) ∧
    (let h := { sheaf .loading with awaits := [0] };
      KMap.get (sowing h).sow.sheaves 1 = some h ∧ OneCore h 1 16383 ∧ h.st = .loading ∧ h.awaits = [h.here]) ∧
    (KMap.get (sowing (sheaf .loading)).sow.sheaves 1 = some (sheaf .loading) ∧ OneCore (sheaf .loading) 1 16383 ∧ (sheaf .loading).awaits = [] ∧ (sheaf .loading).resumed = false ∧
      (sheaf .loading).image.crews = [crew] ∧ crew.selects 0 0 0 = true ∧ crew.text.length ≤ 0x1E0000 ∧ crew.dataAt + crew.data.length ≤ 0x1E0000 ∧
      crew.slots = [(14, 0, 0x400, 0)] ∧ (sowing (sheaf .loading)).firstShut (route relayBase 16383 false) = none ∧
      ∀ p ∈ [(LinkSt.held, false), (.down, true)], let s := { sowing (sheaf .loading) with modules := [(511, moduleOf p.1)] };
        s.firstShut (route relayBase 16383 false) = some (511, 1) ∧ s.discards 511 = p.2) ∧
    (let m : Msg := { net := .chn, src := 0, dst := 16383, body := .start 1, generation := 0, crossed := 0, due := 0, eject := 0, route := [] };
      let s := { sowing (sheaf .loading) with net := [(5, m)] };
      s.net = [(5, m)] ∧ m.route = [] ∧ m.due ≤ s.cycle ∧ (s.die (dieOf 16383)).origin ≤ s.cycle) ∧
    (let s := (sowing (sheaf .loading)).modSlot 16383 14 fun t => { t with pid := some 14 };
      s.net = [] ∧ (sheaf .loading).starting = 1 ∧ (s.slot 16383 14).st = .stopped ∧ (s.slot 16383 14).pid ≠ none ∧ (s.slot 16383 13).pid = none) := by
  refine ⟨⟨by decide +kernel, rfl, rfl, rfl, rfl, rfl, by decide +kernel, by decide +kernel, by decide, by decide, by decide, by decide +kernel, by decide +kernel, by decide +kernel, ⟨by decide +kernel, by decide +kernel, by decide +kernel⟩, by decide, by decide⟩,
    fun r => by show ¬ r + 33 ≤ 32; omega, ⟨by decide +kernel, { sheaf_oneCore .loading with }, by decide +kernel⟩,
    ⟨by decide +kernel, sheaf_oneCore _, by decide +kernel⟩, by decide +kernel, by decide +kernel⟩

theorem test_witness_SheavesAreSuspendedAndRetired :
    (∀ st, (sowing (sheaf st)).sow.sheaves = [(1, sheaf st)] ∧ OneCore (sheaf st) 1 16383 ∧ (sheaf st).st = st) ∧
    (let s := (sowing (sheaf .suspending)).modSlot 16383 14 fun t => { t with pid := some 14 };
      (s.slot 16383 14).pid ≠ none) ∧
    ((sowing (sheaf .started)).core 16383).eps = [] ∧ { sheaf .queued with done := 0 }.done = 0 ∧
    ({ sowing (sheaf .killing) with cycle := 12250 }.cycle = (sheaf .killing).roundStart + 12250) ∧ (sowing (sheaf .killing)).cycle ≠ (sheaf .killing).roundStart + 12250 ∧
    (let s := sowing (sheaf .retiring);
      s.cycle = (sheaf .retiring).round ∧ (sheaf .retiring).sumsAgree = true ∧ (sheaf .retiring).settled = true ∧ (sheaf .retiring).awaits = [] ∧ s.retireReady (sheaf .retiring) = true ∧ s.firstShut (route 16383 relayBase true) = none) ∧
    { sheaf .retiring with sums := [1, 0, 0, 0] }.sumsAgree = false ∧ { sheaf .retiring with settled := false }.settled = false ∧ 1 < 2 ^ 64 ∧
    (∀ p ∈ [(LinkSt.held, false), (.down, true)], let s := { sowing (sheaf .retiring) with modules := [(1484, moduleOf p.1)] };
      s.firstShut (route 16383 relayBase true) = some (1484, 1) ∧ s.discards 1484 = p.2) := by
  refine ⟨fun st => ⟨rfl, sheaf_oneCore st, rfl⟩, ?_⟩
  repeat' apply And.intro
  all_goals decide +kernel

/-- A group of which a generation may still have packets in flight under a tree. -/
def behind (t : Tree) (sweeping : Bool) (awaits : KMap Nat) : Group :=
  { pair with
    behind := [{ generation := 15, tree := t, sweeping := sweeping }, { generation := 0, tree := [], sweeping := false }]
    awaits := awaits }

/-- A marker of that generation on its way over a link. -/
def marker (src dst : Nat) : Msg :=
  { net := .pln, src := src, dst := dst, body := .marker 0, generation := 15, crossed := 0, due := 0, eject := 0, route := [] }

/-- `base` with that group, and a marker of the generation on its way over a link. -/
def marking (g : Group) (src dst : Nat) : State := { base.modSow fun w => { w with groups := [(0, g)] } with net := [(5, marker src dst)] }

/-- A tree that is entered from another panel at core 5. -/
def entered : Tree :=
  [{ node := 4000000, parent := none, children := [5], member := false }, { node := 5, parent := some 4000000, children := [6], member := false },
   { node := 6, parent := some 5, children := [], member := true }]

/-- A reservation for a ticket of a core and a group identifier. -/
def held (ticket : Word) : Held := { ticket := ticket, attempt := 7, cores := [0], wires := [], gids := [4095], asked := false }

/-- A message between Sowers from a panel. -/
def letter (panel : Nat) (b : Body) : Msg :=
  { net := .chn, src := 4000000 + panel * 2 ^ 21 + relayBase, dst := relayBase, body := b, generation := 0, crossed := 0, due := 0, eject := 0, route := [] }

/-- `base` with such a message, and space 7 valid. -/
def reserving (b : Body) : State := { base.modSow fun w => { w with asid := [(7, BitVec.ofNat 64 (2 ^ 63))] } with net := [(5, letter 1 b)] }

/-- The report of a sheaf of panel 1, of ticket 65, on the last core of this panel. -/
def share : Share :=
  { sid := 0, ticket := 65, prio := 0, asid := 7, image := image, places := [{ panel := 0, die := 31, row0 := 31, col0 := 15 }], groups := [], resumed := false, area := 0,
    saved := [], ops := [] }

theorem test_witness_GroupsReservationsAndAsids :
    (∀ w ∈ [false, true], let g := behind (treeOf [0, 511]) w [];
      KMap.get (marking g 0 0).sow.groups 0 = some g ∧ g.behind.map (·.generation) = [15, 0] ∧ (treeOf [0, 511]).root = some 0 ∧ (treeOf [0, 511]).children 0 ≠ [] ∧
      isForeign 0 = false) ∧
    ((treeOf [5]).root = some 5 ∧ (treeOf [5]).children 5 = [] ∧ { pair with behind := [] }.behind = []) ∧ (entered.root = some 4000000 ∧ isForeign 4000000 = true) ∧
    (let t := treeOf [0, 1, 2];
      let g := behind t true [];
      let s := marking g 0 1;
      KMap.get s.sow.groups 0 = some g ∧ g.behind.find? (fun b => b.generation == 15) = some { generation := 15, tree := t, sweeping := true } ∧ s.net = [(5, marker 0 1)] ∧
      (marker 0 1).route = [] ∧ (marker 0 1).due ≤ s.cycle ∧ (marker 0 1).generation = 16 * 0 + 15 ∧ t.parent 1 = some 0 ∧ t.children 1 ≠ [] ∧ isForeign 0 = false ∧
      t.parent 2 = some 1 ∧ t.children 2 = [] ∧ KMap.get g.awaits (16 * 2 + 15) = none ∧ t.parent 1 ≠ some 2 ∧ KMap.get g.awaits (16 * 1 + 15) = none) ∧
    (entered.parent 5 = some 4000000 ∧ entered.children 5 ≠ [] ∧ entered.parent 5 ≠ some 6) ∧
    (∀ k ∈ [1, 2], let g := behind entered true [(16 * 5 + 15, k), (16 * 0 + 15, k)];
      KMap.get g.awaits (16 * 5 + 15) = some k ∧ KMap.get g.awaits (16 * 0 + 15) = some k ∧ (1 < k ↔ k = 2) ∧ (treeOf [0, 1]).parent 0 = none ∧ none ≠ some 1) ∧
    (base.sow.sheaves = [] ∧ base.sow.foreign = [] ∧ field (BitVec.ofNat 64 (9 * 2 ^ 44)) 44 4 = 9 ∧ field (BitVec.ofNat 64 (8 * 2 ^ 44)) 44 4 = 8) ∧
    (let s := sowing (sheaf .started);
      s.sow.sheaves = [(1, sheaf .started)] ∧ (sheaf .started).asid = 7 ∧ (sheaf .started).sat = true ∧ field (1 : Word) 0 48 ≠ field (s.asidEntry 7) 0 48) := by
  refine ⟨by decide +kernel, by decide +kernel, by decide +kernel, by decide +kernel, by decide +kernel, by decide +kernel, by decide +kernel, by decide +kernel⟩

theorem test_witness_SowersReserve :
    (∀ n ∈ [7, 8], let s := reserving (.reserve 0 65 7 n 31 0 0 1 1 0 []);
      s.net = [(5, letter 1 (.reserve 0 65 7 n 31 0 0 1 1 0 []))] ∧ field (65 : Word) 0 6 ≠ s.panel ∧ s.sow.held = [] ∧ 31 + 1 ≤ 32 ∧ 0 + 1 ≤ 16 ∧ placeable s (coreAt 31 0 0) ∧
      (s.asidEntry n).getLsbD 63 = (n == 7)) ∧
    (∀ d r c, ¬ (31 ≤ d ∧ d < 32 ∧ r + 33 ≤ 32 ∧ c + 1 ≤ 16)) ∧
    (∀ n ∈ [15, 16], let s := (reserving (.reserve 3 65 7 0 n 0 0 0 0 0 [4095])).modSow fun w => { w with groups := [(4095, { behind [] false [] with used := false })] };
      field (65 : Word) 0 6 ≠ s.panel ∧ [4095].getLast?.getD 0 ≤ 4095 ∧ (s.group 4095).used = false ∧ 4095 ∉ [4095].dropLast ∧ [4095].getLast? = some 4095 ∧
      ((∀ b ∈ (s.group 4095).behind, b.generation ≠ if n = 16 then (s.group 4095).generation else n) ↔ n = 16)) ∧
    (∀ k, ¬ ([4096].getLast?.getD 0 ≤ k ∧ k < 4096)) ∧
    (∀ n ∈ [1, 129], let y := BitVec.ofNat 64 n;
      let s := (reserving (.reserve 3 65 7 0 16 0 0 0 0 0 [4095])).modSow fun w => { w with held := [held y] };
      s.sow.held = [held y] ∧ (held y).ticket ≠ 65 ∧ 4095 ∈ (held y).gids ∧ ((held y).ticket.toNat < 65 ↔ n = 1) ∧ s.sow.placing = none ∧ (held y).asked = false ∧
      s.sow.deferred = [] ∧ ∀ b ∈ (s.group 4095).behind, b.generation ≠ (s.group 4095).generation) ∧
    (let s := (reserving (.reserve 1 65 7 0 0 0 0 0 0 0 [])).modSow fun w => { w with
        held := [held 65]
        deferred := [.reserve 3 66 7 0 16 0 0 0 0 0 [4095]] };
      field (65 : Word) 0 6 ≠ s.panel ∧ s.sow.held = [held 65] ∧ (held 65).ticket = 65 ∧ (66 : Word) ≠ 65 ∧ field (66 : Word) 0 6 ≠ s.panel ∧
      s.sow.deferred = [.reserve 3 66 7 0 16 0 0 0 0 0 [4095]] ∧ (s.group 4095).used = false ∧ ∀ b ∈ (s.group 4095).behind, b.generation ≠ (s.group 4095).generation) ∧
    (∀ k ∈ [1, 2], ∀ rows ∈ [0, 1], let h := { sheaf .queued with
        places := []
        image := { image with dies := 2 } };
      let p : Placing := { sheaf := 1, attempt := 7, places := [{ panel := 0, die := 5, row0 := 0, col0 := 0 }], gids := [], panel := 1, agree := [] };
      let s := { (sowing h).modSow fun w => { w with placing := some p } with net := [(5, letter 1 (.reserve k 64 7 0 0 0 0 rows 1 0 []))] };
      field (64 : Word) 0 6 = s.panel ∧ s.sow.placing = some p ∧ s.ticketWord p.sheaf = 64 ∧ p.sheaf = (64 : Word).toNat / 64 ∧ p.attempt = 7 ∧ s.sheaf p.sheaf = some h ∧
      h.ticket = 64 ∧ h.here = s.panel ∧ panelTo (letter 1 (.marker 0)).src = p.panel ∧ p.panel ≠ s.panel ∧ p.agree = [] ∧ p.places.length + 1 = h.image.dies ∧
      h.image.groups = [] ∧ p.gids = []) ∧
    (base.panelsAfter (some 1)).head? = none ∧ ({ base with host := { base.host with route := [(2, BitVec.ofNat 64 (2 ^ 15))] } }.panelsAfter (some 1)).head? = some 2 ∧
    (∀ l ∈ [[], [held 65]], let s := (reserving (.commit share)).modSow fun w => { w with held := l };
      s.sow.held = l ∧ (held 65).ticket = share.ticket ∧ field share.ticket 0 6 ≠ s.panel ∧ s.sow.deferred = [] ∧ share.places.map (·.panel) = [s.panel]) := by
  refine ⟨?_, fun d r c => by omega, ?_, fun k => by simp, ?_, ?_, ?_, ?_, ?_, ?_⟩
  · unfold placeable
    decide +kernel
  all_goals decide +kernel

theorem test_witness_SowersAgree :
    (∀ m ∈ [SowerMsg.leave false, .leave true, .hold false, .hold true, .count 3], let h := { sheaf .started with ticket := 65 };
      let s := (reserving (.sower 65 m)).modSow fun w => { w with foreign := [(2 ^ 64 + 65, h)] };
      s.net = [(5, letter 1 (.sower 65 m))] ∧ field (65 : Word) 0 6 ≠ s.panel ∧ KMap.get s.sow.foreign (2 ^ 64 + (65 : Word).toNat) = some h ∧ h.ticket = 65 ∧ h.here = s.panel ∧
      h.st ≠ .loading ∧ h.cores ≠ [] ∧ ∀ r ∈ h.roundRoutes, s.firstShut r = none) ∧
    (∀ st ∈ [SheafSt.loading, .suspending, .killing, .leaving, .freeing], let h := { sheaf st with
        awaits := [1]
        done := 0 };
      let s := { sowing h with net := [(5, letter 1 (.sower 64 .left))] };
      field (64 : Word) 0 6 = s.panel ∧ s.sow.sheaves = [((64 : Word).toNat / 64, h)] ∧ h.awaits = [panelTo (letter 1 (.marker 0)).src] ∧ h.st = st ∧ h.done = 0) := by
  refine ⟨?_, ?_⟩ <;> decide +kernel

/-- `base` with a deposit about to cross module 5 at an end, the module as given. -/
def crossingAt (e : Nat) (x : Module) : State :=
  { base with
    nextId := 6
    net := [(5, { net := .dep, src := 0, dst := 16383, body := .dep (depositTo 16383), generation := 0, crossed := 0, due := 0, eject := 0, route := [(5, e, 3)] })]
    modules := [(5, x)] }

theorem crossingAt_crosses (e : Nat) (x : Module) (h : e < 2) :
    crossing (crossingAt e x) 5 5 e
      { net := .dep, src := 0, dst := 16383, body := .dep (depositTo 16383), generation := 0, crossed := 0, due := 0, eject := 0, route := [(5, e, 3)] } [] :=
  ⟨rfl, (by decide : 5 < 6), h, ⟨3, rfl⟩⟩

/-- A module after reset, in a state, with its first end as given. -/
def moduleIn (st : LinkSt) (f : LinkEnd → LinkEnd) : Module :=
  { Module.reset with
    st := st
    ends := Module.reset.ends.set 0 (f LinkEnd.reset) }

/-- A message in a replay buffer. -/
def buffered (msg tries : Nat) (received : Option Nat) : Buffered := { msg := msg, flits := 1, last := true, tries := tries, since := 0, received := received }

theorem test_witness_ModuleAndPortEvents :
    (∀ e < 2, crossing (crossingAt e Module.reset) 5 5 e
      { net := .dep, src := 0, dst := 16383, body := .dep (depositTo 16383), generation := 0, crossed := 0, due := 0, eject := 0, route := [(5, e, 3)] } []) ∧
    (let x := (crossingAt 1 Module.reset).module 5;
      x.st = .up ∧ (x.end_ 1).replay = [] ∧ (x.end_ 1).waiting = [] ∧ (x.end_ 1).partly = none) ∧
    64 < flitsOf (.header 3 0 1 1 100 0 5 65 []) ∧
    (∀ n ∈ [2, 3], let q : Msg :=
        { net := .dep, src := 0, dst := 4000000 + 2 ^ 21, body := .dep (depositTo 0), generation := 0, crossed := n, due := 0, eject := 0, route := [(10000, 0, 3)] };
      let s := { base with
        nextId := 6
        net := [(5, q)] };
      crossing s 5 10000 0 q [] ∧ isForeign q.dst = true ∧ (10000 ≤ 10000 ∧ 0 = 0 ∧ 3 ≤ q.crossed ↔ n = 3)) ∧
    (∀ st ∈ [LinkSt.held, .train, .drain, .down], let x := (crossingAt 0 (moduleIn st id)).module 5;
      x.st = st ∧ (x.end_ 0).replay = [] ∧ (x.end_ 0).waiting = [] ∧ x.hold = false) ∧
    (let s := crossingAt 0 (moduleIn .up fun e => { e with replay := List.replicate 64 (buffered 4 0 (some 9)) });
      let x := s.module 5;
      let n := flitsOf (.dep (depositTo 16383));
      x.st = .up ∧ 64 < (x.end_ 0).flits + min n 1 ∧ n ≤ 64 ∧ (∀ r ∈ (x.end_ 0).replay, r.msg ≠ 5) ∧ (x.end_ 0).waiting = []) ∧
    (∀ st ∈ [LinkSt.up, .drain], ∀ got ∈ [none, some 0], ∀ tries ∈ [15, 16], let r := buffered 5 tries got;
      let x := (crossingAt 0 (moduleIn st fun e => { e with replay := [r] })).module 5;
      (x.st = .up ∨ x.st = .drain) ∧ (x.end_ 0).replay = [r] ∧ (x.end_ 1).replay = [] ∧ r.received = got ∧ r.tries = tries ∧ r.msg = 5 ∧
      (got = none → (x.end_ 0).replay.find? (fun r => r.msg == 5 && r.received.isNone) = some r)) ∧
    ((buffered 5 0 (some 9)).since + 3500 < { base with cycle := 3501 }.cycle) ∧ (crossingAt 0 Module.reset).limitReached 5 = false ∧
    base.sec.haltAll = false ∧
    (let x := moduleIn .held fun e => { e with cmd := 1 };
      x.st = .held ∧ (x.end_ 0).cmd = 1#2 ∧ (x.end_ 0).lremap = 0) ∧
    (let x := moduleIn .train fun e => { e with
        hold := true
        waiting := [5]
        partly := some (5, 1)
        replay := [buffered 5 0 (some 0)] };
      x.st = .train ∧ x.byLimit = false ∧ x.hold = true ∧ (∀ e < 2, ∀ r ∈ (x.end_ e).replay, r.received ≠ none) ∧ (x.end_ 0).waiting = [5]) ∧
    ((moduleIn .held id).end_ 0).cmd ≠ 1#2 ∧ ((moduleIn .train id).st = .train ∧ (moduleIn .train id).byLimit = false) ∧
    (let d := depositTo 0;
      KMap.get (flying 0 (.loss (.dep d))).net 5 =
        some { net := .dep, src := 0, dst := 0, body := .loss (.dep d), generation := 0, crossed := 0, due := 0, eject := 0, route := [] } ∧ d.cnt = some 63) ∧
    (let p := fun st ctl => { base with
        ports := [(31, { Port.reset with ctl := ctl })]
        modules := [(10031, moduleOf st)] };
      (((p .up 1).port 31).ctl.getLsbD 0 = true ∧ ((p .up 1).module (10000 + 31)).st = .up) ∧
      (((p .held 2).port 31).ctl.getLsbD 0 = false ∧ ((p .held 2).module (10000 + 31)).st = .held ∧ (p .held 2).sec.haltAll = false) ∧
      (let c := ((p .held 0x12).port 31).ctl;
        field c 4 2 = 1 ∧ field c 2 2 ≠ 3 ∧ c.getLsbD 1 = true) ∧ ((p .up 0).port 31).ctl.getLsbD 1 = false ∧
      ((p .train 0).module (10000 + 31)).st = .train ∧ ((p .train 0).module (10000 + 31)).byLimit = false) ∧
    { base.sec with haltAll := true }.haltAll = true ∧
    (base.sec.enables.filter fun t => decide ((base.clock 0).toNat < t + 1000000000)).length < 8 ∧
    (let s := { base with sec := { base.sec with enables := List.replicate 8 0 } };
      8 ≤ (s.sec.enables.filter fun t => decide ((s.clock 0).toNat < t + 1000000000)).length) := by
  refine ⟨fun e h => crossingAt_crosses e _ h, by decide +kernel, by decide +kernel, fun n h => ⟨⟨rfl, (by decide : 5 < 6), by decide, ⟨3, rfl⟩⟩, rfl, ?_⟩, ?_⟩
  · revert n
    decide +kernel
  repeat' apply And.intro
  all_goals decide +kernel

/-- `base` with a submission queue of one place in HBM and its first entry placed, of this SEQ. -/
def submitted (seq : Nat) : State :=
  { base with
    host := { base.host with
      sq := BitVec.ofNat 64 (2 ^ 48)
      sqtail := 1 }
    mem := base.mem.writeAll (2 ^ 48 + 64) (leBytes 4 seq) }

theorem test_witness_HostQueueAndRegisters :
    (∀ n ∈ [1, 2], let s := submitted n;
      s.host.opened = true ∧ s.sec.haltAll = false ∧ s.host.sqerr = false ∧ s.host.sqdone ≠ s.host.sqtail ∧ s.host.pending = [] ∧ s.sow.inbox = [] ∧
      (s.host.sqdone + 1).toNat = 1 ∧ field s.host.sq 0 56 + 1 % 2 ^ field s.host.sq 60 4 * 128 = 2 ^ 48 ∧ s.physOk (2 ^ 48) .read .m 8 false = true ∧
      s.memPoisoned (2 ^ 48) 128 = false ∧ s.mem.load 4 (2 ^ 48 + 64) = n) ∧
    (∀ n ∈ [0, 1], let s := { base with host := { base.host with
        pending := [(1, 64, 0)]
        cqseq := BitVec.ofNat 32 n } };
      s.host.pending = [(1, 64, 0)] ∧ (s.host.cqseq - s.host.cqack = BitVec.ofNat 32 (2 ^ field s.host.cq 60 4) ↔ n = 1)) ∧
    (mmioKind (mmioAddr base 0 31 0x28) = 0 ∧ mmioIndex (mmioAddr base 0 31 0x28) = 31 ∧ mmioOff (mmioAddr base 0 31 0x28) = 0x28) ∧
    (mmioKind (mmioAddr base 2 0 0x600) = 2 ∧ mmioOff (mmioAddr base 2 0 0x600) = 0x600) := by
  repeat' apply And.intro
  all_goals decide +kernel

/-- `base` with the security processor as given. -/
def securing (f : Security → Security) : State := { base with sec := f base.sec }

theorem test_witness_SecurityProcessorEvents :
    base.sec.mextIndex = 0 ∧
    (let s := securing fun x => { x with
        mextIndex := 7
        mextAddr := BitVec.ofNat 64 (2 ^ 48)
        mextLen := 1
        mextBusy := true
        mextData := (2 ^ 48, 1) };
      let a := s.sec.mextAddr.toNat;
      let n := s.sec.mextLen.toNat;
      s.sec.mextIndex ≠ 0 ∧ 1 ≤ n ∧ n < 2 ^ 31 ∧ bitsOf a 48 16 = 1 ∧ s.physOk a .read .m 1 false = true ∧ s.physOk (a + n - 1) .read .m 1 false = true ∧
      s.sec.mextBusy = true ∧ s.sec.mextData = (a, n) ∧ s.sec.mextIndex < 8 ∧ s.memPoisoned a n = false ∧ { s with poison := [(2 ^ 40, 0)] }.memPoisoned a n = true) ∧
    (securing fun x => { x with erased := true }).sec.erased = true ∧
    (let s := securing fun x => { x with
        attAddr := BitVec.ofNat 64 (2 ^ 48)
        attBusy := true
        attArea := 2 ^ 48
        attNonce := List.replicate 64 9 };
      let a := s.sec.attAddr.toNat;
      s.sec.erased = false ∧ bitsOf a 48 16 = 1 ∧ a % 4096 = 0 ∧ s.physOk a .write .m 1 false = true ∧ s.physOk (a + 50879) .write .m 1 false = true ∧
      s.memPoisoned a 64 = false ∧ s.sec.attBusy = true ∧ s.sec.attArea = a ∧ s.sec.attNonce.length = 64) ∧
    (∀ p ∈ [(8, 1), (9, 2), (7, 3)], [0, 1, 2, 2, 2, 3, 3, 3, 1, 2][p.1]? = some p.2) ∧
    (∀ n ∈ [0, 7], let s := securing fun x => { x with
        pcap := 30000
        pthr := n };
      s.sec.pcap.toNat ≤ 30000 ∧ s.sec.pthr ≤ 7) := by
  repeat' apply And.intro
  all_goals decide +kernel

/-- `base` with 8-bit elements and BF16, rounding toward zero. -/
def narrow : State := base.modMe fun t => { t with u := { t.u with wvtype := 0x88 } }

theorem test_witness_VectorArithmeticResults :
    (base.Running ∧ base.Full (.v 15) ∧ base.Full (.v 0) ∧ base.Full (.x 31) ∧ base.Free (.v 15)) ∧ (sewOf base = 32 ∧ formatOf base = .fp32 ∧ roundingOf base = .rne) ∧
    (sewOf narrow = 8 ∧ formatOf narrow = .bf16 ∧ roundingOf narrow = .rtz) := by
  repeat' apply And.intro
  all_goals decide +kernel

theorem test_witness_HeldValuesRoundToThemselves :
    (0xFF7F < 2 ^ Fmt.bf16.width ∧ (Fmt.bf16.decode 0xFF7F).isNan = false ∧ (Fmt.bf16.decode 0xFF7F).finite = true) ∧
    (0x7C < 2 ^ Fmt.e5m2.width ∧ (Fmt.e5m2.decode 0x7C).isNan = false ∧ Rm.rne ≠ Rm.sat) ∧ ({ n := -1, e := -1074 } : Dyad).n ≠ 0 := by decide +kernel

theorem test_witness_VectorCompareResults : narrow.Running ∧ narrow.Full (.v 15) ∧ narrow.Full (.x 31) := by decide +kernel

theorem test_witness_VectorConversionResults :
    narrow.Running ∧ narrow.Full (.v 15) ∧ narrow.Free (.v 0) ∧
    (12 : BitVec 5) ∈ ([((8 : BitVec 5), BlockFmt.mx .e4m3, 8), (9, .mx .e5m2, 8), (10, .mx .e2m1, 4), (11, .dxb 6, 8), (12, .dxb 2, 4)].map fun p => p.1) := by decide +kernel

theorem test_witness_BlocksAreQuantised :
    (15 < 16) ∧ (∃ x ∈ [Num.fin { n := -3, e := 0 }, .inf true], x.finite = false) ∧ (∀ x ∈ [Num.fin { n := -3, e := 0 }, .zero true], x.finite = true) ∧
    (∀ x ∈ [Machine.Num.zero true, .zero false], x.dyad.n = 0) ∧ (∀ d, Num.fin d ∈ [Num.fin { n := -3, e := 0 }, .zero true] → d.n ≠ 0) ∧
    isLargest [Num.fin { n := -3, e := 0 }, .zero true] { n := -3, e := 0 } := by
  refine ⟨by decide, by decide +kernel, by decide +kernel, by decide +kernel, fun d h => ?_, ?_⟩
  · rcases List.mem_cons.1 h with h | h
    · cases h
      decide
    · cases List.mem_singleton.1 h
  · unfold isLargest
    decide +kernel

theorem test_witness_PermuteAndMaskResults :
    (narrow.Running ∧ narrow.Free (.v 15) ∧ narrow.Full (.v 15) ∧ narrow.Full (.v 14) ∧ narrow.Full (.x 31) ∧ narrow.Free (.x 31)) ∧ base.me.getM 7 = 0 ∧
    (let s := base.modMe fun t => t.setM 7 (BitVec.ofNat 128 (2 ^ 127));
      (s.me.getM 7).getLsbD 127 = true ∧ ∀ i < 127, (s.me.getM 7).getLsbD i = false) ∧
    (let v := (base.setX 1 0x8A).x 1;
      v.toNat < 256 ∧ field v 5 2 = 0 ∧ v.getLsbD 2 = false ∧ field v 3 2 ≠ 3 ∧ field v 0 2 ≠ 3) ∧
    field ((base.setX 1 0x18).x 1) 3 2 = 3 := by
  repeat' apply And.intro
  all_goals decide +kernel

theorem test_witness_ReductionResults :
    (narrow.Running ∧ narrow.Full (.v 15) ∧ narrow.Free (.x 31)) ∧
    (((List.range (1024 / sewOf narrow)).filter fun j => (narrow.me.getM 1).getLsbD j) = []) ∧ ((List.range (1024 / sewOf base)).filter fun j => (base.me.getM 0).getLsbD j) ≠ [] ∧
    (let s := base.modMe fun t => t.setM 1 (BitVec.ofNat 128 (2 ^ 31));
      (((List.range (1024 / sewOf s)).filter fun j => (s.me.getM 1).getLsbD j).map fun j => signedOf (sewOf s) (sourceElem s (.v 1) (sewOf s) j)) = [0]) ∧
    (∀ c ∈ [0x7F800001, 0x7FC00001], let s := (base.modMe fun t => t.setM 1 (BitVec.ofNat 128 (2 ^ 31))).setV 1 (BitVec.ofNat 1024 (c * 2 ^ (32 * 31)));
      (formatOf s).decode (sourceElem s (.v 1) (formatOf s).width 31) = .nan (c == 0x7F800001)) := by
  repeat' apply And.intro
  all_goals decide +kernel

/-- A request of the SFU queue. -/
def sfuReq (slot : Nat) (discarded : Bool) : SfuReq := { slot := slot, vd := 15, value := 5, flags := 1, discarded := discarded }

theorem test_witness_SfuRequestsAreServed :
    (base.Running ∧ base.Full (.v 1) ∧ base.Free (.v 15) ∧ ∀ q ∈ base.here.sfuq, q.slot ≠ base.curSlot) ∧
    (let s := base.modHere fun k => { k with sfuq := [sfuReq 1 false] };
      ∃ q ∈ s.here.sfuq, q.slot = s.curSlot) ∧
    (∀ b ∈ [false, true], let s := base.modHere fun k => { k with sfuq := [sfuReq 15 b, sfuReq 0 false] };
      (s.core 0).sfuq = sfuReq 15 b :: [sfuReq 0 false] ∧ (sfuReq 15 b).slot < 16 ∧ (s.core 0).sfuBusy = false) := by
  repeat' apply And.intro
  all_goals decide +kernel

theorem test_witness_SfuResults :
    Fmt.fp32.decode 0x7F800001 = .nan true ∧ Fmt.bf16.decode 0xFF80 = .inf true ∧ Fmt.fp16.decode 0x8000 = .zero true ∧ 0xFF80 < 2 ^ Fmt.bf16.width ∧
    (∃ d, Fmt.fp16.decode 0xC000 = .fin d ∧ d.n < 0 ∧ sameNumber d { n := -2, e := 0 }) ∧
    (∃ d, Fmt.fp16.decode 0x4C00 = .fin d ∧ 0 < d.n ∧ sameNumber d { n := 1, e := 4 } ∧ d.lt { n := 16, e := 0 } = false) ∧
    (∃ d, Fmt.fp32.decode 0x42800000 = .fin d ∧ Dyad.lt { n := d.n.natAbs, e := d.e } { n := 64, e := 0 } = false) ∧
    ∃ d, Fmt.bf16.decode 1 = .fin d ∧ Dyad.lt { n := d.n.natAbs, e := d.e } { n := 1, e := -40 } = true := by
  unfold sameNumber
  exact ⟨by decide +kernel, by decide +kernel, by decide +kernel, by decide +kernel, ⟨_, rfl, by decide +kernel⟩, ⟨_, rfl, by decide +kernel⟩, ⟨_, rfl, by decide +kernel⟩,
    _, rfl, by decide +kernel⟩

/-- `base` in M-mode with an address in x1, 1 in x2, and mask m1 of element 31. -/
def vectored (a : Word) : State := ((base.setX 1 a).setX 2 1).modMe fun t => { t.setM 1 (BitVec.ofNat 128 (2 ^ 31)) with mode := .m }

theorem test_witness_VectorMemoryAccesses :
    (let s := vectored (0x1E0000 - 128);
      s.Running ∧ s.Full (.x 1) ∧ s.Full (.x 2) ∧ s.Full (.v 3) ∧ s.Free (.v 3) ∧ sewOf s = 32 ∧ (s.me.getM 1).getLsbD 31 = true ∧
      (s.x 1 + BitVec.ofNat 64 (31 * 4)).toNat % 4 = 0 ∧ reaches s .read (s.x 1 + BitVec.ofNat 64 (31 * 4)).toNat 4 ∧
      reaches s .write (s.x 1 + BitVec.ofNat 64 (31 * 4)).toNat 4 ∧ s.Unheld ∧ s.here.gl.lists = []) ∧
    ((vectored 1).x 1 + BitVec.ofNat 64 (31 * 4)).toNat % 4 ≠ 0 ∧ ((vectored 0).x 1 + BitVec.ofNat 64 31 * (vectored 0).x 2).toNat % 4 ≠ 0 ∧
    0x200000 < ((vectored (0x200000 - 124)).x 1 + BitVec.ofNat 64 (31 * 4)).toNat + 4 ∧ (∀ j < 32, (vectored 0 |>.me.getM 2).getLsbD j = false) ∧
    (∀ op ∈ [LocalOp.vload 3 4 [(0, 0x1DFFF8), (31, 0x1DFFFC)], .vstore 4 [(0, 0x1DFFF8), (31, 0x1DFFFC)] 7],
      Alone (granting op) 0 15 { op := op, addr := 0x1DFFF8, rows := [30719], data := 0, poison := false }) ∧
    (∀ e ∈ [(0, 0x1DFFF8), (31, 0x1DFFFC)], e.2 / 64 = 30719 ∧ e.2 % 4 = 0 ∧ 8 * 4 * (e.1 + 1) ≤ 1024) ∧
    [(0, 0x1DFFF8), (31, 0x1DFFFC)].Pairwise (fun e f => e.1 < f.1 ∧ e.2 ≠ f.2) := by
  unfold reaches
  refine ⟨by decide +kernel, by decide +kernel, by decide +kernel, by decide +kernel, by decide +kernel, fun op _ => granting_alone op, by decide +kernel, by decide +kernel⟩

theorem test_witness_ResetsStartAgain :
    dieOf 16383 = 31 ∧ 31 < 32 ∧ 16383 < 16384 ∧ dieOf 0 ≠ 31 ∧ (∃ m ∈ dieModules 0, m % 72 / 18 % 2 = 1 ∧ m % 18 = 17) ∧ (∃ m ∈ dieModules 0, m % 18 ≠ 17) ∧
    base.sec.stage = 6 ∧ { base.sec with stage := 2 }.stage < 6 ∧ base.sec.haltAll = false ∧ { base.sec with haltAll := true }.haltAll = true := by
  decide +kernel

theorem test_witness_ResetAndFixedValues : base.curCore < 16384 ∧ base.Running ∧ base.here.trapq = [] := by decide +kernel

theorem test_witness_DecodingAnEncodedInstructionGivesIt : (Instr.vaddVx 15 14 31 7).wf = true ∧ (Instr.beq 31 30 0x800).wf = true := by decide +kernel

/-- `base` with the issue of slot 15 of core 0 next, in M-mode at an address. -/
def issuing (pc : Word) (st : SlotSt) (hold : Bool) : State :=
  { base with agenda := [{ cycle := 4, phase := 3, act := .issue 0 15 }] }.modSlot 0 15 fun t => { t with
    pc := pc
    st := st
    hold := hold
    mode := .m }

theorem test_witness_StepRunsTheDecodedInstruction :
    (let s := issuing 0x1FFFFC .ready false;
      s.agenda = [{ cycle := 4, phase := 3, act := .issue 0 15 }] ∧ s.halted 0 = false ∧ (s.slot 0 15).hold = false ∧ (s.slot 0 15).mem = none ∧ (s.slot 0 15).st = .ready ∧
      (s.slot 0 15).issueFrom ≤ 4 ∧ (s.slot 0 15).fetch = none ∧ (s.slot 0 15).mode = .m ∧ (s.slot 0 15).pc.toNat % 4 = 0 ∧ (s.core 0).spadPoison = [] ∧ (s.slot 0 15).pc.toNat < 0x200000) ∧
    ((issuing 0x1FFFFC .blocked false).slot 0 15).st = .blocked ∧ ((issuing 0x1FFFFC .ready false).fetchAt 0 15).toOption = some 0 ∧
    ((issuing 0x200000 .ready false).fetchAt 0 15).toOption = none ∧
    (let s := issuing 0 .ready true;
      (s.slot 0 15).hold = true ∧ (s.slot 0 15).st ≠ .stopped) ∧
    (let s := (issuing 0 .ready false).modSlot 0 15 fun t => { t with issueFrom := 5 };
      max s.cycle 4 < (s.slot 0 15).issueFrom ∧ (s.slot 0 15).st ≠ .stopped) ∧
    (let s := { base with agenda := [{ cycle := 4, phase := 1, act := .upset (.spad 0 0x3FFFF) }] };
      s.agenda = [{ cycle := 4, phase := 1, act := .upset (.spad 0 0x3FFFF) }]) ∧
    ((issuing 0 .faulted false).slot 0 15).st ∈ [SlotSt.walk, .page, .faulted] ∧
    (let s := { base with agenda := [{ cycle := 4, phase := 5, act := .event .sigreq }] };
      s.agenda = [{ cycle := 4, phase := 5, act := .event .sigreq }]) ∧ base.agenda = [] ∧
    (∀ b ∈ [false, true], let s := { issuing 0x1FFFFC .blocked b with agenda := [{ cycle := 4, phase := 3, act := .retest 0 15 }] }.modSlot 0 15 fun t => { t with
        wait := some { kind := .resumed, since := 0, serial := 3 } };
      s.agenda = [{ cycle := 4, phase := 3, act := .retest 0 15 }] ∧ (s.slot 0 15).waitKind = some .resumed ∧ (s.slot 0 15).st = .blocked ∧ (s.slot 0 15).hold = b ∧
      (s.fetchAt 0 15).toOption = some 0 ∧
      decode 0x0000000B = .ok .park ∧
      (let u := s.modCore 0 fun k => { k with spad := k.spad.writeAll 0x1FFFFC (leBytes 4 0x0000000B) };
        (u.fetchAt 0 15).toOption = some 0x0000000B)) := by
  repeat' apply And.intro
  all_goals first | decide +kernel | exact fun b h => ⟨rfl, rfl, rfl, rfl, by revert b; decide +kernel, rfl, by revert b; decide +kernel⟩

theorem test_witness_StepsKeepMemoryCanonical :
    Formed base ∧ ∃ t, step { base with agenda := [{ cycle := 4, phase := 5, act := .event .sigreq }] } = .next t :=
  ⟨⟨rfl, fun _ => rfl⟩, ⟨_, rfl⟩⟩

theorem test_witness_AtomicOperations : ∀ n ∈ [4, 8], n = 4 ∨ n = 8 := by decide

end Sys2Proof.Tests
end

section
/-! The host queue, the clock registers and the registers of the MMIO map: what each of their operations does and leaves alone. -/

namespace Sys2Proof.Machine

/-! ### Memory kept, and events made due -/

/-- An operation that touches neither global memory nor a core leaves every byte as it was. -/
theorem SameMemory.of_mem_cores {s t : State} (hmem : t.mem = s.mem) (hcores : t.cores = s.cores) : SameMemory s t :=
  ⟨fun a => by rw [hmem], fun c a => by simp only [State.core, hcores]⟩

/-- An entry inserted into the agenda is on it. -/
theorem mem_insertDue (d : Due) (l : List Due) : d ∈ insertDue d l := by
  induction l with
  | nil => simp [insertDue]
  | cons e t ih =>
    simp only [insertDue]
    split
    · exact List.mem_cons_self
    · exact List.mem_cons_of_mem _ ih

/-- An event made due at a cycle is on the agenda. -/
theorem State.exists_due_at (s : State) (cycle : Nat) (e : Instr) : ∃ d ∈ (s.at cycle e).agenda, d.act = .event e :=
  ⟨_, mem_insertDue _ _, rfl⟩

/-! ### The submission queue (R413, R414) -/

/-- The host queue is open and holds a submitted entry, and no launch of it is under way (R414). -/
structure State.Consumes (s : State) : Prop where
  opened : s.host.opened = true
  awake : s.sec.haltAll = false
  clean : s.host.sqerr = false
  behind : s.host.sqdone ≠ s.host.sqtail
  answered : s.host.pending = []
  idle : s.sow.inbox = []

/-- The sequence number that the next submission entry is to have. -/
def State.nextSeq (s : State) : Nat := (s.host.sqdone + 1).toNat

/-- Where the next submission entry lies. -/
def State.nextEntry (s : State) : Nat := ringAt s.host.sq s.nextSeq 128

/-- The launch that the next submission entry describes. -/
def State.entryLaunch (s : State) : Launch :=
  { id := s.nextId, source := .host s.nextSeq, user := false
    record := (List.range 8).map fun i => BitVec.ofNat 64 (s.mem.load 8 (s.nextEntry + 8 * i)) }

/-- The state with the launch of the next submission entry before the Sower. -/
def State.submitEntry (s : State) : State :=
  ((s.fresh.2).modSow fun w => { w with inbox := w.inbox ++ [s.entryLaunch] }).at s.cycle (.launchAccept s.nextId)

/-- A readable entry is consumed if its SEQ is the next one; another SEQ only sets SQERR (R414). -/
theorem execSqConsume_of_readable (s : State) (hs : s.Consumes) (hok : s.physOk s.nextEntry .read .m 8 false = true)
    (hclean : s.memPoisoned s.nextEntry 128 = false) :
    execSqConsume s = ok (if s.mem.load 4 (s.nextEntry + 64) = s.nextSeq then s.submitEntry
      else s.modHost fun h => { h with sqerr := true }) := by
  obtain ⟨hopen, hhalt, herr, hnext, hpend, hidle⟩ := hs
  unfold execSqConsume
  dsimp only
  rw [if_neg (by simp [hopen, hhalt, herr, hnext, hpend, hidle])]
  by_cases hseq : s.mem.load 4 (s.nextEntry + 64) = s.nextSeq
  · have hread : ¬(s.physOk s.nextEntry .read .m 8 false = false ∨ s.memPoisoned s.nextEntry 128 ∨
        s.mem.load 4 (s.nextEntry + 64) ≠ s.nextSeq) := by simp [hok, hclean, hseq]
    rw [if_pos hseq]
    exact congrArg ok (if_neg hread)
  · rw [if_neg hseq, if_pos (.inr (.inr hseq))]

/-! ### The completion ring (R413, R414) -/

/-- What is written to the host window leaves the panel and changes nothing else (R411). -/
theorem State.writeHome_window (s : State) (c a : Nat) (bs : List Byte) (ha : bitsOf a 48 8 = 3) :
    ∃ o, s.writeHome c a bs = { s with out := o } := by
  unfold State.writeHome
  rw [if_pos ha]
  refine List.foldlRecOn (motive := fun t : State => ∃ o, t = { s with out := o }) _ _ ⟨s.out, rfl⟩ ?_
  rintro _ ⟨o, rfl⟩ i -
  exact ⟨_, rfl⟩

/-- A full completion ring holds the completion. -/
theorem execSqCompletion_of_full (s : State) (h : s.host.cqseq - s.host.cqack = BitVec.ofNat 32 (2 ^ field s.host.cq 60 4)) :
    execSqCompletion s = ok s := by
  unfold execSqCompletion
  dsimp only
  split
  · rfl
  · rw [if_pos h]

/-- With room in the ring the oldest completion is given: CQSEQ and SQDONE rise, consumption goes on, and of the rest only what leaves the panel
changes. -/
theorem execSqCompletion_of_room (s : State) {seq : BitVec 32} {ticket : Word} {status : Nat} {rest : List (BitVec 32 × Word × Nat)}
    (hp : s.host.pending = (seq, ticket, status) :: rest) (h : s.host.cqseq - s.host.cqack ≠ BitVec.ofNat 32 (2 ^ field s.host.cq 60 4)) :
    ∃ o, execSqCompletion s = ok ((({ s with out := o } : State).modHost fun h => { h with
      cqseq := s.host.cqseq + 1
      sqdone := seq
      pending := rest }).at s.cycle .sqConsume) := by
  unfold execSqCompletion
  dsimp only
  rw [hp]
  dsimp only
  rw [if_neg h]
  split
  next hw =>
    obtain ⟨o, ho⟩ := State.writeHome_window s relayBase _ (leBytes 32 _) hw.1
    exact ⟨o, by rw [ho]⟩
  next => exact ⟨s.out, rfl⟩

/-! ### The registers of the MMIO map -/

/-- Bits [47:12] of a word, kept in place (R424). -/
theorem ofNat_field_window (v : Word) : BitVec.ofNat 64 (field v 12 36 * 2 ^ 12) = v &&& 0x0000FFFFFFFFF000#64 := by
  have hmask : ∀ i < 64, (0x0000FFFFFFFFF000#64).getLsbD i = (decide (12 ≤ i) && decide (i - 12 < 36)) := by decide
  refine BitVec.eq_of_getLsbD_eq fun i hi => ?_
  rw [BitVec.getLsbD_and, hmask i hi, field, bitsOf, BitVec.getLsbD_ofNat, Nat.testBit_mul_two_pow, Nat.testBit_mod_two_pow,
    Nat.testBit_shiftRight, ← BitVec.getLsbD]
  by_cases h12 : 12 ≤ i
  · simp [h12, hi, Nat.add_sub_cancel' h12, Bool.and_comm]
  · simp [h12]

/-- Starting the probe timers of a die's blocked nodes only makes events due. -/
theorem State.armDie_agenda (s : State) (d : Nat) : ∃ a, s.armDie d = { s with agenda := a } := by
  unfold State.armDie
  refine List.foldlRecOn (motive := fun t : State => ∃ a, t = { s with agenda := a }) _ _ ⟨s.agenda, rfl⟩ ?_
  rintro _ ⟨a, rfl⟩ p -
  refine List.foldlRecOn (motive := fun t : State => ∃ a, t = { s with agenda := a }) _ _ ⟨a, rfl⟩ ?_
  rintro _ ⟨b, rfl⟩ i -
  obtain ⟨e, he⟩ := State.armProbe_agenda { s with agenda := b } p.1 i
  exact ⟨e, he⟩

/-- A die whose probe period is set from a word: the shortest one but none is 256 cycles (R238). -/
def Die.withProbePeriod (v : Word) (x : Die) : Die :=
  { x with probeCfg := if 1 ≤ field v 0 24 ∧ field v 0 24 < 256 then 256 else field v 0 24 }

/-- A write of PROBECFG sets the die's probe period and, beside it, only makes events due (R238). -/
theorem State.writeDie_probeCfg (s : State) (d : Nat) (v : Word) :
    ∃ a, s.writeDie d 0x28 v = { s.modDie d (Die.withProbePeriod v) with agenda := a } :=
  State.armDie_agenda (s.modDie d (Die.withProbePeriod v)) d

end Sys2Proof.Machine

namespace Sys2Proof.Claims

open Sys2Proof.Machine

/-- Settles O44: the host queues, the clock registers, the window registers and the two registers shown, each by what its operation does. -/
theorem hostQueueAndRegisters : Obligations.HostQueueAndRegisters := by
  unfold Obligations.HostQueueAndRegisters
  refine ⟨?doorbell, ?consume, ?completion, ?clock, ?window, ?probe, ?attestation⟩
  case doorbell =>
    exact fun s v => ⟨_, rfl, rfl, rfl, .of_mem_cores rfl rfl, State.exists_due_at _ _ _⟩
  case consume =>
    intro s hopen hhalt herr hnext hpend hidle k a hok hclean
    have hrun : exec .sqConsume s = _ := execSqConsume_of_readable s ⟨hopen, hhalt, herr, hnext, hpend, hidle⟩ hok hclean
    refine ⟨fun hseq => ?_, fun hseq => ?_⟩
    · rw [hrun, if_pos (show s.mem.load 4 (s.nextEntry + 64) = s.nextSeq from hseq)]
      refine ⟨s.submitEntry, s.entryLaunch, rfl, ?_, rfl, rfl, herr, .of_mem_cores rfl rfl, rfl, State.exists_due_at _ _ _⟩
      show s.sow.inbox ++ [s.entryLaunch] = [s.entryLaunch]
      rw [hidle, List.nil_append]
    · rw [hrun, if_neg (show s.mem.load 4 (s.nextEntry + 64) ≠ s.nextSeq from hseq)]
      exact ⟨_, rfl, rfl, rfl, rfl, .of_mem_cores rfl rfl⟩
  case completion =>
    refine fun s seq ticket status hp => ⟨execSqCompletion_of_full s, fun hroom => ?_⟩
    obtain ⟨o, ho⟩ := execSqCompletion_of_room s hp hroom
    exact ⟨_, ho, rfl, rfl, rfl, .of_mem_cores rfl rfl, State.exists_due_at _ _ _⟩
  case clock =>
    refine fun s d v w => ⟨_, _, rfl, ?_, rfl, ?_, ?_, ?_, .of_mem_cores rfl rfl⟩ <;> simp
  case window =>
    intro s v
    rw [← ofNat_field_window v]
    exact ⟨⟨_, rfl, rfl, .of_mem_cores rfl rfl⟩, ⟨_, rfl, rfl, .of_mem_cores rfl rfl⟩⟩
  case probe =>
    intro s a d v hkind hindex hoff
    obtain ⟨g, hg⟩ := s.writeDie_probeCfg d v
    have hrun : exec (.registerWrite a v) s = ok (s.writeDie d 0x28 v) := by
      show execRegisterWrite a v s = _
      simp only [execRegisterWrite, hkind, hindex, hoff]
    rw [hg] at hrun
    refine ⟨_, hrun, ?_, fun e he => State.die_modDie_ne s d e (Die.withProbePeriod v) he, .of_mem_cores rfl rfl⟩
    exact congrArg Die.probeCfg (State.die_modDie_self s d (Die.withProbePeriod v))
  case attestation =>
    intro s a v hkind hoff
    show execRegisterWrite a v s = _
    simp only [execRegisterWrite, hkind, hoff]
    rfl

end Sys2Proof.Claims
end

section
/-! Decoding and encoding: what the fields of a word give back, and the round trip of every well-formed instruction (R9 to R24). -/

namespace Sys2Proof

/-! ### Parts of a joined word: what an extraction finds (R10) -/

/-- The high part of two joined ones. -/
theorem extractLsb'_append_high {v w : Nat} (a : BitVec v) (b : BitVec w) : (a ++ b).extractLsb' w v = a := by
  rw [BitVec.extractLsb'_append_eq_of_le (Nat.le_refl w), Nat.sub_self, BitVec.extractLsb'_eq_self]

/-- The low part of two joined ones. -/
theorem extractLsb'_append_low {v w : Nat} (a : BitVec v) (b : BitVec w) : (a ++ b).extractLsb' 0 w = b := by
  rw [BitVec.extractLsb'_append_eq_of_add_le (Nat.le_of_eq (Nat.zero_add w)), BitVec.extractLsb'_eq_self]

/-- Bits within the high part. -/
theorem extractLsb'_append_add {v w : Nat} (a : BitVec v) (b : BitVec w) (start len : Nat) :
    (a ++ b).extractLsb' (w + start) len = a.extractLsb' start len := by
  rw [BitVec.extractLsb'_append_eq_of_le (Nat.le_add_right w start), Nat.add_sub_cancel_left]

/-- Two joined parts are a word where each is its part of the word. -/
theorem append_eq_iff {v w : Nat} (a : BitVec v) (b : BitVec w) (c : BitVec (v + w)) :
    a ++ b = c ↔ a = c.extractLsb' w v ∧ b = c.extractLsb' 0 w := by
  constructor
  · rintro rfl
    exact ⟨(extractLsb'_append_high a b).symm, (extractLsb'_append_low a b).symm⟩
  · rintro ⟨rfl, rfl⟩
    exact (BitVec.extractLsb'_append_extractLsb'_eq_extractLsb' (Nat.zero_add w).symm).trans BitVec.extractLsb'_eq_self

section
variable (a1 b1 : BitVec 1) (a2 b2 c2 : BitVec 2) (a3 b3 : BitVec 3) (a4 : BitVec 4) (a5 : BitVec 5) (a6 : BitVec 6)

/-! The layouts of funct7 (R16 to R24): each part stands where `encodeFields` has put it. -/

@[simp] theorem funct7_4_3 : BitVec.extractLsb' (n := 7) 3 4 (a4 ++ a3) = a4 ∧ BitVec.extractLsb' (n := 7) 0 3 (a4 ++ a3) = a3 :=
  ⟨extractLsb'_append_high a4 a3, extractLsb'_append_low a4 a3⟩

@[simp] theorem funct7_5_2 : BitVec.extractLsb' (n := 7) 2 5 (a5 ++ a2) = a5 ∧ BitVec.extractLsb' (n := 7) 0 2 (a5 ++ a2) = a2 :=
  ⟨extractLsb'_append_high a5 a2, extractLsb'_append_low a5 a2⟩

@[simp] theorem funct7_6_1 : BitVec.extractLsb' (n := 7) 1 6 (a6 ++ a1) = a6 ∧ BitVec.extractLsb' (n := 7) 0 1 (a6 ++ a1) = a1 :=
  ⟨extractLsb'_append_high a6 a1, extractLsb'_append_low a6 a1⟩

@[simp] theorem funct7_1_6 : BitVec.extractLsb' (n := 7) 6 1 (a1 ++ a6) = a1 ∧ BitVec.extractLsb' (n := 7) 0 6 (a1 ++ a6) = a6 :=
  ⟨extractLsb'_append_high a1 a6, extractLsb'_append_low a1 a6⟩

@[simp] theorem funct7_5_1_1 : BitVec.extractLsb' (n := 7) 2 5 (a5 ++ a1 ++ b1) = a5 ∧
    BitVec.extractLsb' (n := 7) 1 1 (a5 ++ a1 ++ b1) = a1 ∧ BitVec.extractLsb' (n := 7) 0 1 (a5 ++ a1 ++ b1) = b1 :=
  ⟨(extractLsb'_append_add (a5 ++ a1) b1 1 5).trans (extractLsb'_append_high a5 a1),
    (extractLsb'_append_add (a5 ++ a1) b1 0 1).trans (extractLsb'_append_low a5 a1), extractLsb'_append_low (a5 ++ a1) b1⟩

@[simp] theorem funct7_4_1_2 : BitVec.extractLsb' (n := 7) 3 4 (a4 ++ a1 ++ a2) = a4 ∧
    BitVec.extractLsb' (n := 7) 2 1 (a4 ++ a1 ++ a2) = a1 ∧ BitVec.extractLsb' (n := 7) 0 2 (a4 ++ a1 ++ a2) = a2 :=
  ⟨(extractLsb'_append_add (a4 ++ a1) a2 1 4).trans (extractLsb'_append_high a4 a1),
    (extractLsb'_append_add (a4 ++ a1) a2 0 1).trans (extractLsb'_append_low a4 a1), extractLsb'_append_low (a4 ++ a1) a2⟩

@[simp] theorem funct7_1_3_3 : BitVec.extractLsb' (n := 7) 6 1 (a1 ++ a3 ++ b3) = a1 ∧
    BitVec.extractLsb' (n := 7) 3 3 (a1 ++ a3 ++ b3) = a3 ∧ BitVec.extractLsb' (n := 7) 0 3 (a1 ++ a3 ++ b3) = b3 :=
  ⟨(extractLsb'_append_add (a1 ++ a3) b3 3 1).trans (extractLsb'_append_high a1 a3),
    (extractLsb'_append_add (a1 ++ a3) b3 0 3).trans (extractLsb'_append_low a1 a3), extractLsb'_append_low (a1 ++ a3) b3⟩

@[simp] theorem funct7_2_1_2_2 : BitVec.extractLsb' (n := 7) 5 2 (a2 ++ a1 ++ b2 ++ c2) = a2 ∧
    BitVec.extractLsb' (n := 7) 4 1 (a2 ++ a1 ++ b2 ++ c2) = a1 ∧ BitVec.extractLsb' (n := 7) 2 2 (a2 ++ a1 ++ b2 ++ c2) = b2 ∧
    BitVec.extractLsb' (n := 7) 0 2 (a2 ++ a1 ++ b2 ++ c2) = c2 :=
  ⟨((extractLsb'_append_add (a2 ++ a1 ++ b2) c2 3 2).trans (extractLsb'_append_add (a2 ++ a1) b2 1 2)).trans
      (extractLsb'_append_high a2 a1),
    ((extractLsb'_append_add (a2 ++ a1 ++ b2) c2 2 1).trans (extractLsb'_append_add (a2 ++ a1) b2 0 1)).trans
      (extractLsb'_append_low a2 a1),
    (extractLsb'_append_add (a2 ++ a1 ++ b2) c2 0 2).trans (extractLsb'_append_low (a2 ++ a1) b2),
    extractLsb'_append_low (a2 ++ a1 ++ b2) c2⟩

/-! The layouts of a register field (R12). -/

@[simp] theorem register_1_4 : BitVec.extractLsb' (n := 5) 4 1 (a1 ++ a4) = a1 ∧ BitVec.extractLsb' (n := 5) 0 4 (a1 ++ a4) = a4 :=
  ⟨extractLsb'_append_high a1 a4, extractLsb'_append_low a1 a4⟩

@[simp] theorem register_2_3 : BitVec.extractLsb' (n := 5) 3 2 (a2 ++ a3) = a2 ∧ BitVec.extractLsb' (n := 5) 0 3 (a2 ++ a3) = a3 :=
  ⟨extractLsb'_append_high a2 a3, extractLsb'_append_low a2 a3⟩

@[simp] theorem register_4_1 : BitVec.extractLsb' (n := 5) 1 4 (a4 ++ a1) = a4 ∧ BitVec.extractLsb' (n := 5) 0 1 (a4 ++ a1) = a1 :=
  ⟨extractLsb'_append_high a4 a1, extractLsb'_append_low a4 a1⟩

@[simp] theorem register_3_1_1 : BitVec.extractLsb' (n := 5) 2 3 (a3 ++ a1 ++ b1) = a3 ∧
    BitVec.extractLsb' (n := 5) 1 1 (a3 ++ a1 ++ b1) = a1 ∧ BitVec.extractLsb' (n := 5) 0 1 (a3 ++ a1 ++ b1) = b1 :=
  ⟨(extractLsb'_append_add (a3 ++ a1) b1 1 3).trans (extractLsb'_append_high a3 a1),
    (extractLsb'_append_add (a3 ++ a1) b1 0 1).trans (extractLsb'_append_low a3 a1), extractLsb'_append_low (a3 ++ a1) b1⟩

end

/-! ### Operands that are spread over the word, joined again (R11) -/

@[simp] theorem join_7_5 (w : BitVec 12) :
    w.extractLsb' 5 7 ++ w.extractLsb' 0 5 = w := by
  rw [BitVec.extractLsb'_append_extractLsb'_eq_extractLsb' (by decide : 5 = 0 + 5)]
  exact BitVec.extractLsb'_eq_self

@[simp] theorem join_1_5 (w : BitVec 6) :
    w.extractLsb' 5 1 ++ w.extractLsb' 0 5 = w := by
  rw [BitVec.extractLsb'_append_extractLsb'_eq_extractLsb' (by decide : 5 = 0 + 5)]
  exact BitVec.extractLsb'_eq_self

@[simp] theorem join_3_5 (w : BitVec 8) :
    w.extractLsb' 5 3 ++ w.extractLsb' 0 5 = w := by
  rw [BitVec.extractLsb'_append_extractLsb'_eq_extractLsb' (by decide : 5 = 0 + 5)]
  exact BitVec.extractLsb'_eq_self

@[simp] theorem join_3_1 (w : BitVec 4) :
    w.extractLsb' 1 3 ++ w.extractLsb' 0 1 = w := by
  rw [BitVec.extractLsb'_append_extractLsb'_eq_extractLsb' (by decide : 1 = 0 + 1)]
  exact BitVec.extractLsb'_eq_self

@[simp] theorem join_7_5_5_3 (w : BitVec 20) :
    w.extractLsb' 13 7 ++ w.extractLsb' 8 5 ++ w.extractLsb' 3 5 ++ w.extractLsb' 0 3 = w := by
  rw [BitVec.extractLsb'_append_extractLsb'_eq_extractLsb' (by decide : 13 = 8 + 5),
    BitVec.extractLsb'_append_extractLsb'_eq_extractLsb' (by decide : 8 = 3 + 5),
    BitVec.extractLsb'_append_extractLsb'_eq_extractLsb' (by decide : 3 = 0 + 3)]
  exact BitVec.extractLsb'_eq_self

@[simp] theorem join_branch_offset (w : BitVec 12) :
    w.extractLsb' 11 1 ++ w.extractLsb' 10 1 ++ w.extractLsb' 4 6 ++ w.extractLsb' 0 4 = w := by
  rw [BitVec.extractLsb'_append_extractLsb'_eq_extractLsb' (by decide : 11 = 10 + 1),
    BitVec.extractLsb'_append_extractLsb'_eq_extractLsb' (by decide : 10 = 4 + 6),
    BitVec.extractLsb'_append_extractLsb'_eq_extractLsb' (by decide : 4 = 0 + 4)]
  exact BitVec.extractLsb'_eq_self

@[simp] theorem join_jump_offset (w : BitVec 20) :
    w.extractLsb' 19 1 ++ w.extractLsb' 14 5 ++ w.extractLsb' 11 3 ++ w.extractLsb' 10 1 ++ w.extractLsb' 4 6 ++ w.extractLsb' 0 4 = w := by
  rw [BitVec.extractLsb'_append_extractLsb'_eq_extractLsb' (by decide : 19 = 14 + 5),
    BitVec.extractLsb'_append_extractLsb'_eq_extractLsb' (by decide : 14 = 11 + 3),
    BitVec.extractLsb'_append_extractLsb'_eq_extractLsb' (by decide : 11 = 10 + 1),
    BitVec.extractLsb'_append_extractLsb'_eq_extractLsb' (by decide : 10 = 4 + 6),
    BitVec.extractLsb'_append_extractLsb'_eq_extractLsb' (by decide : 4 = 0 + 4)]
  exact BitVec.extractLsb'_eq_self

/-! ### Operands of one field -/

@[simp] theorem ofBool_beq_one (b : Bool) : (BitVec.ofBool b == 1#1) = b := by cases b <;> rfl

@[simp] theorem scopeOf_scopeBits (s : Scope) : scopeOf (scopeBits s) = s := by cases s <;> rfl

@[simp] theorem relOf_encoded (r : Option Scope) : relOf (relBit r) (relScopeBits r) = some r := by
  cases r with
  | none => rfl
  | some s => cases s <;> rfl

@[simp] theorem regRefOf_encoded (r : RegRef) : regRefOf (regRefClass r) (regRefField r) = some r := by
  cases r with
  | x n => rfl
  | v n => simp [regRefOf, regRefClass, regRefField]
  | acc n => simp [regRefOf, regRefClass, regRefField]

/-! ### The word and its fields (R10, R15) -/

/-- A word splits into the fields it was joined from: the opcode is its low part, and each field above it the low part of the rest. -/
@[simp] theorem splitWord_joinWord (f : Fields) : splitWord (joinWord f) = f := by
  obtain ⟨f7, rs2, rs1, f3, rd, op⟩ := f
  have hop : (joinWord ⟨f7, rs2, rs1, f3, rd, op⟩).extractLsb' 0 7 = op := extractLsb'_append_low (f7 ++ rs2 ++ rs1 ++ f3 ++ rd) op
  have above (start len : Nat) : (joinWord ⟨f7, rs2, rs1, f3, rd, op⟩).extractLsb' (7 + start) len =
      (f7 ++ rs2 ++ rs1 ++ f3 ++ rd).extractLsb' start len :=
    extractLsb'_append_add (f7 ++ rs2 ++ rs1 ++ f3 ++ rd) op start len
  have hrd : (joinWord ⟨f7, rs2, rs1, f3, rd, op⟩).extractLsb' 7 5 = rd :=
    (above 0 5).trans (extractLsb'_append_low (f7 ++ rs2 ++ rs1 ++ f3) rd)
  have hf3 : (joinWord ⟨f7, rs2, rs1, f3, rd, op⟩).extractLsb' 12 3 = f3 :=
    (above 5 3).trans ((extractLsb'_append_add (f7 ++ rs2 ++ rs1 ++ f3) rd 0 3).trans (extractLsb'_append_low (f7 ++ rs2 ++ rs1) f3))
  have hrs1 : (joinWord ⟨f7, rs2, rs1, f3, rd, op⟩).extractLsb' 15 5 = rs1 :=
    (above 8 5).trans ((extractLsb'_append_add (f7 ++ rs2 ++ rs1 ++ f3) rd 3 5).trans
      ((extractLsb'_append_add (f7 ++ rs2 ++ rs1) f3 0 5).trans (extractLsb'_append_low (f7 ++ rs2) rs1)))
  have hrs2 : (joinWord ⟨f7, rs2, rs1, f3, rd, op⟩).extractLsb' 20 5 = rs2 :=
    (above 13 5).trans ((extractLsb'_append_add (f7 ++ rs2 ++ rs1 ++ f3) rd 8 5).trans
      ((extractLsb'_append_add (f7 ++ rs2 ++ rs1) f3 5 5).trans
        ((extractLsb'_append_add (f7 ++ rs2) rs1 0 5).trans (extractLsb'_append_low f7 rs2))))
  have hf7 : (joinWord ⟨f7, rs2, rs1, f3, rd, op⟩).extractLsb' 25 7 = f7 :=
    (above 18 7).trans ((extractLsb'_append_add (f7 ++ rs2 ++ rs1 ++ f3) rd 13 7).trans
      ((extractLsb'_append_add (f7 ++ rs2 ++ rs1) f3 10 7).trans
        ((extractLsb'_append_add (f7 ++ rs2) rs1 5 7).trans (extractLsb'_append_high f7 rs2))))
  simp only [splitWord, hf7, hrs2, hrs1, hf3, hrd, hop]

/-- The low bits of a joined word are those of its opcode. -/
theorem extractLsb'_joinWord (f : Fields) (start len : Nat) (h : start + len ≤ 7) :
    (joinWord f).extractLsb' start len = f.op.extractLsb' start len :=
  BitVec.extractLsb'_append_eq_of_add_le h

/-- What a choice gives comes from one of its branches. -/
theorem ite_eq_cases {α : Type} {p : Prop} [Decidable p] {a b c : α} (h : (if p then a else b) = c) : (p ∧ a = c) ∨ (¬ p ∧ b = c) := by
  by_cases hp : p
  · exact .inl ⟨hp, by rwa [if_pos hp] at h⟩
  · exact .inr ⟨hp, by rwa [if_neg hp] at h⟩

/-- An opcode of the map is that of a 32-bit word: its two low bits are 11, the next three not 111 (R9, R15). -/
theorem op_of_decodeFields {f : Fields} {i : Instr} (h : decodeFields f = .ok i) :
    f.op.extractLsb' 0 2 = 3#2 ∧ f.op.extractLsb' 2 3 ≠ 7#3 := by
  unfold decodeFields at h
  iterate 18
    rcases ite_eq_cases h with ⟨e, -⟩ | ⟨-, h⟩
    · rw [e]
      decide
  cases h

/-! The tables that the major opcodes name (R15). -/

section
variable (f7 : BitVec 7) (rs2 rs1 : BitVec 5) (f3 : BitVec 3) (rd : BitVec 5)

@[simp] theorem decodeFields_load : decodeFields ⟨f7, rs2, rs1, f3, rd, 3#7⟩ = decode_load ⟨f7, rs2, rs1, f3, rd, 3#7⟩ := rfl
@[simp] theorem decodeFields_miscMem : decodeFields ⟨f7, rs2, rs1, f3, rd, 15#7⟩ = decode_miscMem ⟨f7, rs2, rs1, f3, rd, 15#7⟩ := rfl
@[simp] theorem decodeFields_opImm : decodeFields ⟨f7, rs2, rs1, f3, rd, 19#7⟩ = decode_opImm ⟨f7, rs2, rs1, f3, rd, 19#7⟩ := rfl
@[simp] theorem decodeFields_auipc : decodeFields ⟨f7, rs2, rs1, f3, rd, 23#7⟩ = decode_auipcOp ⟨f7, rs2, rs1, f3, rd, 23#7⟩ := rfl
@[simp] theorem decodeFields_lui : decodeFields ⟨f7, rs2, rs1, f3, rd, 55#7⟩ = decode_luiOp ⟨f7, rs2, rs1, f3, rd, 55#7⟩ := rfl
@[simp] theorem decodeFields_opImm32 : decodeFields ⟨f7, rs2, rs1, f3, rd, 27#7⟩ = decode_opImm32 ⟨f7, rs2, rs1, f3, rd, 27#7⟩ := rfl
@[simp] theorem decodeFields_store : decodeFields ⟨f7, rs2, rs1, f3, rd, 35#7⟩ = decode_store ⟨f7, rs2, rs1, f3, rd, 35#7⟩ := rfl
@[simp] theorem decodeFields_amo : decodeFields ⟨f7, rs2, rs1, f3, rd, 47#7⟩ = decode_amo ⟨f7, rs2, rs1, f3, rd, 47#7⟩ := rfl
@[simp] theorem decodeFields_op : decodeFields ⟨f7, rs2, rs1, f3, rd, 51#7⟩ = decode_op ⟨f7, rs2, rs1, f3, rd, 51#7⟩ := rfl
@[simp] theorem decodeFields_op32 : decodeFields ⟨f7, rs2, rs1, f3, rd, 59#7⟩ = decode_op32 ⟨f7, rs2, rs1, f3, rd, 59#7⟩ := rfl
@[simp] theorem decodeFields_branch : decodeFields ⟨f7, rs2, rs1, f3, rd, 99#7⟩ = decode_branch ⟨f7, rs2, rs1, f3, rd, 99#7⟩ := rfl
@[simp] theorem decodeFields_jalr : decodeFields ⟨f7, rs2, rs1, f3, rd, 103#7⟩ = decode_jalrOp ⟨f7, rs2, rs1, f3, rd, 103#7⟩ := rfl
@[simp] theorem decodeFields_jal : decodeFields ⟨f7, rs2, rs1, f3, rd, 111#7⟩ = decode_jalOp ⟨f7, rs2, rs1, f3, rd, 111#7⟩ := rfl
@[simp] theorem decodeFields_system : decodeFields ⟨f7, rs2, rs1, f3, rd, 115#7⟩ = decode_system ⟨f7, rs2, rs1, f3, rd, 115#7⟩ := rfl
@[simp] theorem decodeFields_custom0 : decodeFields ⟨f7, rs2, rs1, f3, rd, 11#7⟩ = decode_custom0 ⟨f7, rs2, rs1, f3, rd, 11#7⟩ := rfl
@[simp] theorem decodeFields_custom1 : decodeFields ⟨f7, rs2, rs1, f3, rd, 43#7⟩ = decode_custom1 ⟨f7, rs2, rs1, f3, rd, 43#7⟩ := rfl
@[simp] theorem decodeFields_custom2 : decodeFields ⟨f7, rs2, rs1, f3, rd, 91#7⟩ = decode_custom2 ⟨f7, rs2, rs1, f3, rd, 91#7⟩ := rfl
@[simp] theorem decodeFields_custom3 : decodeFields ⟨f7, rs2, rs1, f3, rd, 123#7⟩ = decode_custom3 ⟨f7, rs2, rs1, f3, rd, 123#7⟩ := rfl

end

/-- Fields that a row of the opcode map reads back as the instruction they come from. -/
theorem decodeFields_of_encoded {i : Instr} {f : Fields} (hf : encodeFields i = f) (hd : decodeFields f = .ok i) :
    decodeFields (encodeFields i) = .ok i :=
  (congrArg decodeFields hf).trans hd

/-- The fields of a well-formed instruction select its row, with each operand at its value; the cases stand by major opcode. Where a
row that fixes all of funct7 stands before one that fixes a part of it (custom-0, custom-1, custom-3), the parts tell them apart (`append_eq_iff`). -/
theorem decodeFields_encodeFields (i : Instr) (h : i.wf = true) : decodeFields (encodeFields i) = .ok i := by
  cases i with
  | lb | lh | lw | ld | lbu | lhu | lwu =>
    refine decodeFields_of_encoded (f := ⟨_, _, _, _, _, _⟩) rfl ?_
    simp [decode_load, decode_load0, decode_load1, decode_load2, decode_load3, decode_load4, decode_load5,
      decode_load6]
  | fence | fenceI =>
    refine decodeFields_of_encoded (f := ⟨_, _, _, _, _, _⟩) rfl ?_
    simp [decode_miscMem, decode_miscMem0, decode_miscMem1]
  | addi | slti | sltiu | xori | ori | andi | slli | srli | srai =>
    refine decodeFields_of_encoded (f := ⟨_, _, _, _, _, _⟩) rfl ?_
    simp [decode_opImm, decode_opImm0, decode_opImm1, decode_opImm2, decode_opImm3, decode_opImm4,
      decode_opImm5, decode_opImm6, decode_opImm7]
  | auipc =>
    refine decodeFields_of_encoded (f := ⟨_, _, _, _, _, _⟩) rfl ?_
    simp [decode_auipcOp]
  | lui =>
    refine decodeFields_of_encoded (f := ⟨_, _, _, _, _, _⟩) rfl ?_
    simp [decode_luiOp]
  | addiw | slliw | srliw | sraiw =>
    refine decodeFields_of_encoded (f := ⟨_, _, _, _, _, _⟩) rfl ?_
    simp [decode_opImm32, decode_opImm320, decode_opImm321, decode_opImm325]
  | sb | sh | sw | sd =>
    refine decodeFields_of_encoded (f := ⟨_, _, _, _, _, _⟩) rfl ?_
    simp [decode_store, decode_store0, decode_store1, decode_store2, decode_store3]
  | lrW | lrD | scW | scD | amoswapW | amoswapD | amoaddW | amoaddD | amoxorW | amoxorD | amoandW | amoandD | amoorW | amoorD |
    amominW | amominD | amomaxW | amomaxD | amominuW | amominuD | amomaxuW | amomaxuD =>
    refine decodeFields_of_encoded (f := ⟨_, _, _, _, _, _⟩) rfl ?_
    simp [decode_amo, decode_amo2, decode_amo3]
  | add | sub | sll | slt | sltu | xor | srl | sra | or | and | mul | mulh | mulhsu | mulhu | div | divu | rem | remu =>
    refine decodeFields_of_encoded (f := ⟨_, _, _, _, _, _⟩) rfl ?_
    simp [decode_op, decode_op0, decode_op1, decode_op2, decode_op3, decode_op4, decode_op5, decode_op6,
      decode_op7]
  | addw | subw | sllw | srlw | sraw | mulw | divw | divuw | remw | remuw =>
    refine decodeFields_of_encoded (f := ⟨_, _, _, _, _, _⟩) rfl ?_
    simp [decode_op32, decode_op320, decode_op321, decode_op324, decode_op325, decode_op326, decode_op327]
  | beq | bne | blt | bge | bltu | bgeu =>
    refine decodeFields_of_encoded (f := ⟨_, _, _, _, _, _⟩) rfl ?_
    simp [decode_branch, decode_branch0, decode_branch1, decode_branch4, decode_branch5, decode_branch6,
      decode_branch7]
  | jalr =>
    refine decodeFields_of_encoded (f := ⟨_, _, _, _, _, _⟩) rfl ?_
    simp [decode_jalrOp, decode_jalrOp0]
  | jal =>
    refine decodeFields_of_encoded (f := ⟨_, _, _, _, _, _⟩) rfl ?_
    simp [decode_jalOp]
  | ecall | ebreak | sret | mret | wfi | wrsNto | wrsSto | sfenceVma | csrrw | csrrs | csrrc | csrrwi | csrrsi | csrrci =>
    refine decodeFields_of_encoded (f := ⟨_, _, _, _, _, _⟩) rfl ?_
    simp [decode_system, decode_system0, decode_system1, decode_system2, decode_system3, decode_system5,
      decode_system6, decode_system7]
  | park | wake | wakeR | pfence | stop | feEmpty | feTest | feWait | dsb | dsh | dsw | dsd | dsv | daddW | daddD | dmaxW | dmaxD
    | dminW | dminD | dmaxuW | dmaxuD | dandW | dandD | dorW | dorD | dxorW | dxorD | cntSet | cntAdd | cntRd | cntWait | cntPoll
    | cntMode | chs | chsv | chr | chrv | altOn | altOff | altWait | altClr | chprobe | wbarA | wbarW | grpPut | grpGet =>
    refine decodeFields_of_encoded (f := ⟨_, _, _, _, _, _⟩) rfl ?_
    simp [append_eq_iff (v := 4) (w := 3), append_eq_iff (v := 5) (w := 2), decode_custom0, decode_custom00, decode_custom01, decode_custom02, decode_custom03,
      decode_custom04, decode_custom05, decode_custom06]
  | mmaFp8 | mmaBf16 | mmaFp16 | mmaMxf8 | mmaMxf4 | mmaDxb8 | mmaDxb4 | mmaI8 | macq | mrel | mzero | mload | mdrain | mdrainD |
    mdrainQ | ceGo | ceWait | ceStat | ceAbort | plGo | plWait | plCancel | plStat | sow | sstop | sresume | skill | ssave | sload
    =>
    refine decodeFields_of_encoded (f := ⟨_, _, _, _, _, _⟩) rfl ?_
    simp [append_eq_iff (v := 5) (w := 2), append_eq_iff (v := 4) (w := 1), decode_custom1, decode_custom10, decode_custom11, decode_custom12, decode_custom13,
      decode_custom14]
  | vaddVv | vaddVx | vsubVv | vsubVx | vmulVv | vmulVx | vmulhVv | vmulhVx | vminVv | vminVx | vmaxVv | vmaxVx | vminuVv |
    vminuVx | vmaxuVv | vmaxuVx | vsaddVv | vsaddVx | vssubVv | vssubVx | vmaccVv | vmaccVx | vfaddVv | vfaddVx | vfsubVv |
    vfsubVx | vfmulVv | vfmulVx | vfminVv | vfminVx | vfmaxVv | vfmaxVx | vfmaccVv | vfmaccVx | vfnmsacVv | vfnmsacVx | vmseqVv |
    vmseqVx | vmsneVv | vmsneVx | vmsltVv | vmsltVx | vmsltuVv | vmsltuVx | vmfeqVv | vmfeqVx | vmfltVv | vmfltVx | vmfleVv |
    vmfleVx | vandVv | vandVx | vorVv | vorVx | vxorVv | vxorVx | vsllVv | vsllVx | vsrlVv | vsrlVx | vsraVv | vsraVx =>
    refine decodeFields_of_encoded (f := ⟨_, _, _, _, _, _⟩) rfl ?_
    simp [decode_custom2, decode_custom20, decode_custom21, decode_custom22, decode_custom23,
      decode_custom24, decode_custom25, decode_custom26, decode_custom27]
  | vle | vlse | vlxe | vse | vsse | vsxe | vcvt | vqnt | vdeq | vfcvti | vicvtf | vexp2 | vlog2 | vrcp | vrsqrt | vtanh | vredsum
    | vfredsum | vredmax | vfredmax | vfredamax | vslideup | vslidedown | vgather | vbcast | vext | vcompress | vmand | vmor |
    vmnot | vmpop | vmfirst | vmerge | vcfg =>
    refine decodeFields_of_encoded (f := ⟨_, _, _, _, _, _⟩) rfl ?_
    simp [append_eq_iff (v := 4) (w := 3), decode_custom3, decode_custom30, decode_custom31, decode_custom32, decode_custom33,
      decode_custom34, decode_custom35, decode_custom36]
  | _ => exact nomatch h

/-- Decoding gives back an instruction whose fields select its row (R9, R15). -/
theorem decode_encode (i : Instr) (h : i.wf = true) : decode (encode i) = .ok i := by
  have hf : decodeFields (encodeFields i) = .ok i := decodeFields_encodeFields i h
  obtain ⟨low, mid⟩ := op_of_decodeFields hf
  unfold decode encode
  rw [extractLsb'_joinWord _ 0 2 (by decide), extractLsb'_joinWord _ 2 3 (by decide), splitWord_joinWord, hf]
  simp [low, mid, h]

end Sys2Proof

namespace Sys2Proof.Claims

/-- Settles O56, by the round trip of fields and words. -/
theorem decodingAnEncodedInstructionGivesIt : Obligations.DecodingAnEncodedInstructionGivesIt := by
  unfold Obligations.DecodingAnEncodedInstructionGivesIt
  exact decode_encode

/-- Settles O57: each word is the encoding of the instruction it decodes to. -/
theorem writtenWordsDecode : Obligations.WrittenWordsDecode := by
  unfold Obligations.WrittenWordsDecode
  exact ⟨decode_encode .park rfl, decode_encode (.wake 11) rfl, decode_encode .stop rfl, decode_encode (.feEmpty (.v 3)) rfl,
    decode_encode (.ld 10 10 0) rfl, decode_encode (.lui 11 0x12345) rfl, decode_encode (.addiw 11 11 0x678) rfl,
    decode_encode (.amoaddW 0 7 29 false false) rfl, decode_encode (.vcfg 10 11) rfl, decode_encode (.vaddVv 1 2 3 0) rfl,
    decode_encode (.vsaddVx 5 6 10 0) rfl, decode_encode (.vfmaccVv 4 2 3 1) rfl⟩

end Sys2Proof.Claims
end

section
/-! The integer instructions: their operations as RV64IM defines them, and their completion (R11, R16, R48, R49). -/

namespace Sys2Proof.Machine

/-! ### Arithmetic of OP and OP-32 as RV64IM defines it (R16) -/

/-- The high half of a product of two integers is that of their product in 128 bits. -/
theorem mulHigh_eq (x y : Int) : mulHigh x y = ((BitVec.ofInt 128 x * BitVec.ofInt 128 y) >>> 64).setWidth 64 := by
  rw [← BitVec.ofInt_mul]
  apply BitVec.eq_of_toNat_eq
  simp only [mulHigh, BitVec.toNat_ofInt, BitVec.toNat_setWidth, BitVec.toNat_ushiftRight, Nat.shiftRight_eq_div_pow]
  omega

/-- A word with zeros above it is its number in 128 bits. -/
theorem ofInt_toNat_eq_setWidth (a : Word) : BitVec.ofInt 128 (a.toNat : Int) = a.setWidth 128 := by
  rw [BitVec.ofInt_natCast, BitVec.ofNat_toNat]

/-- The signed quotient is the truncating one, which overflows to the dividend. -/
theorem divS_eq_sdiv {n : Nat} (a b : BitVec n) : divS a b = if b = 0 then BitVec.allOnes n else a.sdiv b := by
  unfold divS
  congr 1
  apply BitVec.eq_of_toInt_eq
  rw [BitVec.toInt_ofInt, BitVec.toInt_sdiv]

/-- The signed remainder is that of the truncating quotient. -/
theorem remS_eq_srem {n : Nat} (a b : BitVec n) : remS a b = if b = 0 then a else a.srem b := by
  unfold remS
  congr 1
  rw [← BitVec.toInt_srem, BitVec.ofInt_toInt]

/-- The amount of a 32-bit shift is the low 5 bits of the whole register. -/
theorem field_low5 (b : Word) : field b 0 5 = (b.setWidth 32).toNat % 32 := by
  rw [BitVec.toNat_setWidth, Nat.mod_mod_of_dvd _ (by decide)]
  rfl

/-- A 64-bit sum, difference or product has the low half of the 32-bit one. -/
theorem sextW_add (a b : Word) : sextW (a + b) = Claims.lowHalf (fun a b => a + b) a b := by
  unfold sextW Claims.lowHalf
  rw [BitVec.setWidth_add _ _ (by decide)]

theorem sextW_sub (a b : Word) : sextW (a - b) = Claims.lowHalf (fun a b => a - b) a b := by
  unfold sextW Claims.lowHalf
  simp only [BitVec.sub_eq_add_neg, BitVec.setWidth_add _ _ (by decide : 32 ≤ 64), BitVec.setWidth_neg_of_le (by decide : 32 ≤ 64)]

theorem sextW_mul (a b : Word) : sextW (a * b) = Claims.lowHalf (fun a b => a * b) a b := by
  unfold sextW Claims.lowHalf
  rw [BitVec.setWidth_mul _ _ (by decide)]

/-! ### The instructions that compute an x register from others -/

/-- Two ways to compute the result of a register instruction are one instruction. -/
theorem exec_of_aluRR {i : Instr} {f g : Word → Word → Word} {rd rs1 rs2 : BitVec 5} {s : State}
    (h : exec i s = ok (aluRR f rd rs1 rs2 s)) (e : ∀ a b, f a b = g a b) : exec i s = ok (aluRR g rd rs1 rs2 s) := by
  rw [h, funext fun a => funext (e a)]

/-- MUL to REMUW compute what RV64M defines (R16). -/
theorem exec_multiplyDivideOps : ∀ p ∈ Claims.multiplyDivideOps, ∀ (rd rs1 rs2 : BitVec 5) (s : State),
    exec (p.1 rd rs1 rs2) s = ok (aluRR p.2 rd rs1 rs2 s) := by
  simp only [Claims.multiplyDivideOps, List.forall_mem_cons]
  refine ⟨?mul, ?mulh, ?mulhsu, ?mulhu, ?div, ?divu, ?rem, ?remu, ?mulw, ?divw, ?divuw, ?remw, ?remuw, ?nil⟩
  case mul => exact fun _ _ _ _ => rfl
  case mulh => exact fun _ _ _ _ => exec_of_aluRR rfl fun a b => mulHigh_eq a.toInt b.toInt
  case mulhsu => exact fun _ _ _ _ => exec_of_aluRR rfl fun a b => by rw [mulHigh_eq, ofInt_toNat_eq_setWidth]; rfl
  case mulhu => exact fun _ _ _ _ => exec_of_aluRR rfl fun a b => by rw [mulHigh_eq, ofInt_toNat_eq_setWidth, ofInt_toNat_eq_setWidth]
  case div => exact fun _ _ _ _ => exec_of_aluRR rfl divS_eq_sdiv
  case divu => exact fun _ _ _ _ => rfl
  case rem => exact fun _ _ _ _ => exec_of_aluRR rfl remS_eq_srem
  case remu => exact fun _ _ _ _ => rfl
  case mulw => exact fun _ _ _ _ => exec_of_aluRR rfl sextW_mul
  case divw => exact fun _ _ _ _ => exec_of_aluRR rfl fun a b => congrArg (BitVec.signExtend 64) (divS_eq_sdiv _ _)
  case divuw => exact fun _ _ _ _ => rfl
  case remw => exact fun _ _ _ _ => exec_of_aluRR rfl fun a b => congrArg (BitVec.signExtend 64) (remS_eq_srem _ _)
  case remuw => exact fun _ _ _ _ => rfl
  case nil => exact List.forall_mem_nil _

/-- The base instructions of OP compute what RV64I defines (R16). -/
theorem exec_baseOps : ∀ p ∈ Claims.baseOps, ∀ (rd rs1 rs2 : BitVec 5) (s : State),
    exec (p.1 rd rs1 rs2) s = ok (aluRR p.2 rd rs1 rs2 s) := by
  simp only [Claims.baseOps, List.forall_mem_cons]
  exact ⟨fun _ _ _ _ => rfl, fun _ _ _ _ => rfl, fun _ _ _ _ => rfl, fun _ _ _ _ => rfl, fun _ _ _ _ => rfl, fun _ _ _ _ => rfl,
    fun _ _ _ _ => rfl, fun _ _ _ _ => rfl, fun _ _ _ _ => rfl, fun _ _ _ _ => rfl, List.forall_mem_nil _⟩

/-- The base instructions of OP-32 compute what RV64I defines (R16). -/
theorem exec_baseOpsW : ∀ p ∈ Claims.baseOpsW, ∀ (rd rs1 rs2 : BitVec 5) (s : State),
    exec (p.1 rd rs1 rs2) s = ok (aluRR p.2 rd rs1 rs2 s) := by
  simp only [Claims.baseOpsW, List.forall_mem_cons]
  refine ⟨?addw, ?subw, ?sllw, ?srlw, ?sraw, ?nil⟩
  case addw => exact fun _ _ _ _ => exec_of_aluRR rfl sextW_add
  case subw => exact fun _ _ _ _ => exec_of_aluRR rfl sextW_sub
  case sllw => exact fun _ _ _ _ => exec_of_aluRR rfl fun a b => by unfold shlW; rw [field_low5]; rfl
  case srlw => exact fun _ _ _ _ => exec_of_aluRR rfl fun a b => by unfold shrW; rw [field_low5]; rfl
  case sraw => exact fun _ _ _ _ => exec_of_aluRR rfl fun a b => by unfold sarW; rw [field_low5]; rfl
  case nil => exact List.forall_mem_nil _

/-- The amount of an immediate shift is its whole field (R16). -/
theorem field_setWidth {n : Nat} (sh : BitVec n) (h : n ≤ 64) : field (sh.setWidth 64) 0 n = sh.toNat := by
  show (sh.setWidth 64).toNat % 2 ^ n = sh.toNat
  rw [BitVec.toNat_setWidth_of_le h, Nat.mod_eq_of_lt sh.isLt]

/-- A two-source instruction completes where its sources are FULL and its destination is free (R48, R49). -/
theorem writesX_of_aluRR {i : Instr} {f : Word → Word → Word} {rd rs1 rs2 : BitVec 5} {s : State} (hi : exec i s = ok (aluRR f rd rs1 rs2 s))
    (hs : s.Running) (h1 : s.Full (.x rs1)) (h2 : s.Full (.x rs2)) (hd : s.Free (.x rd)) : WritesX i s rd (f (s.x rs1) (s.x rs2)) := by
  refine ⟨_, hi, ?_⟩
  unfold aluRR
  rw [readWrite_ready _ _ _ _ (by simpa using And.intro h1 h2) hd]
  exact goes_finishX s rd _ hs

/-- A one-source instruction completes where its source is FULL and its destination is free (R48, R49). -/
theorem writesX_of_aluR {i : Instr} {f : Word → Word} {rd rs1 : BitVec 5} {s : State} {v : Word} (hi : exec i s = ok (aluR f rd rs1 s))
    (hs : s.Running) (h1 : s.Full (.x rs1)) (hd : s.Free (.x rd)) (hv : f (s.x rs1) = v) : WritesX i s rd v := by
  refine ⟨_, hi, ?_⟩
  unfold aluR
  rw [readWrite_ready _ _ _ _ (by simpa using h1) hd, hv]
  exact goes_finishX s rd _ hs

/-- An instruction without sources completes where its destination is free (R49). -/
theorem writesX_of_writing {i : Instr} {v : State → Word} {rd : BitVec 5} {s : State}
    (hi : exec i s = ok (writing (.x rd) s fun s => s.finishX rd (v s))) (hs : s.Running) (hd : s.Free (.x rd)) : WritesX i s rd (v s) := by
  refine ⟨_, hi, ?_⟩
  rw [writing_free _ _ _ _ hd]
  exact goes_finishX s rd _ hs

end Sys2Proof.Machine

namespace Sys2Proof.Claims

open Sys2Proof.Machine

/-- Settles O1: each instruction computes its operation of the tables, and completes by R48 and R49 with its result. -/
theorem integerInstructionResults : Obligations.IntegerInstructionResults := by
  unfold Obligations.IntegerInstructionResults
  refine ⟨fun p hp rd rs1 rs2 s hs h1 h2 hd => ?_, fun p hp rd rs1 rs2 s hs h1 h2 hd => ?_, fun rd rs1 s hs hd => ⟨fun h1 => ⟨?_, ?_, ?_⟩, ?_, ?_⟩⟩
  · exact writesX_of_aluRR (exec_multiplyDivideOps p hp rd rs1 rs2 s) hs h1 h2 hd
  · refine writesX_of_aluRR ?_ hs h1 h2 hd
    exact (List.mem_append.1 hp).elim (fun h => exec_baseOps p h rd rs1 rs2 s) (fun h => exec_baseOpsW p h rd rs1 rs2 s)
  · simp only [immediateOps, List.forall_mem_cons]
    refine ⟨?addi, ?slti, ?sltiu, ?xori, ?ori, ?andi, ?addiw, List.forall_mem_nil _⟩
    case addiw => exact fun imm => writesX_of_aluR rfl hs h1 hd (sextW_add _ _)
    all_goals exact fun imm => writesX_of_aluR rfl hs h1 hd rfl
  · simp only [shiftOps, List.forall_mem_cons]
    refine ⟨fun sh => ?_, fun sh => ?_, fun sh => ?_, List.forall_mem_nil _⟩
    · exact writesX_of_aluR rfl hs h1 hd (by unfold shl; rw [field_setWidth sh (by decide)])
    · exact writesX_of_aluR rfl hs h1 hd (by unfold shr; rw [field_setWidth sh (by decide)])
    · exact writesX_of_aluR rfl hs h1 hd (by unfold sar; rw [field_setWidth sh (by decide)])
  · simp only [shiftOpsW, List.forall_mem_cons]
    refine ⟨fun sh => ?_, fun sh => ?_, fun sh => ?_, List.forall_mem_nil _⟩
    · exact writesX_of_aluR rfl hs h1 hd (by unfold shlW; rw [field_setWidth sh (by decide)])
    · exact writesX_of_aluR rfl hs h1 hd (by unfold shrW; rw [field_setWidth sh (by decide)])
    · exact writesX_of_aluR rfl hs h1 hd (by unfold sarW; rw [field_setWidth sh (by decide)])
  · exact fun imm => writesX_of_writing (v := fun _ => immU imm) rfl hs hd
  · exact fun imm => writesX_of_writing (v := fun s => s.me.pc + immU imm) rfl hs hd

end Sys2Proof.Claims
end

section
/-! Branches and jumps (R9). -/

namespace Sys2Proof.Machine

/-! ### Going on at an address (R9, R71) -/

/-- The issuing slot changes and its instruction goes on at an address (R71). -/
theorem goes_goto (s : State) (f : Slot → Slot) (target : Word) (h : s.Running) (hw : (f s.me).wait = s.me.wait)
    (hi : s.me.wait = none → (f s.me).st = s.me.st ∧ (f s.me).bseq = s.me.bseq ∧ (f s.me).marks = s.me.marks) :
    Goes s ((s.modMe f).goto target) (f s.me) target := by
  have e : (s.modMe f).goto target = s.modMe fun t => { (f t).endWait with pc := target } := State.modMe_modMe s f _ h
  have hm : (s.modMe fun t => { (f t).endWait with pc := target }).me = { (f s.me).endWait with pc := target } := State.me_modMe s _ h
  rw [e]
  refine ⟨sameBut_modMe s _, ?_, ?_, ?_, fun h0 => ?_⟩
  · rw [hm]
  · rw [hm]
    exact Slot.wait_endWait (f s.me)
  · rw [hm]
    exact Slot.still_endWait (f s.me)
  · rw [hm, Slot.endWait_of_none _ (hw.trans h0)]
    exact hi h0

/-- An instruction that changes nothing but the pc goes on at an address. -/
theorem goes_goto_id (s : State) (target : Word) (h : s.Running) : Goes s (s.goto target) s.me target := by
  have e : (s.modMe id).goto target = s.goto target := State.modMe_modMe s id _ h
  rw [← e]
  exact goes_goto s id target h rfl fun _ => ⟨rfl, rfl, rfl⟩

/-- The write of an x register leaves the slot's state, wait, block sequence number and marks. -/
theorem Slot.setX_frame (t : Slot) (rd : BitVec 5) (v : Word) :
    (t.setX rd v).st = t.st ∧ (t.setX rd v).wait = t.wait ∧ (t.setX rd v).bseq = t.bseq ∧ (t.setX rd v).marks = t.marks := by
  unfold Slot.setX
  split <;> exact ⟨rfl, rfl, rfl, rfl⟩

/-- An x register is written and the instruction goes on at an address. -/
theorem goes_setX_goto (s : State) (rd : BitVec 5) (v target : Word) (h : s.Running) :
    Goes s ((s.setX rd v).goto target) (s.me.setX rd v) target := by
  obtain ⟨hst, hwait, hbseq, hmarks⟩ := Slot.setX_frame s.me rd v
  exact goes_goto s (fun t => t.setX rd v) target h hwait fun _ => ⟨hst, hbseq, hmarks⟩

/-- The low two bits of an address are its remainder by 4. -/
theorem field_zero_two (w : Word) : field w 0 2 = w.toNat % 4 := rfl

/-- A jump to a multiple of 4 goes there (R9). -/
theorem jumpTo_aligned (target : Word) (s : State) (k : State → State) (h : target.toNat % 4 = 0) : jumpTo target s k = (k s).goto target :=
  if_neg (by simpa [field_zero_two] using h)

/-- A jump to any other address traps (R9). -/
theorem jumpTo_misaligned (target : Word) (s : State) (k : State → State) (h : target.toNat % 4 ≠ 0) : jumpTo target s k = s.trap 1 target :=
  if_pos (by simpa [field_zero_two] using h)

/-- A branch with FULL sources: what it does where it is taken and where it is not (R9). -/
theorem branch_full (cond : Word → Word → Bool) (rs1 rs2 : BitVec 5) (imm : BitVec 12) (s : State) (h1 : s.Full (.x rs1)) (h2 : s.Full (.x rs2)) :
    branch cond rs1 rs2 imm s = if cond (s.x rs1) (s.x rs2) then jumpTo (s.me.pc + immB imm) s id else s.retire :=
  reading_full _ _ _ _ (by simpa using And.intro h1 h2)

/-- BEQ to BGEU are branches on the conditions of RV64I (R9, R16). -/
theorem exec_branchOps : ∀ p ∈ Claims.branchOps, ∀ (rs1 rs2 : BitVec 5) (imm : BitVec 12) (s : State),
    exec (p.1 rs1 rs2 imm) s = ok (branch p.2 rs1 rs2 imm s) := by
  simp only [Claims.branchOps, List.forall_mem_cons]
  exact ⟨fun _ _ _ _ => rfl, fun _ _ _ _ => rfl, fun _ _ _ _ => rfl, fun _ _ _ _ => rfl, fun _ _ _ _ => rfl, fun _ _ _ _ => rfl,
    List.forall_mem_nil _⟩

/-- JAL with a free destination is a jump that writes it (R9, R49). -/
theorem exec_jal_of_free (rd : BitVec 5) (imm : BitVec 20) (s : State) (hd : s.Free (.x rd)) :
    exec (.jal rd imm) s = ok (jumpTo (s.me.pc + immJ imm) s fun t => t.setX rd (s.me.pc + 4)) :=
  congrArg ok (writing_free _ _ _ _ hd)

/-- JALR with a FULL source and a free destination is a jump that writes it (R9, R48, R49). -/
theorem exec_jalr_of_ready (rd rs1 : BitVec 5) (imm : BitVec 12) (s : State) (h1 : s.Full (.x rs1)) (hd : s.Free (.x rd)) :
    exec (.jalr rd rs1 imm) s = ok (jumpTo ((s.x rs1 + imm12 imm) &&& ~~~(1#64)) s fun t => t.setX rd (s.me.pc + 4)) :=
  congrArg ok (readWrite_ready _ _ _ _ (by simpa using h1) hd)

/-- A jump that writes its link register: it goes on at its target, or traps before the write (R9). -/
theorem links_of_jumpTo {i : Instr} {s : State} {rd : BitVec 5} {target v : Word} (hs : s.Running)
    (hi : exec i s = ok (jumpTo target s fun t => t.setX rd v)) :
    (target.toNat % 4 = 0 → ∃ t, exec i s = .next t ∧ Goes s t (s.me.setX rd v) target) ∧
    (target.toNat % 4 ≠ 0 → exec i s = .next (s.trap 1 target)) := by
  refine ⟨fun h => ⟨_, hi, ?_⟩, fun h => ?_⟩
  · rw [jumpTo_aligned _ _ _ h]
    exact goes_setX_goto s rd v target hs
  · rw [hi, jumpTo_misaligned _ _ _ h]
    rfl

end Sys2Proof.Machine

namespace Sys2Proof.Claims

open Sys2Proof.Machine

/-- Settles O4: a branch is taken or not by its condition, and each jump goes to its target or traps on a misaligned one. -/
theorem branchAndJumpResults : Obligations.BranchAndJumpResults := by
  unfold Obligations.BranchAndJumpResults
  refine ⟨fun p hp rs1 rs2 imm s hs h1 h2 => ?_, fun rd rs1 s hs hd => ⟨fun imm => ?_, fun h1 imm => ?_⟩⟩
  · have hrun := (exec_branchOps p hp rs1 rs2 imm s).trans (congrArg ok (branch_full p.2 rs1 rs2 imm s h1 h2))
    refine ⟨fun hc => ?nottaken, fun hc ht => ?taken, fun hc ht => ?misaligned⟩
    case nottaken => exact ⟨_, hrun.trans (by rw [hc]; rfl), goes_retire_id s hs⟩
    case taken =>
      refine ⟨_, hrun.trans (by rw [if_pos hc, jumpTo_aligned (s.me.pc + immB imm) s id ht]; rfl), goes_goto_id s _ hs⟩
    case misaligned =>
      rw [hrun, if_pos hc, jumpTo_misaligned (s.me.pc + immB imm) s id ht]
      rfl
  · exact links_of_jumpTo hs (exec_jal_of_free rd imm s hd)
  · exact links_of_jumpTo hs (exec_jalr_of_ready rd rs1 imm s h1 hd)

end Sys2Proof.Claims
end

section
/-! Traps of every slot, and a core that halts (R45, R336 to R343). -/

namespace Sys2Proof.Machine

/-! ### A core that halts (R343, R387) -/

/-- The plane operations that end make events due and are marked; nothing else changes. -/
theorem State.haltPlanes_frame (s : State) (cores : Nat → Bool) : ∃ a p, s.haltPlanes cores = { s with
    agenda := a
    planes := p } := by
  have hfold : ∀ (ops : List (Nat × PlaneOp)) (u : State),
      ∃ a, ops.foldl (fun s o => s.at s.cycle (.thresherFault o.1)) u = { u with agenda := a } := by
    intro ops
    induction ops with
    | nil => exact fun u => ⟨_, rfl⟩
    | cons o ops ih =>
      intro u
      obtain ⟨a, ha⟩ := ih (u.at u.cycle (.thresherFault o.1))
      exact ⟨a, ha⟩
  obtain ⟨a, ha⟩ := hfold _ _
  exact ⟨a, _, ha⟩

/-- A core that halts is HALTED; its slots, its scratchpad and global memory stay (R343). -/
theorem State.haltCore_spec (s : State) (c : Nat) :
    (s.haltCore c).halted c = true ∧ (∀ d i, (s.haltCore c).slot d i = s.slot d i) ∧ (∀ d, ((s.haltCore c).core d).spad = (s.core d).spad) ∧
      (s.haltCore c).mem = s.mem ∧ (s.haltCore c).curCore = s.curCore ∧ (s.haltCore c).curSlot = s.curSlot := by
  obtain ⟨a, p, h⟩ := State.haltPlanes_frame ((s.modCore c fun k => { k with halted := true }).alarmLog 1 1) (· == c)
  have hcores : (s.haltCore c).cores = (s.modCore c fun k => { k with halted := true }).cores := by
    unfold State.haltCore
    rw [h]
    rfl
  have hcore : ∀ d, (s.haltCore c).core d = (s.modCore c fun k => { k with halted := true }).core d := fun d => by
    unfold State.core
    rw [hcores]
  have hrest : ∀ d, ((s.haltCore c).core d).slots = (s.core d).slots ∧ ((s.haltCore c).core d).spad = (s.core d).spad := by
    intro d
    rw [hcore]
    by_cases hd : d = c
    · subst hd
      simp
    · simp [hd]
  refine ⟨?_, fun d i => ?_, fun d => (hrest d).2, ?_, ?_, ?_⟩
  · have hc : ((s.haltCore c).core c).halted = true := by simp [hcore]
    exact Bool.or_eq_true_iff.2 (.inr hc)
  · exact congrArg (fun v => vecGet v i Slot.reset) (hrest d).1
  all_goals
    unfold State.haltCore
    rw [h]
    rfl

/-- A halted core's slots do nothing at their issue cycles (R343). -/
theorem State.turn_of_halted (s : State) (c i : Nat) (h : s.halted c = true) : s.turn c i = (none, s) :=
  if_pos (.inl h)

/-! ### Traps (R336, R341, R342) -/

/-- A trap of a slot other than the service slot, but for cause 1, records the word (R339). -/
theorem faults_trap_word (s : State) (cause : Nat) (tval : Word) (h : s.curSlot < 15) (hc : cause ≠ 1) :
    Faults s (s.trap cause tval) cause s.curWord tval 0 := by
  have hf := faults_trap s cause tval 0 h
  rwa [if_neg hc] at hf

theorem callCause_ne_one (mode : Mode) : Claims.callCause mode ≠ 1 := by cases mode <;> decide

/-- ECALL traps with the cause of the mode (R45). -/
theorem exec_ecall (s : State) : exec .ecall s = .next (s.trap (Claims.callCause s.me.mode) 0) := by
  show ok (s.trap _ 0) = ok (s.trap _ 0)
  cases s.me.mode <;> rfl

/-- What a trap of the service slot does, from a state that differs only in the word (R342, R343). -/
def TrapsAtService (s : State) (i : Instr) (cause : Nat) (tval : Word) (m : State) : Prop :=
  let c := s.me.c
  let toS : Prop := s.me.mode = .s ∧ c.medeleg.getLsbD cause = true ∧ c.mstatus.getLsbD 1 = true
  (toS → ∃ t, exec i s = .next t ∧ Enters m t .s c.stvec { c with
    mstatus := Claims.entryStatus c.mstatus 1 5 8 1 1
    sepc := s.me.pc
    scause := BitVec.ofNat 64 cause
    stval := tval }) ∧
  (¬ toS → c.mstatus.getLsbD 3 = true → ∃ t, exec i s = .next t ∧ Enters m t .m c.mtvec { c with
    mstatus := Claims.entryStatus c.mstatus 3 7 11 2 (modeCode s.me.mode)
    mepc := s.me.pc
    mcause := BitVec.ofNat 64 cause
    mtval := tval }) ∧
  (¬ toS → c.mstatus.getLsbD 3 = false → ∃ t, exec i s = .next t ∧ t.halted s.curCore = true ∧ t.me = s.me ∧ t.here.spad = s.here.spad ∧
    t.mem = s.mem)

/-- A trap of the service slot enters S-mode or M-mode, or halts the core. -/
theorem trapsAtService_of_trap {s : State} {i : Instr} {cause : Nat} {tval : Word} (w : BitVec 32) (h : s.curSlot = 15)
    (hi : exec i s = .next ({ s with curWord := w }.trap cause tval)) : TrapsAtService s i cause tval { s with curWord := w } := by
  obtain ⟨hS, hM, hHalt⟩ := enters_trap { s with curWord := w } cause tval 0 h
  refine ⟨fun a => ⟨_, hi, hS a⟩, fun a b => ⟨_, hi, hM a b⟩, fun a b => ⟨_, hi, ?_⟩⟩
  rw [hHalt a b]
  obtain ⟨halted, slots, spads, mem, core, slot⟩ := State.haltCore_spec { s with curWord := w } s.curCore
  refine ⟨halted, ?_, ?_, mem⟩
  · show State.slot _ (State.curCore _) (State.curSlot _) = _
    rw [core, slot]
    exact slots _ _
  · show (State.core _ (State.curCore _)).spad = _
    rw [core]
    exact spads _

end Sys2Proof.Machine

namespace Sys2Proof.Claims

open Sys2Proof.Machine

/-- Settles O5: slots 0 to 14 fault, the service slot enters a mode or halts its core, and a halted core executes nothing. -/
theorem trapsOfEverySlot : Obligations.TrapsOfEverySlot := by
  unfold Obligations.TrapsOfEverySlot
  refine ⟨fun s hs => ⟨⟨_, exec_ecall s, ?_⟩, ⟨_, rfl, ?_⟩, fun w => ⟨_, rfl, ?_⟩⟩, fun s hs w => ?_, State.turn_of_halted⟩
  · exact faults_trap_word s _ 0 hs (callCause_ne_one s.me.mode)
  · exact faults_trap_word s 3 0 hs (by decide)
  · exact faults_trap_word { s with curWord := w } 2 (w.setWidth 64) hs (by decide)
  · simp only [List.forall_mem_cons]
    refine ⟨?ecall, ?ebreak, ?illegal, List.forall_mem_nil _⟩
    case ecall => exact trapsAtService_of_trap s.curWord hs (exec_ecall s)
    case ebreak => exact trapsAtService_of_trap s.curWord hs rfl
    case illegal => exact trapsAtService_of_trap w hs rfl

end Sys2Proof.Claims
end

section
/-! The CSR instructions (R26, R27). -/

namespace Sys2Proof.Machine

/-! ### CSR accesses (R26, R27) -/

/-- The mode of a slot reaches a CSR whose number asks for a privilege (R26). -/
theorem privilege_le_iff (n : Nat) (mode : Mode) :
    n / 256 % 4 ≤ modeCode mode ↔ n / 256 % 4 = 0 ∨ (n / 256 % 4 = 1 ∧ mode ≠ .u) ∨ mode = .m := by
  cases mode <;> simp [modeCode] <;> omega

/-- The legality test of a CSR access is the rule of R26 and R27: each of its four parts says one thing that the rule asks. -/
theorem csrLegal_iff (s : State) (n : Nat) (writes : Bool) : s.csrLegal n writes = true ↔ Claims.csrAllowed s n writes := by
  have hwrite : (!(writes && csrReadOnly n)) = true ↔ ¬ (writes = true ∧ (n / 1024 = 3 ∨ n = 0x301)) := by
    simp only [csrReadOnly, Bool.not_eq_true', ← Bool.not_eq_true, Bool.and_eq_true, Bool.or_eq_true, beq_iff_eq]
  have hsatp : (!(n == 0x180 && s.me.mode == .s && bitAt s.me.c.mstatus 20)) = true ↔
      ¬ (n = 0x180 ∧ s.me.mode = .s ∧ s.me.c.mstatus.getLsbD 20 = true) := by
    simp only [bitAt, Bool.not_eq_true', ← Bool.not_eq_true, Bool.and_eq_true, beq_iff_eq, and_assoc]
  unfold State.csrLegal Claims.csrAllowed
  rw [Bool.and_eq_true, Bool.and_eq_true, Bool.and_eq_true, decide_eq_true_eq, privilege_le_iff, hwrite, hsatp, and_assoc, and_assoc]

theorem csrLegal_of_allowed {s : State} {n : Nat} {writes : Bool} (h : Claims.csrAllowed s n writes) : s.csrLegal n writes = true :=
  (csrLegal_iff s n writes).2 h

theorem csrLegal_of_not_allowed {s : State} {n : Nat} {writes : Bool} (h : ¬ Claims.csrAllowed s n writes) : s.csrLegal n writes = false :=
  Bool.eq_false_iff.2 fun hl => h ((csrLegal_iff s n writes).1 hl)

/-- A CSR of the slot is written in the slot alone. -/
theorem csrWrite_own (s : State) (n : Nat) (v : Word) (h : n ∉ Claims.sharedCsrs) :
    s.csrWrite n v = s.modMe fun t => { t with
      u := t.u.write n v
      c := t.c.write n v } := by
  simp only [Claims.sharedCsrs, List.mem_cons, List.not_mem_nil, or_false, not_or] at h
  obtain ⟨h0, h2, h3, h4, -⟩ := h
  simp only [State.csrWrite, h0, h2, h3, h4, if_false]

/-- An allowed CSR instruction on a CSR of the slot reads, writes if it does, and completes (R27). -/
theorem csrOp_own (op : Nat) (writes : Bool) (rd : BitVec 5) (src : State → Word) (csr : BitVec 12) (s : State)
    (ha : Claims.csrAllowed s csr.toNat writes) (hd : s.Free (.x rd)) (hn : csr.toNat ∉ Claims.sharedCsrs) :
    csrOp op writes rd src csr s =
      ((if writes then s.csrWrite csr.toNat (csrNew op ((s.csrRead csr.toNat).getD 0) (src s)) else s).setX rd
        ((s.csrRead csr.toNat).getD 0)).retire := by
  have h7C1 : csr.toNat ≠ 0x7C1 := fun h => hn (by rw [h]; decide)
  unfold csrOp
  rw [if_neg (by rw [csrLegal_of_allowed ha]; decide), writing_free _ _ _ _ hd, if_neg h7C1]

/-- A register form with its source FULL is the operation on its value (R48). -/
theorem csrReg_full (op : Nat) (rd rs1 : BitVec 5) (csr : BitVec 12) (s : State) (ha : Claims.csrAllowed s csr.toNat (op == 1 || rs1 != 0))
    (h1 : s.Full (.x rs1)) : csrReg op rd rs1 csr s = csrOp op (op == 1 || rs1 != 0) rd (fun s => s.x rs1) csr s := by
  unfold csrReg
  rw [if_neg (by rw [csrLegal_of_allowed ha]; decide), reading_full _ _ _ _ (by simpa using h1)]

/-- An access that is not allowed is an illegal instruction, whatever its registers hold (R27). -/
theorem csrReg_illegal (op : Nat) (rd rs1 : BitVec 5) (csr : BitVec 12) (s : State)
    (ha : ¬ Claims.csrAllowed s csr.toNat (op == 1 || rs1 != 0)) : csrReg op rd rs1 csr s = s.illegal :=
  if_pos (csrLegal_of_not_allowed ha)

theorem csrImm_illegal (op : Nat) (rd uimm : BitVec 5) (csr : BitVec 12) (s : State)
    (ha : ¬ Claims.csrAllowed s csr.toNat (op == 1 || uimm != 0)) : csrImm op rd uimm csr s = s.illegal :=
  if_pos (csrLegal_of_not_allowed ha)

/-- A CSR of the slot is stored and the destination takes the value read before (R27). -/
def StoresCsr (i : Instr) (s : State) (rd : BitVec 5) (n : Nat) (v : Word) : Prop :=
  Completes i s s ({ s.me with
    u := s.me.u.write n v
    c := s.me.c.write n v }.setX rd ((s.csrRead n).getD 0))

section
variable {i : Instr} {s : State} {op : Nat} {rd : BitVec 5} {src : State → Word} {csr : BitVec 12} (hs : s.Running) (hd : s.Free (.x rd))
  (hn : csr.toNat ∉ Claims.sharedCsrs)
include hs hd hn

/-- A CSR instruction that writes stores what its operation makes of the old value and its operand. -/
theorem storesCsr_of_csrOp (hi : exec i s = ok (csrOp op true rd src csr s)) (ha : Claims.csrAllowed s csr.toNat true) :
    StoresCsr i s rd csr.toNat (csrNew op ((s.csrRead csr.toNat).getD 0) (src s)) := by
  refine ⟨_, hi, ?_⟩
  rw [csrOp_own op true rd src csr s ha hd hn, if_pos rfl, csrWrite_own _ _ _ hn]
  unfold State.setX
  rw [State.modMe_modMe _ _ _ hs]
  refine goes_retire s (fun t => Slot.setX { t with
    u := t.u.write csr.toNat _
    c := t.c.write csr.toNat _ } rd _) hs ?_ ?_ (fun _ => ⟨?_, ?_, ?_⟩) <;> (unfold Slot.setX; split <;> rfl)

/-- A CSR instruction that does not write reads. -/
theorem writesX_of_csrOp (hi : exec i s = ok (csrOp op false rd src csr s)) (ha : Claims.csrAllowed s csr.toNat false) :
    WritesX i s rd ((s.csrRead csr.toNat).getD 0) := by
  refine ⟨_, hi, ?_⟩
  rw [csrOp_own op false rd src csr s ha hd hn]
  exact goes_finishX s rd _ hs

end

/-- Which forms write (R27): CSRRW and CSRRWI always, the set and clear forms with a register or an immediate that is not zero. -/
theorem writes_of_ne_zero (op : Nat) {r : BitVec 5} (h : r ≠ 0) : (op == 1 || r != 0) = true :=
  Bool.or_eq_true_iff.2 (.inr (bne_iff_ne.2 h))

/-- A register form that writes stores its result. -/
theorem storesCsr_of_csrReg {i : Instr} {s : State} {op : Nat} {rd rs1 : BitVec 5} {csr : BitVec 12} (hi : exec i s = ok (csrReg op rd rs1 csr s))
    (hw : (op == 1 || rs1 != 0) = true) (hs : s.Running) (hd : s.Free (.x rd)) (hn : csr.toNat ∉ Claims.sharedCsrs)
    (ha : Claims.csrAllowed s csr.toNat true) (h1 : s.Full (.x rs1)) :
    StoresCsr i s rd csr.toNat (csrNew op ((s.csrRead csr.toNat).getD 0) (s.x rs1)) := by
  rw [csrReg_full op rd rs1 csr s (by rw [hw]; exact ha) h1, hw] at hi
  exact storesCsr_of_csrOp (src := fun s => s.x rs1) hs hd hn hi ha

/-- An immediate form that writes stores its result. -/
theorem storesCsr_of_csrImm {i : Instr} {s : State} {op : Nat} {rd uimm : BitVec 5} {csr : BitVec 12} (hi : exec i s = ok (csrImm op rd uimm csr s))
    (hw : (op == 1 || uimm != 0) = true) (hs : s.Running) (hd : s.Free (.x rd)) (hn : csr.toNat ∉ Claims.sharedCsrs)
    (ha : Claims.csrAllowed s csr.toNat true) :
    StoresCsr i s rd csr.toNat (csrNew op ((s.csrRead csr.toNat).getD 0) (uimm.setWidth 64)) := by
  unfold csrImm at hi
  rw [hw] at hi
  exact storesCsr_of_csrOp (src := fun _ => uimm.setWidth 64) hs hd hn hi ha

end Sys2Proof.Machine

namespace Sys2Proof.Claims

open Sys2Proof.Machine

/-- Settles O7: an allowed access of each form stores its operation's result or only reads, and any other access is illegal. -/
theorem csrInstructionResults : Obligations.CsrInstructionResults := by
  unfold Obligations.CsrInstructionResults
  refine ⟨fun rd rs1 csr s hs hd hn => ⟨fun ha => ⟨?csrrw, ?csrrwi, fun hr => ⟨fun h1 => ⟨?csrrs, ?csrrc⟩, ?csrrsi, ?csrrci⟩⟩, fun ha => ?reads⟩,
    fun rd rs1 csr s => ⟨fun ha => ⟨?illegal, ?illegalImm, fun hr => ?illegalSet⟩, fun ha => ?illegalRead⟩⟩
  case csrrw => exact fun h1 => storesCsr_of_csrReg (op := 1) rfl rfl hs hd hn ha h1
  case csrrwi => exact storesCsr_of_csrImm (op := 1) rfl rfl hs hd hn ha
  case csrrs => exact storesCsr_of_csrReg (op := 2) rfl (writes_of_ne_zero 2 hr) hs hd hn ha h1
  case csrrc => exact storesCsr_of_csrReg (op := 3) rfl (writes_of_ne_zero 3 hr) hs hd hn ha h1
  case csrrsi => exact storesCsr_of_csrImm (op := 2) rfl (writes_of_ne_zero 2 hr) hs hd hn ha
  case csrrci => exact storesCsr_of_csrImm (op := 3) rfl (writes_of_ne_zero 3 hr) hs hd hn ha
  case reads =>
    have hx0 : s.Full (.x 0) := rfl
    simp only [List.forall_mem_cons]
    refine ⟨?_, ?_, ?_, ?_, List.forall_mem_nil _⟩
    · exact writesX_of_csrOp hs hd hn (congrArg ok (csrReg_full 2 rd 0 csr s ha hx0)) ha
    · exact writesX_of_csrOp hs hd hn (congrArg ok (csrReg_full 3 rd 0 csr s ha hx0)) ha
    · exact writesX_of_csrOp (op := 2) hs hd hn rfl ha
    · exact writesX_of_csrOp (op := 3) hs hd hn rfl ha
  case illegal => exact congrArg ok (csrReg_illegal 1 rd rs1 csr s ha)
  case illegalImm => exact congrArg ok (csrImm_illegal 1 rd rs1 csr s ha)
  case illegalSet =>
    have h2 : ¬ csrAllowed s csr.toNat (2 == 1 || rs1 != 0) := by rwa [writes_of_ne_zero 2 hr]
    have h3 : ¬ csrAllowed s csr.toNat (3 == 1 || rs1 != 0) := by rwa [writes_of_ne_zero 3 hr]
    simp only [List.forall_mem_cons]
    exact ⟨congrArg ok (csrReg_illegal 2 rd rs1 csr s h2), congrArg ok (csrReg_illegal 3 rd rs1 csr s h3),
      congrArg ok (csrImm_illegal 2 rd rs1 csr s h2), congrArg ok (csrImm_illegal 3 rd rs1 csr s h3), List.forall_mem_nil _⟩
  case illegalRead =>
    simp only [List.forall_mem_cons]
    exact ⟨congrArg ok (csrReg_illegal 2 rd 0 csr s ha), congrArg ok (csrReg_illegal 3 rd 0 csr s ha),
      congrArg ok (csrImm_illegal 2 rd 0 csr s ha), congrArg ok (csrImm_illegal 3 rd 0 csr s ha), List.forall_mem_nil _⟩

end Sys2Proof.Claims
end

section
/-! The state after reset, and the CSRs with fixed values (R26, R46, R54, R417). -/

namespace Sys2Proof.Machine

/-! ### The state after reset (R417) -/

/-- The first issue of every service slot is due in cycle 15 (R69). -/
theorem mem_serviceIssues (n first k : Nat) (h : k < n) : { cycle := 15, phase := 3, act := .issue (first + k) 15 } ∈ serviceIssues n first := by
  induction n generalizing first k with
  | zero => exact absurd h (Nat.not_lt_zero k)
  | succ n ih =>
    cases k with
    | zero => exact List.mem_cons_self
    | succ k =>
      have hk := ih (first + 1) k (Nat.lt_of_succ_lt_succ h)
      rw [Nat.add_right_comm] at hk
      exact List.mem_cons_of_mem _ hk

/-- The slots of a core after reset: slot 15 is the service slot, the others hold no process. -/
theorem Core.slot_reset (i : Nat) : Core.reset.slot i = if i = 15 then Slot.service else Slot.reset := by
  unfold Core.slot Core.reset vecGet
  by_cases hi : i = 15
  · subst hi
    rfl
  · by_cases h16 : i < 16
    · simp [h16, hi, Vector.getElem_set_ne _ _ (Ne.symm hi)]
    · simp [h16, hi]

/-- The custom CSRs of every slot after reset. -/
theorem Core.slot_reset_u (i : Nat) : (Core.reset.slot i).u = UCsrs.reset := by
  rw [Core.slot_reset]
  split <;> rfl

/-- No slot is under HOLD after reset. -/
theorem Core.slot_reset_hold (i : Nat) : (Core.reset.slot i).hold = false := by
  rw [Core.slot_reset]
  split <;> rfl

/-! ### `wslot` (R54) -/

/-- A core of this panel is itself its place among the panel's cores. -/
theorem wslotLow_local (s : State) (c slot : Nat) (h : c < 16384) :
    s.wslotLow c slot = s.panel * 2 ^ 18 + dieOf c * 2 ^ 13 + rowOf c * 2 ^ 8 + colOf c * 16 + slot := by
  have hf : isForeign c = false := by
    unfold isForeign foreignBase
    exact decide_eq_false (by omega)
  simp [State.wslotLow, localPoint, hf]

/-- A field of a word built from a number, if it lies below bit 64. -/
theorem field_ofNat (n lo len : Nat) (h : lo + len ≤ 64) : field (BitVec.ofNat 64 n) lo len = n / 2 ^ lo % 2 ^ len := by
  unfold field bitsOf
  rw [BitVec.toNat_ofNat, Nat.shiftRight_eq_div_pow, ← Nat.add_sub_of_le (Nat.le_of_add_right_le h), Nat.pow_add, Nat.mod_mul_right_div_self]
  exact Nat.mod_mod_of_dvd _ (Nat.pow_dvd_pow 2 (by omega))

/-- The fields of `wslot` that name a slot of this panel. -/
theorem field_wslot (s : State) (hc : s.curCore < 16384) (hs : s.curSlot < 16) :
    field s.wslot 0 4 = s.curSlot ∧ field s.wslot 4 4 = colOf s.curCore ∧ field s.wslot 8 5 = rowOf s.curCore ∧
      field s.wslot 13 5 = dieOf s.curCore := by
  unfold State.wslot
  rw [wslotLow_local s s.curCore s.curSlot hc, field_ofNat _ 0 4 (by decide), field_ofNat _ 4 4 (by decide), field_ofNat _ 8 5 (by decide),
    field_ofNat _ 13 5 (by decide)]
  unfold colOf rowOf dieOf
  omega

end Sys2Proof.Machine

namespace Sys2Proof.Claims

open Sys2Proof.Machine

/-- Settles O55: the reset state part by part, and the CSRs whose reads no state changes. -/
theorem resetAndFixedValues : Obligations.ResetAndFixedValues := by
  unfold Obligations.ResetAndFixedValues
  refine ⟨fun c hc i hi => ?reset, rfl, rfl, fun s => ?fixed⟩
  case reset =>
    intro s
    have hslot : s.me = if i = 15 then Slot.service else Slot.reset := Core.slot_reset i
    have hu : s.me.u = UCsrs.reset := Core.slot_reset_u i
    refine ⟨fun h => ?service, fun h => ?others, Core.slot_reset_hold i, fun _ => rfl, rfl, ?_, ?_, ?_, ?_, ?_⟩
    case service =>
      rw [hslot, if_pos h]
      refine ⟨rfl, rfl, rfl, by decide, _, mem_serviceIssues 16384 0 c hc, ?_, rfl⟩
      exact congrArg (Act.issue · 15) (Nat.zero_add c)
    case others =>
      rw [hslot, if_neg h]
      exact ⟨rfl, rfl⟩
    all_goals
      show some _ = _
      rw [hu]
      rfl
  case fixed =>
    refine ⟨rfl, rfl, rfl, rfl, ?zeros, fun hc hs => ⟨_, rfl, field_wslot s hc hs⟩, fun hq => ?queue⟩
    case zeros =>
      simp only [List.forall_mem_cons]
      exact ⟨rfl, rfl, rfl, rfl, rfl, List.forall_mem_nil _⟩
    case queue =>
      show some s.here.readTrapq = some 0
      unfold Core.readTrapq
      rw [hq]

end Sys2Proof.Claims
end

section
/-! The retest of a restored wait (R230, R231, R353; log 91). -/

namespace Sys2Proof.Claims

open Sys2Proof.Machine

/-- The word of `fe.wait a0` (R61). -/
def feWaitWord : BitVec 32 := 0x2005100B

/-- The service slot of core 0 as `sload` has restored it and HOLD has been released (R353): BLOCKED at a `fe.wait a0` on a wait that is still to be
named, a0 EMPTY until a receive of endpoint 5 ends; the retest of the wait is the next thing due. -/
def restoredWait : State :=
  { State.quiet with
    agenda := [{ cycle := 0, phase := 0, act := .retest 0 15 }]
    cores := [(0, { Core.reset.modSlot 15 (fun t => { t with
        st := .blocked
        xs := t.xs.set 10 { fe := .empty, prod := some (.receive 5) }
        wait := some { kind := .resumed, since := 0, serial := 3 } }) with
      spad := [(0x1E0000, 0x0B), (0x1E0001, 0x10), (0x1E0002, 0x05), (0x1E0003, 0x20)] })] }

/-- What the outcome of an instruction leaves of that slot's wait: its block sequence number, and whether the slot is a node of the wait-for graph
(R230, R231). -/
def nodeAfter : Out → Option (BitVec 16 × Bool)
  | .next t => some ((t.slot 0 15).bseq, (t.slot 0 15).nodeKey.isSome)
  | _ => none

/-- The step names the wait and keeps the block sequence number, which the release has counted (log 91). -/
theorem nodeAfter_step_restoredWait : nodeAfter (step restoredWait) = some (0, true) := by decide +kernel

/-- The instruction itself names the wait and counts a new edge (R231). -/
theorem nodeAfter_exec_restoredWait :
    nodeAfter (exec (.feWait (.x 10)) { restoredWait with
      agenda := []
      curCore := 0
      curSlot := 15
      curWord := feWaitWord }) = some (1, true) := by decide +kernel

/-- Refutes O58: where a retest names a wait that makes the slot a node, the step restores the block sequence number that the instruction has raised,
so that its state is neither the one before nor the one the instruction leaves. -/
theorem not_stepRunsTheDecodedInstruction : ¬ Obligations.StepRunsTheDecodedInstruction := by
  unfold Obligations.StepRunsTheDecodedInstruction
  rintro ⟨-, -, -, -, retests, -⟩
  have hdecode : decode feWaitWord = .ok (.feWait (.x 10)) := decode_encode (.feWait (.x 10)) rfl
  obtain hstep | ⟨t, hexec, hstep, -⟩ := (retests restoredWait _ [] 0 15 rfl rfl).2 feWaitWord (.feWait (.x 10)) rfl rfl rfl rfl hdecode
  · have hnode := nodeAfter_step_restoredWait
    rw [hstep] at hnode
    exact absurd hnode (by decide +kernel)
  · have hcounts : nodeAfter (.next t) = some (1, true) := hexec ▸ nodeAfter_exec_restoredWait
    have hkeeps : nodeAfter (.next t) = some (0, true) := hstep ▸ nodeAfter_step_restoredWait
    exact absurd (hcounts.symm.trans hkeeps) (by decide)

end Sys2Proof.Claims
end
